-- ==== Sys2Proof/Word.lean ====
section
/-! DEFINITION. The word types of the machine and their plainest arithmetic (R2, R63). -/

namespace Sys2Proof

/-- A general register, an address while it is computed, a payload: 64 bits (R46). -/
abbrev Word := BitVec 64
/-- One addressable unit of memory (R2). -/
abbrev Byte := BitVec 8
/-- A general register number, x0 to x63 (R46). -/
abbrev Reg := Fin 64
/-- A predicate number, p0 to p7 (R46). -/
abbrev PReg := Fin 8
/-- A set of FCSR flags in the bit order of R83: NV, DZ, OF, UF, NX, OV. -/
abbrev Flags := BitVec 6

end Sys2Proof
end

