-- ==== Sys2Proof/Syntax.lean ====
section
/-! DEFINITION. The one syntax of the part's instructions: barrel instructions, fabric node instructions and the steps
the machine takes on its own, one constructor per row of the opcode table. -/

namespace Sys2Proof

/-- The guard of every barrel instruction (R37): `neg` is GN, `p` is GP. -/
structure Guard where
  neg : Bool
  p   : PReg
  deriving DecidableEq, Repr

/-- The scopes of R181, with the codes 0 to 4 of R45. -/
inductive Scope where
  | core | spire | die | package | system
  deriving DecidableEq, Repr

/-- The size codes of ORD (R45): 1, 2, 4, 8 and 16 bytes. -/
inductive OrdSize where
  | b | h | w | d | q
  deriving DecidableEq, Repr

/-- The instructions. Barrel operands: `g` guard, `d` `a` `b` the fields of R39 (a predicate number where the entry says
so, R41), `i` `o` `n` immediates as they stand in the word. Node operands: `a` and `b` the two consumer fields, `m` the
modifier (R240). A step of the machine names the agent it happens at by plain numbers: `tid` a thread identity (R6),
`spire` a global spire, `region` a region of its table, `ch` a channel, `ctx` a crucible context, `q` a host queue,
`die` a die; the other numbers are an index or a written value, as the meaning says. -/
inductive Instr where
  | nop (g : Guard)
  | ebrk (g : Guard)
  | ecall (g : Guard)
  | tret (g : Guard)
  | rdcyc (g : Guard) (d : Reg)
  | rdtime (g : Guard) (d : Reg)
  | tid (g : Guard) (d : Reg)
  | gtid (g : Guard) (d : Reg)
  | add (g : Guard) (d : Reg) (a : Reg) (b : Reg)
  | sub (g : Guard) (d : Reg) (a : Reg) (b : Reg)
  | mul (g : Guard) (d : Reg) (a : Reg) (b : Reg)
  | mulh (g : Guard) (d : Reg) (a : Reg) (b : Reg)
  | mulhu (g : Guard) (d : Reg) (a : Reg) (b : Reg)
  | div (g : Guard) (d : Reg) (a : Reg) (b : Reg)
  | divu (g : Guard) (d : Reg) (a : Reg) (b : Reg)
  | rem (g : Guard) (d : Reg) (a : Reg) (b : Reg)
  | remu (g : Guard) (d : Reg) (a : Reg) (b : Reg)
  | and (g : Guard) (d : Reg) (a : Reg) (b : Reg)
  | or (g : Guard) (d : Reg) (a : Reg) (b : Reg)
  | xor (g : Guard) (d : Reg) (a : Reg) (b : Reg)
  | shl (g : Guard) (d : Reg) (a : Reg) (b : Reg)
  | shr (g : Guard) (d : Reg) (a : Reg) (b : Reg)
  | sra (g : Guard) (d : Reg) (a : Reg) (b : Reg)
  | rot (g : Guard) (d : Reg) (a : Reg) (b : Reg)
  | addw (g : Guard) (d : Reg) (a : Reg) (b : Reg)
  | subw (g : Guard) (d : Reg) (a : Reg) (b : Reg)
  | mulw (g : Guard) (d : Reg) (a : Reg) (b : Reg)
  | shlw (g : Guard) (d : Reg) (a : Reg) (b : Reg)
  | shrw (g : Guard) (d : Reg) (a : Reg) (b : Reg)
  | sraw (g : Guard) (d : Reg) (a : Reg) (b : Reg)
  | min (g : Guard) (d : Reg) (a : Reg) (b : Reg)
  | max (g : Guard) (d : Reg) (a : Reg) (b : Reg)
  | minu (g : Guard) (d : Reg) (a : Reg) (b : Reg)
  | maxu (g : Guard) (d : Reg) (a : Reg) (b : Reg)
  | abs (g : Guard) (d : Reg) (a : Reg)
  | clz (g : Guard) (d : Reg) (a : Reg)
  | ctz (g : Guard) (d : Reg) (a : Reg)
  | popc (g : Guard) (d : Reg) (a : Reg)
  | brev (g : Guard) (d : Reg) (a : Reg)
  | bswap (g : Guard) (d : Reg) (a : Reg)
  | sextb (g : Guard) (d : Reg) (a : Reg)
  | sexth (g : Guard) (d : Reg) (a : Reg)
  | sextw (g : Guard) (d : Reg) (a : Reg)
  | zextb (g : Guard) (d : Reg) (a : Reg)
  | zexth (g : Guard) (d : Reg) (a : Reg)
  | zextw (g : Guard) (d : Reg) (a : Reg)
  | addi (g : Guard) (d : Reg) (a : Reg) (i : BitVec 10)
  | andi (g : Guard) (d : Reg) (a : Reg) (i : BitVec 10)
  | ori (g : Guard) (d : Reg) (a : Reg) (i : BitVec 10)
  | xori (g : Guard) (d : Reg) (a : Reg) (i : BitVec 10)
  | shli (g : Guard) (d : Reg) (a : Reg) (n : BitVec 6)
  | shri (g : Guard) (d : Reg) (a : Reg) (n : BitVec 6)
  | srai (g : Guard) (d : Reg) (a : Reg) (n : BitVec 6)
  | roti (g : Guard) (d : Reg) (a : Reg) (n : BitVec 6)
  | lui (g : Guard) (d : Reg) (i : BitVec 16)
  | lix (g : Guard) (d : Reg) (i : BitVec 16)
  | shadd1 (g : Guard) (d : Reg) (a : Reg) (b : Reg)
  | shadd2 (g : Guard) (d : Reg) (a : Reg) (b : Reg)
  | shadd3 (g : Guard) (d : Reg) (a : Reg) (b : Reg)
  | shadd4 (g : Guard) (d : Reg) (a : Reg) (b : Reg)
  | ceq (g : Guard) (p : PReg) (a : Reg) (b : Reg)
  | cne (g : Guard) (p : PReg) (a : Reg) (b : Reg)
  | clt (g : Guard) (p : PReg) (a : Reg) (b : Reg)
  | cltu (g : Guard) (p : PReg) (a : Reg) (b : Reg)
  | cle (g : Guard) (p : PReg) (a : Reg) (b : Reg)
  | cleu (g : Guard) (p : PReg) (a : Reg) (b : Reg)
  | ctst (g : Guard) (p : PReg) (a : Reg) (b : Reg)
  | ceqi (g : Guard) (p : PReg) (a : Reg) (i : BitVec 10)
  | cnei (g : Guard) (p : PReg) (a : Reg) (i : BitVec 10)
  | clti (g : Guard) (p : PReg) (a : Reg) (i : BitVec 10)
  | cltui (g : Guard) (p : PReg) (a : Reg) (i : BitVec 10)
  | clei (g : Guard) (p : PReg) (a : Reg) (i : BitVec 10)
  | cleui (g : Guard) (p : PReg) (a : Reg) (i : BitVec 10)
  | ctsti (g : Guard) (p : PReg) (a : Reg) (i : BitVec 10)
  | pand (g : Guard) (d : PReg) (a : PReg) (b : PReg)
  | por (g : Guard) (d : PReg) (a : PReg) (b : PReg)
  | pxor (g : Guard) (d : PReg) (a : PReg) (b : PReg)
  | pandn (g : Guard) (d : PReg) (a : PReg) (b : PReg)
  | pnot (g : Guard) (d : PReg) (a : PReg)
  | pset (g : Guard) (a : Reg)
  | pget (g : Guard) (d : Reg)
  | pmov (g : Guard) (d : PReg) (a : PReg)
  | faddS (g : Guard) (d : Reg) (a : Reg) (b : Reg)
  | fsubS (g : Guard) (d : Reg) (a : Reg) (b : Reg)
  | fmulS (g : Guard) (d : Reg) (a : Reg) (b : Reg)
  | fdivS (g : Guard) (d : Reg) (a : Reg) (b : Reg)
  | fsqrtS (g : Guard) (d : Reg) (a : Reg)
  | fminS (g : Guard) (d : Reg) (a : Reg) (b : Reg)
  | fmaxS (g : Guard) (d : Reg) (a : Reg) (b : Reg)
  | fabsS (g : Guard) (d : Reg) (a : Reg)
  | fnegS (g : Guard) (d : Reg) (a : Reg)
  | fcpysS (g : Guard) (d : Reg) (a : Reg) (b : Reg)
  | fclassS (g : Guard) (d : Reg) (a : Reg)
  | frcpS (g : Guard) (d : Reg) (a : Reg)
  | frsqS (g : Guard) (d : Reg) (a : Reg)
  | fexp2S (g : Guard) (d : Reg) (a : Reg)
  | flog2S (g : Guard) (d : Reg) (a : Reg)
  | ftanhS (g : Guard) (d : Reg) (a : Reg)
  | faddD (g : Guard) (d : Reg) (a : Reg) (b : Reg)
  | fsubD (g : Guard) (d : Reg) (a : Reg) (b : Reg)
  | fmulD (g : Guard) (d : Reg) (a : Reg) (b : Reg)
  | fdivD (g : Guard) (d : Reg) (a : Reg) (b : Reg)
  | fsqrtD (g : Guard) (d : Reg) (a : Reg)
  | fminD (g : Guard) (d : Reg) (a : Reg) (b : Reg)
  | fmaxD (g : Guard) (d : Reg) (a : Reg) (b : Reg)
  | fabsD (g : Guard) (d : Reg) (a : Reg)
  | fnegD (g : Guard) (d : Reg) (a : Reg)
  | fcpysD (g : Guard) (d : Reg) (a : Reg) (b : Reg)
  | fclassD (g : Guard) (d : Reg) (a : Reg)
  | fmacS (g : Guard) (d : Reg) (a : Reg) (b : Reg)
  | fmscS (g : Guard) (d : Reg) (a : Reg) (b : Reg)
  | fnmacS (g : Guard) (d : Reg) (a : Reg) (b : Reg)
  | fmacD (g : Guard) (d : Reg) (a : Reg) (b : Reg)
  | fmscD (g : Guard) (d : Reg) (a : Reg) (b : Reg)
  | fnmacD (g : Guard) (d : Reg) (a : Reg) (b : Reg)
  | fceqS (g : Guard) (p : PReg) (a : Reg) (b : Reg)
  | fcltS (g : Guard) (p : PReg) (a : Reg) (b : Reg)
  | fcleS (g : Guard) (p : PReg) (a : Reg) (b : Reg)
  | fcunS (g : Guard) (p : PReg) (a : Reg) (b : Reg)
  | fceqD (g : Guard) (p : PReg) (a : Reg) (b : Reg)
  | fcltD (g : Guard) (p : PReg) (a : Reg) (b : Reg)
  | fcleD (g : Guard) (p : PReg) (a : Reg) (b : Reg)
  | fcunD (g : Guard) (p : PReg) (a : Reg) (b : Reg)
  | cvtSD (g : Guard) (d : Reg) (a : Reg)
  | cvtDS (g : Guard) (d : Reg) (a : Reg)
  | cvtSH (g : Guard) (d : Reg) (a : Reg)
  | cvtHS (g : Guard) (d : Reg) (a : Reg)
  | cvtSBf (g : Guard) (d : Reg) (a : Reg)
  | cvtBfS (g : Guard) (d : Reg) (a : Reg)
  | cvtSE4 (g : Guard) (d : Reg) (a : Reg)
  | cvtE4S (g : Guard) (d : Reg) (a : Reg)
  | cvtSE5 (g : Guard) (d : Reg) (a : Reg)
  | cvtE5S (g : Guard) (d : Reg) (a : Reg)
  | cvtWS (g : Guard) (d : Reg) (a : Reg)
  | cvtSW (g : Guard) (d : Reg) (a : Reg)
  | cvtWuS (g : Guard) (d : Reg) (a : Reg)
  | cvtSWu (g : Guard) (d : Reg) (a : Reg)
  | cvtLD (g : Guard) (d : Reg) (a : Reg)
  | cvtDL (g : Guard) (d : Reg) (a : Reg)
  | br (g : Guard) (o : BitVec 22)
  | call (g : Guard) (o : BitVec 22)
  | jalr (g : Guard) (d : Reg) (a : Reg) (i : BitVec 10)
  | exit (g : Guard)
  | spawn (g : Guard) (d : Reg) (a : Reg) (b : Reg)
  | sleep (g : Guard) (d : Reg) (a : Reg) (p : PReg)
  | kill (g : Guard) (d : Reg) (a : Reg)
  | send (g : Guard) (a : Reg) (b : Reg)
  | sendw (g : Guard) (d : Reg) (a : Reg) (b : Reg)
  | hbind (g : Guard) (d : Reg) (a : Reg) (b : Reg)
  | hunbind (g : Guard) (d : Reg) (a : Reg)
  | lb (g : Guard) (d : Reg) (a : Reg) (i : BitVec 10)
  | lbu (g : Guard) (d : Reg) (a : Reg) (i : BitVec 10)
  | lh (g : Guard) (d : Reg) (a : Reg) (i : BitVec 10)
  | lhu (g : Guard) (d : Reg) (a : Reg) (i : BitVec 10)
  | lw (g : Guard) (d : Reg) (a : Reg) (i : BitVec 10)
  | lwu (g : Guard) (d : Reg) (a : Reg) (i : BitVec 10)
  | ld (g : Guard) (d : Reg) (a : Reg) (i : BitVec 10)
  | lq (g : Guard) (d : Reg) (a : Reg) (i : BitVec 10)
  | sb (g : Guard) (d : Reg) (a : Reg) (i : BitVec 10)
  | sh (g : Guard) (d : Reg) (a : Reg) (i : BitVec 10)
  | sw (g : Guard) (d : Reg) (a : Reg) (i : BitVec 10)
  | sd (g : Guard) (d : Reg) (a : Reg) (i : BitVec 10)
  | sq (g : Guard) (d : Reg) (a : Reg) (i : BitVec 10)
  | lacq (g : Guard) (d : Reg) (a : Reg) (s : Scope) (z : OrdSize)
  | srel (g : Guard) (d : Reg) (a : Reg) (s : Scope) (z : OrdSize)
  | ldf (g : Guard) (d : Reg) (a : Reg) (s : Scope)
  | ldfe (g : Guard) (d : Reg) (a : Reg) (s : Scope)
  | stef (g : Guard) (d : Reg) (a : Reg) (s : Scope)
  | stf (g : Guard) (d : Reg) (a : Reg) (s : Scope)
  | sto (g : Guard) (d : Reg) (a : Reg) (s : Scope)
  | sete (g : Guard) (a : Reg) (s : Scope)
  | peekf (g : Guard) (p : PReg) (a : Reg) (s : Scope)
  | arrive (g : Guard) (d : Reg) (a : Reg) (s : Scope)
  | expect (g : Guard) (d : Reg) (a : Reg) (s : Scope)
  | aaddD (g : Guard) (d : Reg) (a : Reg) (b : Reg)
  | aandD (g : Guard) (d : Reg) (a : Reg) (b : Reg)
  | aorD (g : Guard) (d : Reg) (a : Reg) (b : Reg)
  | axorD (g : Guard) (d : Reg) (a : Reg) (b : Reg)
  | aminD (g : Guard) (d : Reg) (a : Reg) (b : Reg)
  | amaxD (g : Guard) (d : Reg) (a : Reg) (b : Reg)
  | aminuD (g : Guard) (d : Reg) (a : Reg) (b : Reg)
  | amaxuD (g : Guard) (d : Reg) (a : Reg) (b : Reg)
  | aswpD (g : Guard) (d : Reg) (a : Reg) (b : Reg)
  | acasD (g : Guard) (d : Reg) (a : Reg) (b : Reg)
  | afaddD (g : Guard) (d : Reg) (a : Reg) (b : Reg)
  | aaddW (g : Guard) (d : Reg) (a : Reg) (b : Reg)
  | aandW (g : Guard) (d : Reg) (a : Reg) (b : Reg)
  | aorW (g : Guard) (d : Reg) (a : Reg) (b : Reg)
  | axorW (g : Guard) (d : Reg) (a : Reg) (b : Reg)
  | aminW (g : Guard) (d : Reg) (a : Reg) (b : Reg)
  | amaxW (g : Guard) (d : Reg) (a : Reg) (b : Reg)
  | aminuW (g : Guard) (d : Reg) (a : Reg) (b : Reg)
  | amaxuW (g : Guard) (d : Reg) (a : Reg) (b : Reg)
  | aswpW (g : Guard) (d : Reg) (a : Reg) (b : Reg)
  | acasW (g : Guard) (d : Reg) (a : Reg) (b : Reg)
  | afaddW (g : Guard) (d : Reg) (a : Reg) (b : Reg)
  | fenceAcq (g : Guard) (s : Scope)
  | fenceRel (g : Guard) (s : Scope)
  | fenceAr (g : Guard) (s : Scope)
  | fenceCpy (g : Guard) (s : Scope)
  | fenceSrv (g : Guard) (s : Scope)
  | cflush (g : Guard) (a : Reg)
  | cinv (g : Guard) (a : Reg)
  | cpref (g : Guard) (a : Reg)
  | czero (g : Guard) (a : Reg)
  | cclean (g : Guard) (a : Reg)
  | gjoin (g : Guard) (d : Reg) (n : BitVec 6)
  | gleave (g : Guard) (d : Reg) (n : BitVec 6)
  | gsync (g : Guard) (n : BitVec 6)
  | gshfl (g : Guard) (d : Reg) (a : Reg) (n : BitVec 6)
  | gshflx (g : Guard) (d : Reg) (a : Reg) (n : BitVec 6)
  | gbcast (g : Guard) (d : Reg) (a : Reg) (n : BitVec 6)
  | gvoteAny (g : Guard) (d : Reg) (a : Reg) (n : BitVec 6)
  | gvoteAll (g : Guard) (d : Reg) (a : Reg) (n : BitVec 6)
  | gvoteBal (g : Guard) (d : Reg) (a : Reg) (n : BitVec 6)
  | gmatch (g : Guard) (d : Reg) (a : Reg) (n : BitVec 6)
  | gredAdd (g : Guard) (d : Reg) (a : Reg) (n : BitVec 6)
  | gredMin (g : Guard) (d : Reg) (a : Reg) (n : BitVec 6)
  | gredMax (g : Guard) (d : Reg) (a : Reg) (n : BitVec 6)
  | gredFadd (g : Guard) (d : Reg) (a : Reg) (n : BitVec 6)
  | gredFmax (g : Guard) (d : Reg) (a : Reg) (n : BitVec 6)
  | gscanAdd (g : Guard) (d : Reg) (a : Reg) (n : BitVec 6)
  | ldxtB (g : Guard) (d : Reg) (a : Reg) (b : Reg)
  | ldxtH (g : Guard) (d : Reg) (a : Reg) (b : Reg)
  | srv (g : Guard) (a : Reg) (n : BitVec 3) (r : BitVec 3)
  | srvnw (g : Guard) (p : PReg) (a : Reg) (n : BitVec 3) (r : BitVec 3)
  | srvq (g : Guard) (d : Reg) (a : Reg)
  | cfgld (g : Guard) (d : Reg) (a : Reg)
  | cfgpin (g : Guard) (d : Reg) (a : Reg)
  | cfgunpin (g : Guard) (d : Reg) (a : Reg)
  | cfgev (g : Guard) (d : Reg) (a : Reg)
  | mxw (g : Guard) (d : Reg) (a : Reg) (n : BitVec 6)
  | mxa (g : Guard) (d : Reg) (a : Reg) (n : BitVec 6)
  | mxc (g : Guard) (d : Reg) (a : Reg) (n : BitVec 6)
  | mxd (g : Guard) (d : Reg) (a : Reg) (n : BitVec 6)
  | mxmd (g : Guard) (d : Reg) (a : Reg) (n : BitVec 6)
  | mxst (g : Guard) (d : Reg) (a : Reg) (n : BitVec 6)
  | cpy (g : Guard) (d : Reg) (a : Reg) (p : BitVec 1) (c : BitVec 4)
  | cshp (g : Guard) (d : Reg) (a : Reg) (c : BitVec 4)
  | cpyq (g : Guard) (d : Reg) (a : Reg) (c : BitVec 4)
  | cpyres (g : Guard) (d : Reg) (a : Reg) (c : BitVec 4)
  | cpyabt (g : Guard) (d : Reg) (l : BitVec 1) (c : BitVec 4)
  | wmrd (g : Guard) (d : Reg) (c : BitVec 4)
  | wmwait (g : Guard) (d : Reg) (a : Reg) (c : BitVec 4)
  | mstart (g : Guard) (d : Reg) (a : Reg) (c : BitVec 1)
  | mstrm (g : Guard) (d : Reg) (a : Reg) (c : BitVec 1) (u : BitVec 1) (s : BitVec 4)
  | mpush (g : Guard) (d : Reg) (a : Reg) (c : BitVec 1) (s : BitVec 4)
  | mfin (g : Guard) (d : Reg) (a : Reg) (c : BitVec 1)
  | mspill (g : Guard) (d : Reg) (a : Reg) (c : BitVec 1)
  | mstat (g : Guard) (d : Reg) (a : Reg) (c : BitVec 1)
  | xsect (g : Guard) (d : Reg) (a : Reg) (c : BitVec 1)
  | xunion (g : Guard) (d : Reg) (a : Reg) (c : BitVec 1)
  | xcnt (g : Guard) (d : Reg) (a : Reg) (c : BitVec 1)
  | csrrw (g : Guard) (d : Reg) (a : Reg) (i : BitVec 10)
  | csrrs (g : Guard) (d : Reg) (a : Reg) (i : BitVec 10)
  | csrrc (g : Guard) (d : Reg) (a : Reg) (i : BitVec 10)
  | tlbi (g : Guard) (d : Reg) (a : Reg) (b : Reg)
  | slotsave (g : Guard) (d : Reg) (a : Reg) (b : Reg)
  | slotload (g : Guard) (d : Reg) (a : Reg)
  | slotctl (g : Guard) (d : Reg) (a : Reg) (b : Reg)
  | rgnset (g : Guard) (d : Reg) (a : Reg) (b : Reg)
  | trace (g : Guard) (a : Reg) (b : Reg)
  | mark (g : Guard) (d : Reg) (a : Reg)
  | snap (g : Guard) (d : Reg)
  | nIadd (a : BitVec 9) (b : BitVec 9) (m : BitVec 6)
  | nIsub (a : BitVec 9) (b : BitVec 9) (m : BitVec 6)
  | nImul (a : BitVec 9) (b : BitVec 9) (m : BitVec 6)
  | nIand (a : BitVec 9) (b : BitVec 9) (m : BitVec 6)
  | nIor (a : BitVec 9) (b : BitVec 9) (m : BitVec 6)
  | nIxor (a : BitVec 9) (b : BitVec 9) (m : BitVec 6)
  | nIshl (a : BitVec 9) (b : BitVec 9) (m : BitVec 6)
  | nIshr (a : BitVec 9) (b : BitVec 9) (m : BitVec 6)
  | nIsra (a : BitVec 9) (b : BitVec 9) (m : BitVec 6)
  | nImin (a : BitVec 9) (b : BitVec 9) (m : BitVec 6)
  | nImax (a : BitVec 9) (b : BitVec 9) (m : BitVec 6)
  | nIcmp (a : BitVec 9) (b : BitVec 9) (m : BitVec 6)
  | nFadd (a : BitVec 9) (b : BitVec 9) (m : BitVec 6)
  | nFmul (a : BitVec 9) (b : BitVec 9) (m : BitVec 6)
  | nFma (a : BitVec 9) (b : BitVec 9) (m : BitVec 6)
  | nFmax (a : BitVec 9) (b : BitVec 9) (m : BitVec 6)
  | nFmin (a : BitVec 9) (b : BitVec 9) (m : BitVec 6)
  | nExp2 (a : BitVec 9) (b : BitVec 9) (m : BitVec 6)
  | nLog2 (a : BitVec 9) (b : BitVec 9) (m : BitVec 6)
  | nRcp (a : BitVec 9) (b : BitVec 9) (m : BitVec 6)
  | nRsq (a : BitVec 9) (b : BitVec 9) (m : BitVec 6)
  | nCvt (a : BitVec 9) (b : BitVec 9) (m : BitVec 6)
  | nSteer (a : BitVec 9) (b : BitVec 9) (m : BitVec 6)
  | nJoin (a : BitVec 9) (b : BitVec 9) (m : BitVec 6)
  | nMux (a : BitVec 9) (b : BitVec 9) (m : BitVec 6)
  | nRecirc (a : BitVec 9) (b : BitVec 9)
  | nEosx (a : BitVec 9) (b : BitVec 9) (m : BitVec 6)
  | nDup (a : BitVec 9) (b : BitVec 9)
  | nDelay (a : BitVec 9) (b : BitVec 9)
  | nConst (a : BitVec 9) (b : BitVec 9)
  | nTagchk (a : BitVec 9) (b : BitVec 9) (m : BitVec 6)
  | nFilter (a : BitVec 9) (b : BitVec 9) (m : BitVec 6)
  | nCoalesce (a : BitVec 9) (b : BitVec 9) (m : BitVec 6)
  | nCmpx (a : BitVec 9) (b : BitVec 9) (m : BitVec 6)
  | nLoopgen (a : BitVec 9) (b : BitVec 9) (m : BitVec 6)
  | nAddrgen (a : BitVec 9) (b : BitVec 9) (m : BitVec 6)
  | nLdn (a : BitVec 9) (b : BitVec 9) (m : BitVec 6)
  | nStn (a : BitVec 9) (b : BitVec 9) (m : BitVec 6)
  | nEntry (a : BitVec 9) (b : BitVec 9)
  | nReturn (a : BitVec 9) (b : BitVec 9)
  | evEventTaken (tid : Nat)
  | evThreadResume (tid : Nat)
  | evLoadResponse (tid k : Nat)
  | evStorePerformed (tid q k : Nat)
  | evAtomicAtHome (tid q : Nat)
  | evSyncWordAtHome (tid : Nat)
  | evWaitlistRetry (list : Nat)
  | evIcacheFill (tid : Nat)
  | evPageWalk (tid : Nat)
  | evSleepTimeout (tid : Nat)
  | evLongPark (tid : Nat)
  | evMessageArrival (n : Nat)
  | evAnswerArrival (tid : Nat)
  | evKillArrival (tid : Nat)
  | evDrainComplete (tid : Nat)
  | evHeldRedelivery (die n : Nat)
  | evCollectiveComplete (spire n : Nat)
  | evRecordEntry (spire region tid : Nat)
  | evReturnDelivery (spire region tid : Nat)
  | evHearthPlace (spire region : Nat)
  | evRegionClosed (spire region : Nat)
  | evShadowWrite (spire region i j : Nat)
  | evCellSwap (spire region i j u : Nat)
  | evMatrixOpStart (spire region : Nat)
  | evRowDrain (spire region : Nat)
  | evMatrixHalt (spire region : Nat)
  | evElementLand (spire ch : Nat)
  | evCopySignal (spire ch : Nat)
  | evStreamRead (spire ctx k : Nat)
  | evSpill (spire ctx : Nat)
  | evMergeFinish (spire ctx : Nat)
  | evSetOperation (spire ctx : Nat)
  | evRegionQuiet (spire region : Nat)
  | evCutDone (spire region : Nat)
  | evDbgtrig
  | evSnapshotLatch (spire : Nat)
  | evTraceWrite (spire : Nat)
  | evWidxWrite (q v : Nat)
  | evQstatErr (q : Nat)
  | evQstatFault (q : Nat)
  | evQstatAbort (q : Nat)
  | evEvrWrite (q v : Nat)
  | evRefusedWrite (spire region v : Nat)
  | evNodeStateWrite (spire region o : Nat)
  | evRctlWrite (spire region v : Nat)
  | evBkcfgWrite (spire region k v : Nat)
  | evRegisterWrite (o v : Nat)
  | evLaunch (q : Nat)
  | evLaunchPlace (die : Nat)
  | evBind (q : Nat)
  | evBindInbound (spire region k : Nat)
  | evBindOutbound (spire region k : Nat)
  | evWait (q : Nat)
  | evSignalStf (q : Nat)
  | evSignalArrive (q : Nat)
  | evSignalAadd (q : Nat)
  | evConfigLoad (q : Nat)
  | evConfigUnload (q : Nat)
  | evConfigForce (q : Nat)
  | evRegion (q : Nat)
  | evCopy (q : Nat)
  | evFence (q : Nat)
  | evCommandComplete (q k : Nat)
  | evSeqEnd (q k : Nat)
  | evSeqLoad (q k : Nat)
  | evSeqSwap (q k : Nat)
  | evSeqWaiteos (q k : Nat)
  | evSeqWaitc (q k : Nat)
  | evSeqSkipc (q k : Nat)
  | evSeqPin (q k : Nat)
  | evSeqUnpin (q k : Nat)
  | evPeerAccess (p : Nat)
  | evPeerLinkDown (p : Nat)
  | evIslctlWrite (i v : Nat)
  | evIslandPowerUp (i : Nat)
  | evIslandGate (i : Nat)
  | evVfChange (i : Nat)
  | evThermalThrottle (i : Nat)
  | evForcedGate (i : Nat)
  | evEccWindow (k i : Nat)
  | evUncorrectableError (o : Nat)
  | evPackageReset (die : Nat)
  | evAttctlWrite (die v : Nat)
  | evAttestationDone (die : Nat)
  | evMatrixStreamRead (spire region : Nat)
  | evMemoryNodeAccessDone (spire region k : Nat)
  | evPeerLinkUp (p : Nat)
  deriving DecidableEq, Repr

end Sys2Proof
end

