-- ==== Sys2Proof/Decode.lean ====
section
/-! DEFINITION. From bits to instructions and back (R36 to R45, R245): the decoder refuses with the subcause of R45, and the
encoder writes the same formats. Definitions that build constructors past the 244th carry 'noncomputable': Lean's code
generator has no tag for them; the kernel evaluates them all the same. -/

namespace Sys2Proof

/-- Bits `lo` + `w` − 1 down to `lo` of an instruction word. -/
def bitsOf (n lo w : Nat) : Nat := n / 2 ^ lo % 2 ^ w

/-- The guard field (R37). -/
def wG (n : Nat) : Guard := ⟨decide (n / 2147483648 % 2 = 1), Fin.ofNat 8 (n / 268435456)⟩
/-- The d field as a general register (R39). -/
def wD (n : Nat) : Reg := Fin.ofNat 64 (n / 65536)
/-- The a field as a general register. -/
def wA (n : Nat) : Reg := Fin.ofNat 64 (n / 1024)
/-- The b field as a general register. -/
def wB (n : Nat) : Reg := Fin.ofNat 64 (n / 16)
/-- The d, a and b fields as predicates (R41): bits 2:0 of the field. -/
def wPd (n : Nat) : PReg := Fin.ofNat 8 (n / 65536)
def wPa (n : Nat) : PReg := Fin.ofNat 8 (n / 1024)
def wPb (n : Nat) : PReg := Fin.ofNat 8 (n / 16)

/-- A scope code (R45): 5, 6 and 7 name no scope. -/
def scopeOf (c : Nat) : Option Scope :=
  match c with
  | 0 => some .core | 1 => some .spire | 2 => some .die | 3 => some .package | 4 => some .system
  | _ => none

/-- The code of a scope. -/
def Scope.code : Scope → Nat
  | .core => 0 | .spire => 1 | .die => 2 | .package => 3 | .system => 4

/-- An ORD size code (R45). -/
def ordSizeOf (c : Nat) : Option OrdSize :=
  match c with
  | 0 => some .b | 1 => some .h | 2 => some .w | 3 => some .d | 4 => some .q
  | _ => none

/-- The code of an ORD size. -/
def OrdSize.code : OrdSize → Nat
  | .b => 0 | .h => 1 | .w => 2 | .d => 3 | .q => 4

/-- The CSR numbers of R359; every other number names no CSR. -/
def csrNamed (i : BitVec 10) : Bool :=
  let n := i.toNat
  n == 0x001 || n == 0x002 || n == 0x080 || n == 0x081 || (0x100 ≤ n && n ≤ 0x110)

/-- Banks 1, 3 and 5 are read-only (R48). -/
def csrReadOnly (i : BitVec 10) : Bool := i.getLsbD 7

/-- What the class decoders answer: a subcause of R45, or the bits that must be zero (R41) and the instruction. -/
abbrev Raw := Except Nat (Nat × Instr)

/-- An instruction whose scope field was read. -/
def withScope (c : Nat) (z : Nat) (f : Scope → Instr) : Raw :=
  match scopeOf c with
  | some s => .ok (z, f s)
  | none => .error 5

/-- Major 0x00 (R43). -/
def decodeMisc (n : Nat) : Raw :=
  match bitsOf n 0 4 with
  | 0 => .ok (bitsOf n 4 18, .nop (wG n))
  | 1 => .ok (bitsOf n 4 18, .ebrk (wG n))
  | 2 => .ok (bitsOf n 4 18, .ecall (wG n))
  | 3 => .ok (bitsOf n 4 18, .tret (wG n))
  | 4 => .ok (bitsOf n 4 12, .rdcyc (wG n) (wD n))
  | 5 => .ok (bitsOf n 4 12, .rdtime (wG n) (wD n))
  | 6 => .ok (bitsOf n 4 12, .tid (wG n) (wD n))
  | 7 => .ok (bitsOf n 4 12, .gtid (wG n) (wD n))
  | _ => .error 2

/-- Major 0x01 (R43). -/
def decodeAlu (n : Nat) : Raw :=
  match bitsOf n 0 4 with
  | 0 => .ok (0, .add (wG n) (wD n) (wA n) (wB n))
  | 1 => .ok (0, .sub (wG n) (wD n) (wA n) (wB n))
  | 2 => .ok (0, .mul (wG n) (wD n) (wA n) (wB n))
  | 3 => .ok (0, .mulh (wG n) (wD n) (wA n) (wB n))
  | 4 => .ok (0, .mulhu (wG n) (wD n) (wA n) (wB n))
  | 5 => .ok (0, .div (wG n) (wD n) (wA n) (wB n))
  | 6 => .ok (0, .divu (wG n) (wD n) (wA n) (wB n))
  | 7 => .ok (0, .rem (wG n) (wD n) (wA n) (wB n))
  | 8 => .ok (0, .remu (wG n) (wD n) (wA n) (wB n))
  | 9 => .ok (0, .and (wG n) (wD n) (wA n) (wB n))
  | 10 => .ok (0, .or (wG n) (wD n) (wA n) (wB n))
  | 11 => .ok (0, .xor (wG n) (wD n) (wA n) (wB n))
  | 12 => .ok (0, .shl (wG n) (wD n) (wA n) (wB n))
  | 13 => .ok (0, .shr (wG n) (wD n) (wA n) (wB n))
  | 14 => .ok (0, .sra (wG n) (wD n) (wA n) (wB n))
  | _ => .ok (0, .rot (wG n) (wD n) (wA n) (wB n))

/-- Major 0x02 (R43). -/
def decodeAluw (n : Nat) : Raw :=
  match bitsOf n 0 4 with
  | 0 => .ok (0, .addw (wG n) (wD n) (wA n) (wB n))
  | 1 => .ok (0, .subw (wG n) (wD n) (wA n) (wB n))
  | 2 => .ok (0, .mulw (wG n) (wD n) (wA n) (wB n))
  | 3 => .ok (0, .shlw (wG n) (wD n) (wA n) (wB n))
  | 4 => .ok (0, .shrw (wG n) (wD n) (wA n) (wB n))
  | 5 => .ok (0, .sraw (wG n) (wD n) (wA n) (wB n))
  | _ => .error 2

/-- Major 0x03 (R43). -/
def decodeBit (n : Nat) : Raw :=
  match bitsOf n 0 4 with
  | 0 => .ok (0, .min (wG n) (wD n) (wA n) (wB n))
  | 1 => .ok (0, .max (wG n) (wD n) (wA n) (wB n))
  | 2 => .ok (0, .minu (wG n) (wD n) (wA n) (wB n))
  | 3 => .ok (0, .maxu (wG n) (wD n) (wA n) (wB n))
  | 4 => .ok (bitsOf n 4 6, .abs (wG n) (wD n) (wA n))
  | 5 => .ok (bitsOf n 4 6, .clz (wG n) (wD n) (wA n))
  | 6 => .ok (bitsOf n 4 6, .ctz (wG n) (wD n) (wA n))
  | 7 => .ok (bitsOf n 4 6, .popc (wG n) (wD n) (wA n))
  | 8 => .ok (bitsOf n 4 6, .brev (wG n) (wD n) (wA n))
  | 9 => .ok (bitsOf n 4 6, .bswap (wG n) (wD n) (wA n))
  | 10 => .ok (bitsOf n 4 6, .sextb (wG n) (wD n) (wA n))
  | 11 => .ok (bitsOf n 4 6, .sexth (wG n) (wD n) (wA n))
  | 12 => .ok (bitsOf n 4 6, .sextw (wG n) (wD n) (wA n))
  | 13 => .ok (bitsOf n 4 6, .zextb (wG n) (wD n) (wA n))
  | 14 => .ok (bitsOf n 4 6, .zexth (wG n) (wD n) (wA n))
  | _ => .ok (bitsOf n 4 6, .zextw (wG n) (wD n) (wA n))

/-- Major 0x08 (R43). -/
def decodeShifti (n : Nat) : Raw :=
  match bitsOf n 0 4 with
  | 0 => .ok (0, .shli (wG n) (wD n) (wA n) (BitVec.ofNat 6 (n / 16)))
  | 1 => .ok (0, .shri (wG n) (wD n) (wA n) (BitVec.ofNat 6 (n / 16)))
  | 2 => .ok (0, .srai (wG n) (wD n) (wA n) (BitVec.ofNat 6 (n / 16)))
  | 3 => .ok (0, .roti (wG n) (wD n) (wA n) (BitVec.ofNat 6 (n / 16)))
  | _ => .error 2

/-- Major 0x0B (R43). -/
def decodeScale (n : Nat) : Raw :=
  match bitsOf n 0 4 with
  | 0 => .ok (0, .shadd1 (wG n) (wD n) (wA n) (wB n))
  | 1 => .ok (0, .shadd2 (wG n) (wD n) (wA n) (wB n))
  | 2 => .ok (0, .shadd3 (wG n) (wD n) (wA n) (wB n))
  | 3 => .ok (0, .shadd4 (wG n) (wD n) (wA n) (wB n))
  | _ => .error 2

/-- Major 0x0C (R43). -/
def decodeCmp (n : Nat) : Raw :=
  match bitsOf n 0 4 with
  | 0 => .ok (bitsOf n 19 3, .ceq (wG n) (wPd n) (wA n) (wB n))
  | 1 => .ok (bitsOf n 19 3, .cne (wG n) (wPd n) (wA n) (wB n))
  | 2 => .ok (bitsOf n 19 3, .clt (wG n) (wPd n) (wA n) (wB n))
  | 3 => .ok (bitsOf n 19 3, .cltu (wG n) (wPd n) (wA n) (wB n))
  | 4 => .ok (bitsOf n 19 3, .cle (wG n) (wPd n) (wA n) (wB n))
  | 5 => .ok (bitsOf n 19 3, .cleu (wG n) (wPd n) (wA n) (wB n))
  | 6 => .ok (bitsOf n 19 3, .ctst (wG n) (wPd n) (wA n) (wB n))
  | _ => .error 2

/-- Major 0x0D (R43). -/
def decodeCmpi (n : Nat) : Raw :=
  match bitsOf n 19 3 with
  | 0 => .ok (0, .ceqi (wG n) (wPd n) (wA n) (BitVec.ofNat 10 n))
  | 1 => .ok (0, .cnei (wG n) (wPd n) (wA n) (BitVec.ofNat 10 n))
  | 2 => .ok (0, .clti (wG n) (wPd n) (wA n) (BitVec.ofNat 10 n))
  | 3 => .ok (0, .cltui (wG n) (wPd n) (wA n) (BitVec.ofNat 10 n))
  | 4 => .ok (0, .clei (wG n) (wPd n) (wA n) (BitVec.ofNat 10 n))
  | 5 => .ok (0, .cleui (wG n) (wPd n) (wA n) (BitVec.ofNat 10 n))
  | 6 => .ok (0, .ctsti (wG n) (wPd n) (wA n) (BitVec.ofNat 10 n))
  | _ => .error 2

/-- Major 0x0E (R43). -/
def decodePred (n : Nat) : Raw :=
  match bitsOf n 0 4 with
  | 0 => .ok (bitsOf n 7 3 + bitsOf n 13 3 + bitsOf n 19 3, .pand (wG n) (wPd n) (wPa n) (wPb n))
  | 1 => .ok (bitsOf n 7 3 + bitsOf n 13 3 + bitsOf n 19 3, .por (wG n) (wPd n) (wPa n) (wPb n))
  | 2 => .ok (bitsOf n 7 3 + bitsOf n 13 3 + bitsOf n 19 3, .pxor (wG n) (wPd n) (wPa n) (wPb n))
  | 3 => .ok (bitsOf n 7 3 + bitsOf n 13 3 + bitsOf n 19 3, .pandn (wG n) (wPd n) (wPa n) (wPb n))
  | 4 => .ok (bitsOf n 4 6 + bitsOf n 13 3 + bitsOf n 19 3, .pnot (wG n) (wPd n) (wPa n))
  | 5 => .ok (bitsOf n 4 6 + bitsOf n 16 6, .pset (wG n) (wA n))
  | 6 => .ok (bitsOf n 4 12, .pget (wG n) (wD n))
  | 7 => .ok (bitsOf n 4 6 + bitsOf n 13 3 + bitsOf n 19 3, .pmov (wG n) (wPd n) (wPa n))
  | _ => .error 2

/-- Major 0x10 (R43). -/
def decodeFp32 (n : Nat) : Raw :=
  match bitsOf n 0 4 with
  | 0 => .ok (0, .faddS (wG n) (wD n) (wA n) (wB n))
  | 1 => .ok (0, .fsubS (wG n) (wD n) (wA n) (wB n))
  | 2 => .ok (0, .fmulS (wG n) (wD n) (wA n) (wB n))
  | 3 => .ok (0, .fdivS (wG n) (wD n) (wA n) (wB n))
  | 4 => .ok (bitsOf n 4 6, .fsqrtS (wG n) (wD n) (wA n))
  | 5 => .ok (0, .fminS (wG n) (wD n) (wA n) (wB n))
  | 6 => .ok (0, .fmaxS (wG n) (wD n) (wA n) (wB n))
  | 7 => .ok (bitsOf n 4 6, .fabsS (wG n) (wD n) (wA n))
  | 8 => .ok (bitsOf n 4 6, .fnegS (wG n) (wD n) (wA n))
  | 9 => .ok (0, .fcpysS (wG n) (wD n) (wA n) (wB n))
  | 10 => .ok (bitsOf n 4 6, .fclassS (wG n) (wD n) (wA n))
  | 11 => .ok (bitsOf n 4 6, .frcpS (wG n) (wD n) (wA n))
  | 12 => .ok (bitsOf n 4 6, .frsqS (wG n) (wD n) (wA n))
  | 13 => .ok (bitsOf n 4 6, .fexp2S (wG n) (wD n) (wA n))
  | 14 => .ok (bitsOf n 4 6, .flog2S (wG n) (wD n) (wA n))
  | _ => .ok (bitsOf n 4 6, .ftanhS (wG n) (wD n) (wA n))

/-- Major 0x11 (R43). -/
def decodeFp64 (n : Nat) : Raw :=
  match bitsOf n 0 4 with
  | 0 => .ok (0, .faddD (wG n) (wD n) (wA n) (wB n))
  | 1 => .ok (0, .fsubD (wG n) (wD n) (wA n) (wB n))
  | 2 => .ok (0, .fmulD (wG n) (wD n) (wA n) (wB n))
  | 3 => .ok (0, .fdivD (wG n) (wD n) (wA n) (wB n))
  | 4 => .ok (bitsOf n 4 6, .fsqrtD (wG n) (wD n) (wA n))
  | 5 => .ok (0, .fminD (wG n) (wD n) (wA n) (wB n))
  | 6 => .ok (0, .fmaxD (wG n) (wD n) (wA n) (wB n))
  | 7 => .ok (bitsOf n 4 6, .fabsD (wG n) (wD n) (wA n))
  | 8 => .ok (bitsOf n 4 6, .fnegD (wG n) (wD n) (wA n))
  | 9 => .ok (0, .fcpysD (wG n) (wD n) (wA n) (wB n))
  | 10 => .ok (bitsOf n 4 6, .fclassD (wG n) (wD n) (wA n))
  | _ => .error 2

/-- Major 0x12 (R43). -/
def decodeFma (n : Nat) : Raw :=
  match bitsOf n 0 4 with
  | 0 => .ok (0, .fmacS (wG n) (wD n) (wA n) (wB n))
  | 1 => .ok (0, .fmscS (wG n) (wD n) (wA n) (wB n))
  | 2 => .ok (0, .fnmacS (wG n) (wD n) (wA n) (wB n))
  | 3 => .ok (0, .fmacD (wG n) (wD n) (wA n) (wB n))
  | 4 => .ok (0, .fmscD (wG n) (wD n) (wA n) (wB n))
  | 5 => .ok (0, .fnmacD (wG n) (wD n) (wA n) (wB n))
  | _ => .error 2

/-- Major 0x13 (R43). -/
def decodeFcmp (n : Nat) : Raw :=
  match bitsOf n 0 4 with
  | 0 => .ok (bitsOf n 19 3, .fceqS (wG n) (wPd n) (wA n) (wB n))
  | 1 => .ok (bitsOf n 19 3, .fcltS (wG n) (wPd n) (wA n) (wB n))
  | 2 => .ok (bitsOf n 19 3, .fcleS (wG n) (wPd n) (wA n) (wB n))
  | 3 => .ok (bitsOf n 19 3, .fcunS (wG n) (wPd n) (wA n) (wB n))
  | 4 => .ok (bitsOf n 19 3, .fceqD (wG n) (wPd n) (wA n) (wB n))
  | 5 => .ok (bitsOf n 19 3, .fcltD (wG n) (wPd n) (wA n) (wB n))
  | 6 => .ok (bitsOf n 19 3, .fcleD (wG n) (wPd n) (wA n) (wB n))
  | 7 => .ok (bitsOf n 19 3, .fcunD (wG n) (wPd n) (wA n) (wB n))
  | _ => .error 2

/-- Major 0x14 (R43). -/
def decodeCvt (n : Nat) : Raw :=
  match bitsOf n 0 4 with
  | 0 => .ok (bitsOf n 4 6, .cvtSD (wG n) (wD n) (wA n))
  | 1 => .ok (bitsOf n 4 6, .cvtDS (wG n) (wD n) (wA n))
  | 2 => .ok (bitsOf n 4 6, .cvtSH (wG n) (wD n) (wA n))
  | 3 => .ok (bitsOf n 4 6, .cvtHS (wG n) (wD n) (wA n))
  | 4 => .ok (bitsOf n 4 6, .cvtSBf (wG n) (wD n) (wA n))
  | 5 => .ok (bitsOf n 4 6, .cvtBfS (wG n) (wD n) (wA n))
  | 6 => .ok (bitsOf n 4 6, .cvtSE4 (wG n) (wD n) (wA n))
  | 7 => .ok (bitsOf n 4 6, .cvtE4S (wG n) (wD n) (wA n))
  | 8 => .ok (bitsOf n 4 6, .cvtSE5 (wG n) (wD n) (wA n))
  | 9 => .ok (bitsOf n 4 6, .cvtE5S (wG n) (wD n) (wA n))
  | 10 => .ok (bitsOf n 4 6, .cvtWS (wG n) (wD n) (wA n))
  | 11 => .ok (bitsOf n 4 6, .cvtSW (wG n) (wD n) (wA n))
  | 12 => .ok (bitsOf n 4 6, .cvtWuS (wG n) (wD n) (wA n))
  | 13 => .ok (bitsOf n 4 6, .cvtSWu (wG n) (wD n) (wA n))
  | 14 => .ok (bitsOf n 4 6, .cvtLD (wG n) (wD n) (wA n))
  | _ => .ok (bitsOf n 4 6, .cvtDL (wG n) (wD n) (wA n))

/-- Major 0x18 (R43). -/
def decodeThread (n : Nat) : Raw :=
  match bitsOf n 0 4 with
  | 0 => .ok (bitsOf n 4 18, .exit (wG n))
  | 1 => .ok (0, .spawn (wG n) (wD n) (wA n) (wB n))
  | 2 => .ok (bitsOf n 7 3, .sleep (wG n) (wD n) (wA n) (wPb n))
  | 3 => .ok (bitsOf n 4 6, .kill (wG n) (wD n) (wA n))
  | _ => .error 2

/-- Major 0x19 (R43). -/
def decodeMsg (n : Nat) : Raw :=
  match bitsOf n 0 4 with
  | 0 => .ok (bitsOf n 16 6, .send (wG n) (wA n) (wB n))
  | 1 => .ok (0, .sendw (wG n) (wD n) (wA n) (wB n))
  | 2 => .ok (0, .hbind (wG n) (wD n) (wA n) (wB n))
  | 3 => .ok (bitsOf n 4 6, .hunbind (wG n) (wD n) (wA n))
  | _ => .error 2

/-- Major 0x2D (R43). -/
def decodeOrd (n : Nat) : Raw :=
  match bitsOf n 0 4 with
  | 0 => match ordSizeOf (bitsOf n 4 3) with
    | some z => withScope (bitsOf n 7 3) (0) (fun s => .lacq (wG n) (wD n) (wA n) s z)
    | none => .error 5
  | 1 => match ordSizeOf (bitsOf n 4 3) with
    | some z => withScope (bitsOf n 7 3) (0) (fun s => .srel (wG n) (wD n) (wA n) s z)
    | none => .error 5
  | _ => .error 2

/-- Major 0x2E (R43). -/
def decodeSyncw (n : Nat) : Raw :=
  match bitsOf n 0 4 with
  | 0 => withScope (bitsOf n 7 3) (bitsOf n 4 3) (fun s => .ldf (wG n) (wD n) (wA n) s)
  | 1 => withScope (bitsOf n 7 3) (bitsOf n 4 3) (fun s => .ldfe (wG n) (wD n) (wA n) s)
  | 2 => withScope (bitsOf n 7 3) (bitsOf n 4 3) (fun s => .stef (wG n) (wD n) (wA n) s)
  | 3 => withScope (bitsOf n 7 3) (bitsOf n 4 3) (fun s => .stf (wG n) (wD n) (wA n) s)
  | 4 => withScope (bitsOf n 7 3) (bitsOf n 4 3) (fun s => .sto (wG n) (wD n) (wA n) s)
  | 5 => withScope (bitsOf n 7 3) (bitsOf n 4 3 + bitsOf n 16 6) (fun s => .sete (wG n) (wA n) s)
  | 6 => withScope (bitsOf n 7 3) (bitsOf n 4 3 + bitsOf n 19 3) (fun s => .peekf (wG n) (wPd n) (wA n) s)
  | 7 => withScope (bitsOf n 7 3) (bitsOf n 4 3) (fun s => .arrive (wG n) (wD n) (wA n) s)
  | 8 => withScope (bitsOf n 7 3) (bitsOf n 4 3) (fun s => .expect (wG n) (wD n) (wA n) s)
  | _ => .error 2

/-- Major 0x2F (R43). -/
def decodeAmoD (n : Nat) : Raw :=
  match bitsOf n 0 4 with
  | 0 => .ok (0, .aaddD (wG n) (wD n) (wA n) (wB n))
  | 1 => .ok (0, .aandD (wG n) (wD n) (wA n) (wB n))
  | 2 => .ok (0, .aorD (wG n) (wD n) (wA n) (wB n))
  | 3 => .ok (0, .axorD (wG n) (wD n) (wA n) (wB n))
  | 4 => .ok (0, .aminD (wG n) (wD n) (wA n) (wB n))
  | 5 => .ok (0, .amaxD (wG n) (wD n) (wA n) (wB n))
  | 6 => .ok (0, .aminuD (wG n) (wD n) (wA n) (wB n))
  | 7 => .ok (0, .amaxuD (wG n) (wD n) (wA n) (wB n))
  | 8 => .ok (0, .aswpD (wG n) (wD n) (wA n) (wB n))
  | 9 => .ok (0, .acasD (wG n) (wD n) (wA n) (wB n))
  | 10 => .ok (0, .afaddD (wG n) (wD n) (wA n) (wB n))
  | _ => .error 2

/-- Major 0x30 (R43). -/
def decodeAmoW (n : Nat) : Raw :=
  match bitsOf n 0 4 with
  | 0 => .ok (0, .aaddW (wG n) (wD n) (wA n) (wB n))
  | 1 => .ok (0, .aandW (wG n) (wD n) (wA n) (wB n))
  | 2 => .ok (0, .aorW (wG n) (wD n) (wA n) (wB n))
  | 3 => .ok (0, .axorW (wG n) (wD n) (wA n) (wB n))
  | 4 => .ok (0, .aminW (wG n) (wD n) (wA n) (wB n))
  | 5 => .ok (0, .amaxW (wG n) (wD n) (wA n) (wB n))
  | 6 => .ok (0, .aminuW (wG n) (wD n) (wA n) (wB n))
  | 7 => .ok (0, .amaxuW (wG n) (wD n) (wA n) (wB n))
  | 8 => .ok (0, .aswpW (wG n) (wD n) (wA n) (wB n))
  | 9 => .ok (0, .acasW (wG n) (wD n) (wA n) (wB n))
  | 10 => .ok (0, .afaddW (wG n) (wD n) (wA n) (wB n))
  | _ => .error 2

/-- Major 0x31 (R43). -/
def decodeFence (n : Nat) : Raw :=
  match bitsOf n 0 4 with
  | 0 => withScope (bitsOf n 4 3) (bitsOf n 7 15) (fun s => .fenceAcq (wG n) s)
  | 1 => withScope (bitsOf n 4 3) (bitsOf n 7 15) (fun s => .fenceRel (wG n) s)
  | 2 => withScope (bitsOf n 4 3) (bitsOf n 7 15) (fun s => .fenceAr (wG n) s)
  | 3 => withScope (bitsOf n 4 3) (bitsOf n 7 15) (fun s => .fenceCpy (wG n) s)
  | 4 => withScope (bitsOf n 4 3) (bitsOf n 7 15) (fun s => .fenceSrv (wG n) s)
  | _ => .error 2

/-- Major 0x32 (R43). -/
def decodeCache (n : Nat) : Raw :=
  match bitsOf n 0 4 with
  | 0 => .ok (bitsOf n 4 6 + bitsOf n 16 6, .cflush (wG n) (wA n))
  | 1 => .ok (bitsOf n 4 6 + bitsOf n 16 6, .cinv (wG n) (wA n))
  | 2 => .ok (bitsOf n 4 6 + bitsOf n 16 6, .cpref (wG n) (wA n))
  | 3 => .ok (bitsOf n 4 6 + bitsOf n 16 6, .czero (wG n) (wA n))
  | 4 => .ok (bitsOf n 4 6 + bitsOf n 16 6, .cclean (wG n) (wA n))
  | _ => .error 2

/-- Major 0x33 (R43). -/
def decodeGroup (n : Nat) : Raw :=
  match bitsOf n 0 4 with
  | 0 => .ok (bitsOf n 10 6, .gjoin (wG n) (wD n) (BitVec.ofNat 6 (n / 16)))
  | 1 => .ok (bitsOf n 10 6, .gleave (wG n) (wD n) (BitVec.ofNat 6 (n / 16)))
  | 2 => .ok (bitsOf n 10 12, .gsync (wG n) (BitVec.ofNat 6 (n / 16)))
  | 3 => .ok (0, .gshfl (wG n) (wD n) (wA n) (BitVec.ofNat 6 (n / 16)))
  | 4 => .ok (0, .gshflx (wG n) (wD n) (wA n) (BitVec.ofNat 6 (n / 16)))
  | 5 => .ok (0, .gbcast (wG n) (wD n) (wA n) (BitVec.ofNat 6 (n / 16)))
  | 6 => .ok (0, .gvoteAny (wG n) (wD n) (wA n) (BitVec.ofNat 6 (n / 16)))
  | 7 => .ok (0, .gvoteAll (wG n) (wD n) (wA n) (BitVec.ofNat 6 (n / 16)))
  | 8 => .ok (0, .gvoteBal (wG n) (wD n) (wA n) (BitVec.ofNat 6 (n / 16)))
  | 9 => .ok (0, .gmatch (wG n) (wD n) (wA n) (BitVec.ofNat 6 (n / 16)))
  | 10 => .ok (0, .gredAdd (wG n) (wD n) (wA n) (BitVec.ofNat 6 (n / 16)))
  | 11 => .ok (0, .gredMin (wG n) (wD n) (wA n) (BitVec.ofNat 6 (n / 16)))
  | 12 => .ok (0, .gredMax (wG n) (wD n) (wA n) (BitVec.ofNat 6 (n / 16)))
  | 13 => .ok (0, .gredFadd (wG n) (wD n) (wA n) (BitVec.ofNat 6 (n / 16)))
  | 14 => .ok (0, .gredFmax (wG n) (wD n) (wA n) (BitVec.ofNat 6 (n / 16)))
  | _ => .ok (0, .gscanAdd (wG n) (wD n) (wA n) (BitVec.ofNat 6 (n / 16)))

/-- Major 0x34 (R43). -/
def decodeFrag (n : Nat) : Raw :=
  match bitsOf n 0 4 with
  | 0 => .ok (0, .ldxtB (wG n) (wD n) (wA n) (wB n))
  | 1 => .ok (0, .ldxtH (wG n) (wD n) (wA n) (wB n))
  | _ => .error 2

/-- Major 0x36 (R43). -/
def decodeServe (n : Nat) : Raw :=
  match bitsOf n 0 4 with
  | 0 => .ok (bitsOf n 16 6, .srv (wG n) (wA n) (BitVec.ofNat 3 (n / 128)) (BitVec.ofNat 3 (n / 16)))
  | 1 => .ok (bitsOf n 19 3, .srvnw (wG n) (wPd n) (wA n) (BitVec.ofNat 3 (n / 128)) (BitVec.ofNat 3 (n / 16)))
  | 2 => .ok (bitsOf n 4 6, .srvq (wG n) (wD n) (wA n))
  | 3 => .ok (bitsOf n 4 6, .cfgld (wG n) (wD n) (wA n))
  | 4 => .ok (bitsOf n 4 6, .cfgpin (wG n) (wD n) (wA n))
  | 5 => .ok (bitsOf n 4 6, .cfgunpin (wG n) (wD n) (wA n))
  | 6 => .ok (bitsOf n 4 6, .cfgev (wG n) (wD n) (wA n))
  | _ => .error 2

/-- Major 0x37 (R43). -/
def decodeMatrix (n : Nat) : Raw :=
  match bitsOf n 0 4 with
  | 0 => .ok (0, .mxw (wG n) (wD n) (wA n) (BitVec.ofNat 6 (n / 16)))
  | 1 => .ok (0, .mxa (wG n) (wD n) (wA n) (BitVec.ofNat 6 (n / 16)))
  | 2 => .ok (0, .mxc (wG n) (wD n) (wA n) (BitVec.ofNat 6 (n / 16)))
  | 3 => .ok (0, .mxd (wG n) (wD n) (wA n) (BitVec.ofNat 6 (n / 16)))
  | 4 => .ok (0, .mxmd (wG n) (wD n) (wA n) (BitVec.ofNat 6 (n / 16)))
  | 5 => .ok (0, .mxst (wG n) (wD n) (wA n) (BitVec.ofNat 6 (n / 16)))
  | _ => .error 2

/-- Major 0x38 (R43). -/
def decodeCopy (n : Nat) : Raw :=
  match bitsOf n 0 4 with
  | 0 => .ok (bitsOf n 9 1, .cpy (wG n) (wD n) (wA n) (BitVec.ofNat 1 (n / 256)) (BitVec.ofNat 4 (n / 16)))
  | 1 => .ok (bitsOf n 8 2, .cshp (wG n) (wD n) (wA n) (BitVec.ofNat 4 (n / 16)))
  | 2 => .ok (bitsOf n 8 2, .cpyq (wG n) (wD n) (wA n) (BitVec.ofNat 4 (n / 16)))
  | 3 => .ok (bitsOf n 8 2, .cpyres (wG n) (wD n) (wA n) (BitVec.ofNat 4 (n / 16)))
  | 4 => .ok (bitsOf n 9 7, .cpyabt (wG n) (wD n) (BitVec.ofNat 1 (n / 256)) (BitVec.ofNat 4 (n / 16)))
  | 5 => .ok (bitsOf n 8 8, .wmrd (wG n) (wD n) (BitVec.ofNat 4 (n / 16)))
  | 6 => .ok (bitsOf n 8 2, .wmwait (wG n) (wD n) (wA n) (BitVec.ofNat 4 (n / 16)))
  | _ => .error 2

/-- Major 0x39 (R43). -/
noncomputable def decodeMerge (n : Nat) : Raw :=
  match bitsOf n 0 4 with
  | 0 => .ok (bitsOf n 4 5, .mstart (wG n) (wD n) (wA n) (BitVec.ofNat 1 (n / 512)))
  | 1 => .ok (0, .mstrm (wG n) (wD n) (wA n) (BitVec.ofNat 1 (n / 512)) (BitVec.ofNat 1 (n / 256)) (BitVec.ofNat 4 (n / 16)))
  | 2 => .ok (bitsOf n 8 1, .mpush (wG n) (wD n) (wA n) (BitVec.ofNat 1 (n / 512)) (BitVec.ofNat 4 (n / 16)))
  | 3 => .ok (bitsOf n 4 5, .mfin (wG n) (wD n) (wA n) (BitVec.ofNat 1 (n / 512)))
  | 4 => .ok (bitsOf n 4 5, .mspill (wG n) (wD n) (wA n) (BitVec.ofNat 1 (n / 512)))
  | 5 => .ok (bitsOf n 4 5, .mstat (wG n) (wD n) (wA n) (BitVec.ofNat 1 (n / 512)))
  | 6 => .ok (bitsOf n 4 5, .xsect (wG n) (wD n) (wA n) (BitVec.ofNat 1 (n / 512)))
  | 7 => .ok (bitsOf n 4 5, .xunion (wG n) (wD n) (wA n) (BitVec.ofNat 1 (n / 512)))
  | 8 => .ok (bitsOf n 4 5, .xcnt (wG n) (wD n) (wA n) (BitVec.ofNat 1 (n / 512)))
  | _ => .error 2

/-- Major 0x3D (R43). -/
noncomputable def decodeKern (n : Nat) : Raw :=
  match bitsOf n 0 4 with
  | 0 => .ok (0, .tlbi (wG n) (wD n) (wA n) (wB n))
  | 1 => .ok (0, .slotsave (wG n) (wD n) (wA n) (wB n))
  | 2 => .ok (bitsOf n 4 6, .slotload (wG n) (wD n) (wA n))
  | 3 => .ok (0, .slotctl (wG n) (wD n) (wA n) (wB n))
  | 4 => .ok (0, .rgnset (wG n) (wD n) (wA n) (wB n))
  | _ => .error 2

/-- Major 0x3E (R43). -/
noncomputable def decodeTrace (n : Nat) : Raw :=
  match bitsOf n 0 4 with
  | 0 => .ok (bitsOf n 16 6, .trace (wG n) (wA n) (wB n))
  | 1 => .ok (bitsOf n 4 6, .mark (wG n) (wD n) (wA n))
  | 2 => .ok (bitsOf n 4 12, .snap (wG n) (wD n))
  | _ => .error 2

/-- The opcode map (R43). -/
noncomputable def decodeRaw (n : Nat) : Raw :=
  match bitsOf n 22 6 with
  | 0 => decodeMisc n
  | 1 => decodeAlu n
  | 2 => decodeAluw n
  | 3 => decodeBit n
  | 4 => .ok (0, .addi (wG n) (wD n) (wA n) (BitVec.ofNat 10 n))
  | 5 => .ok (0, .andi (wG n) (wD n) (wA n) (BitVec.ofNat 10 n))
  | 6 => .ok (0, .ori (wG n) (wD n) (wA n) (BitVec.ofNat 10 n))
  | 7 => .ok (0, .xori (wG n) (wD n) (wA n) (BitVec.ofNat 10 n))
  | 8 => decodeShifti n
  | 9 => .ok (0, .lui (wG n) (wD n) (BitVec.ofNat 16 n))
  | 10 => .ok (0, .lix (wG n) (wD n) (BitVec.ofNat 16 n))
  | 11 => decodeScale n
  | 12 => decodeCmp n
  | 13 => decodeCmpi n
  | 14 => decodePred n
  | 16 => decodeFp32 n
  | 17 => decodeFp64 n
  | 18 => decodeFma n
  | 19 => decodeFcmp n
  | 20 => decodeCvt n
  | 21 => .ok (0, .br (wG n) (BitVec.ofNat 22 n))
  | 22 => .ok (0, .call (wG n) (BitVec.ofNat 22 n))
  | 23 => .ok (0, .jalr (wG n) (wD n) (wA n) (BitVec.ofNat 10 n))
  | 24 => decodeThread n
  | 25 => decodeMsg n
  | 32 => .ok (0, .lb (wG n) (wD n) (wA n) (BitVec.ofNat 10 n))
  | 33 => .ok (0, .lbu (wG n) (wD n) (wA n) (BitVec.ofNat 10 n))
  | 34 => .ok (0, .lh (wG n) (wD n) (wA n) (BitVec.ofNat 10 n))
  | 35 => .ok (0, .lhu (wG n) (wD n) (wA n) (BitVec.ofNat 10 n))
  | 36 => .ok (0, .lw (wG n) (wD n) (wA n) (BitVec.ofNat 10 n))
  | 37 => .ok (0, .lwu (wG n) (wD n) (wA n) (BitVec.ofNat 10 n))
  | 38 => .ok (0, .ld (wG n) (wD n) (wA n) (BitVec.ofNat 10 n))
  | 39 => .ok (0, .lq (wG n) (wD n) (wA n) (BitVec.ofNat 10 n))
  | 40 => .ok (0, .sb (wG n) (wD n) (wA n) (BitVec.ofNat 10 n))
  | 41 => .ok (0, .sh (wG n) (wD n) (wA n) (BitVec.ofNat 10 n))
  | 42 => .ok (0, .sw (wG n) (wD n) (wA n) (BitVec.ofNat 10 n))
  | 43 => .ok (0, .sd (wG n) (wD n) (wA n) (BitVec.ofNat 10 n))
  | 44 => .ok (0, .sq (wG n) (wD n) (wA n) (BitVec.ofNat 10 n))
  | 45 => decodeOrd n
  | 46 => decodeSyncw n
  | 47 => decodeAmoD n
  | 48 => decodeAmoW n
  | 49 => decodeFence n
  | 50 => decodeCache n
  | 51 => decodeGroup n
  | 52 => decodeFrag n
  | 54 => decodeServe n
  | 55 => decodeMatrix n
  | 56 => decodeCopy n
  | 57 => decodeMerge n
  | 58 => .ok (0, .csrrw (wG n) (wD n) (wA n) (BitVec.ofNat 10 n))
  | 59 => .ok (0, .csrrs (wG n) (wD n) (wA n) (BitVec.ofNat 10 n))
  | 60 => .ok (0, .csrrc (wG n) (wD n) (wA n) (BitVec.ofNat 10 n))
  | 61 => decodeKern n
  | 62 => decodeTrace n
  | _ => .error 1

/-- An odd register number. -/
def oddReg (r : Reg) : Bool := decide (r.val % 2 = 1)

/-- Whether a pair operand names an odd register (R42). -/
def oddPair (i : Instr) : Bool :=
  match i with
  | .lq _ d _ _ => oddReg d
  | .sq _ d _ _ => oddReg d
  | .lacq _ d _ _ .q => oddReg d
  | .srel _ d _ _ .q => oddReg d
  | .ldxtB _ d _ _ => oddReg d
  | .ldxtH _ d _ _ => oddReg d
  | .mxd _ _ a _ => oddReg a
  | .mxmd _ _ a _ => oddReg a
  | .cpy _ _ a _ _ => oddReg a
  | .cshp _ _ a _ => oddReg a
  | .mstrm _ _ a _ _ _ => oddReg a
  | .mpush _ _ a _ _ => oddReg a
  | .mspill _ _ a _ => oddReg a
  | _ => false

/-- A CSR instruction names a CSR that exists (R45, R48). -/
def csrBad (i : Instr) : Bool :=
  match i with
  | .csrrw _ _ _ n => !csrNamed n
  | .csrrs _ _ _ n => !csrNamed n
  | .csrrc _ _ _ n => !csrNamed n
  | _ => false

/-- A CSR instruction that names a read-only CSR with a ≠ x0 (R48). -/
def csrWritesReadOnly (i : Instr) : Bool :=
  match i with
  | .csrrw _ _ a n => csrReadOnly n && decide (a ≠ 0)
  | .csrrs _ _ a n => csrReadOnly n && decide (a ≠ 0)
  | .csrrc _ _ a n => csrReadOnly n && decide (a ≠ 0)
  | _ => false

/-- The reserved majors of R43. -/
def majorReserved (m : Nat) : Bool :=
  m == 0x0F || (0x1A ≤ m && m ≤ 0x1F) || m == 0x35 || m == 0x3F

/-- R45, but for the privilege row: the subcause of ILLEGAL, or the instruction. The rows are tried in their order. -/
noncomputable def decode (w : BitVec 32) : Except Nat Instr :=
  let n := w.toNat
  if n = 0xFFFFFFFF then .error 7
  else if majorReserved (bitsOf n 22 6) then .error 1
  else if (wG n).neg && decide ((wG n).p = 0) then .error 3
  else
    match decodeRaw n with
    | .error c => .error c
    | .ok (z, i) =>
      if csrBad i then .error 5
      else if z ≠ 0 || csrWritesReadOnly i then .error 4
      else if oddPair i then .error 6
      else .ok i

/-- A fabric node word (R245): opcode in bits 31:24, consumers A and B, modifier. None: the word is no node. -/
noncomputable def decodeNode (w : BitVec 32) : Option Instr :=
  let n := w.toNat
  let a : BitVec 9 := BitVec.ofNat 9 (n / 32768)
  let b : BitVec 9 := BitVec.ofNat 9 (n / 64)
  let m : BitVec 6 := BitVec.ofNat 6 n
  match bitsOf n 24 8 with
  | 1 => some (.nIadd a b m)
  | 2 => some (.nIsub a b m)
  | 3 => some (.nImul a b m)
  | 4 => some (.nIand a b m)
  | 5 => some (.nIor a b m)
  | 6 => some (.nIxor a b m)
  | 7 => some (.nIshl a b m)
  | 8 => some (.nIshr a b m)
  | 9 => some (.nIsra a b m)
  | 10 => some (.nImin a b m)
  | 11 => some (.nImax a b m)
  | 12 => some (.nIcmp a b m)
  | 16 => some (.nFadd a b m)
  | 17 => some (.nFmul a b m)
  | 18 => some (.nFma a b m)
  | 19 => some (.nFmax a b m)
  | 20 => some (.nFmin a b m)
  | 24 => some (.nExp2 a b m)
  | 25 => some (.nLog2 a b m)
  | 26 => some (.nRcp a b m)
  | 27 => some (.nRsq a b m)
  | 28 => some (.nCvt a b m)
  | 32 => some (.nSteer a b m)
  | 33 => some (.nJoin a b m)
  | 34 => some (.nMux a b m)
  | 35 => if m = 0 then some (.nRecirc a b) else none
  | 36 => some (.nEosx a b m)
  | 37 => if m = 0 then some (.nDup a b) else none
  | 38 => if m = 0 then some (.nDelay a b) else none
  | 39 => if m = 0 then some (.nConst a b) else none
  | 40 => some (.nTagchk a b m)
  | 41 => some (.nFilter a b m)
  | 42 => some (.nCoalesce a b m)
  | 43 => some (.nCmpx a b m)
  | 48 => some (.nLoopgen a b m)
  | 49 => some (.nAddrgen a b m)
  | 56 => some (.nLdn a b m)
  | 57 => some (.nStn a b m)
  | 62 => if m = 0 then some (.nEntry a b) else none
  | 63 => if m = 0 then some (.nReturn a b) else none
  | _ => none

/-- The guard bits as a number. -/
def Guard.code (g : Guard) : Nat := (if g.neg then 8 else 0) + g.p.val

/-- A word of guard, major and the 22 bits below (R39). -/
def packWord (g : Guard) (maj low : Nat) : BitVec 32 :=
  BitVec.ofNat 32 (g.code * 268435456 + maj * 4194304 + low)

/-- Format R (R39). -/
def packR (g : Guard) (maj d a b f : Nat) : BitVec 32 :=
  packWord g maj (d * 65536 + a * 1024 + b * 16 + f)

/-- Formats I, M and CMPI (R39): ten immediate bits. -/
def packI (g : Guard) (maj d a i : Nat) : BitVec 32 :=
  packWord g maj (d * 65536 + a * 1024 + i)

/-- A node word (R245). -/
def packNode (op : Nat) (a b : BitVec 9) (m : Nat) : BitVec 32 :=
  BitVec.ofNat 32 (op * 16777216 + a.toNat * 32768 + b.toNat * 64 + m)

/-- The word of an instruction, in the formats of R39 and R245; the machine's own steps have none. -/
def encode (i : Instr) : Option (BitVec 32) :=
  match i with
  | .nop g => some (packR g 0x00 0 0 0 0)
  | .ebrk g => some (packR g 0x00 0 0 0 1)
  | .ecall g => some (packR g 0x00 0 0 0 2)
  | .tret g => some (packR g 0x00 0 0 0 3)
  | .rdcyc g d => some (packR g 0x00 d.val 0 0 4)
  | .rdtime g d => some (packR g 0x00 d.val 0 0 5)
  | .tid g d => some (packR g 0x00 d.val 0 0 6)
  | .gtid g d => some (packR g 0x00 d.val 0 0 7)
  | .add g d a b => some (packR g 0x01 d.val a.val b.val 0)
  | .sub g d a b => some (packR g 0x01 d.val a.val b.val 1)
  | .mul g d a b => some (packR g 0x01 d.val a.val b.val 2)
  | .mulh g d a b => some (packR g 0x01 d.val a.val b.val 3)
  | .mulhu g d a b => some (packR g 0x01 d.val a.val b.val 4)
  | .div g d a b => some (packR g 0x01 d.val a.val b.val 5)
  | .divu g d a b => some (packR g 0x01 d.val a.val b.val 6)
  | .rem g d a b => some (packR g 0x01 d.val a.val b.val 7)
  | .remu g d a b => some (packR g 0x01 d.val a.val b.val 8)
  | .and g d a b => some (packR g 0x01 d.val a.val b.val 9)
  | .or g d a b => some (packR g 0x01 d.val a.val b.val 10)
  | .xor g d a b => some (packR g 0x01 d.val a.val b.val 11)
  | .shl g d a b => some (packR g 0x01 d.val a.val b.val 12)
  | .shr g d a b => some (packR g 0x01 d.val a.val b.val 13)
  | .sra g d a b => some (packR g 0x01 d.val a.val b.val 14)
  | .rot g d a b => some (packR g 0x01 d.val a.val b.val 15)
  | .addw g d a b => some (packR g 0x02 d.val a.val b.val 0)
  | .subw g d a b => some (packR g 0x02 d.val a.val b.val 1)
  | .mulw g d a b => some (packR g 0x02 d.val a.val b.val 2)
  | .shlw g d a b => some (packR g 0x02 d.val a.val b.val 3)
  | .shrw g d a b => some (packR g 0x02 d.val a.val b.val 4)
  | .sraw g d a b => some (packR g 0x02 d.val a.val b.val 5)
  | .min g d a b => some (packR g 0x03 d.val a.val b.val 0)
  | .max g d a b => some (packR g 0x03 d.val a.val b.val 1)
  | .minu g d a b => some (packR g 0x03 d.val a.val b.val 2)
  | .maxu g d a b => some (packR g 0x03 d.val a.val b.val 3)
  | .abs g d a => some (packR g 0x03 d.val a.val 0 4)
  | .clz g d a => some (packR g 0x03 d.val a.val 0 5)
  | .ctz g d a => some (packR g 0x03 d.val a.val 0 6)
  | .popc g d a => some (packR g 0x03 d.val a.val 0 7)
  | .brev g d a => some (packR g 0x03 d.val a.val 0 8)
  | .bswap g d a => some (packR g 0x03 d.val a.val 0 9)
  | .sextb g d a => some (packR g 0x03 d.val a.val 0 10)
  | .sexth g d a => some (packR g 0x03 d.val a.val 0 11)
  | .sextw g d a => some (packR g 0x03 d.val a.val 0 12)
  | .zextb g d a => some (packR g 0x03 d.val a.val 0 13)
  | .zexth g d a => some (packR g 0x03 d.val a.val 0 14)
  | .zextw g d a => some (packR g 0x03 d.val a.val 0 15)
  | .addi g d a i => some (packI g 0x04 d.val a.val i.toNat)
  | .andi g d a i => some (packI g 0x05 d.val a.val i.toNat)
  | .ori g d a i => some (packI g 0x06 d.val a.val i.toNat)
  | .xori g d a i => some (packI g 0x07 d.val a.val i.toNat)
  | .shli g d a n => some (packR g 0x08 d.val a.val n.toNat 0)
  | .shri g d a n => some (packR g 0x08 d.val a.val n.toNat 1)
  | .srai g d a n => some (packR g 0x08 d.val a.val n.toNat 2)
  | .roti g d a n => some (packR g 0x08 d.val a.val n.toNat 3)
  | .lui g d i => some (packWord g 0x09 (d.val * 65536 + i.toNat))
  | .lix g d i => some (packWord g 0x0A (d.val * 65536 + i.toNat))
  | .shadd1 g d a b => some (packR g 0x0B d.val a.val b.val 0)
  | .shadd2 g d a b => some (packR g 0x0B d.val a.val b.val 1)
  | .shadd3 g d a b => some (packR g 0x0B d.val a.val b.val 2)
  | .shadd4 g d a b => some (packR g 0x0B d.val a.val b.val 3)
  | .ceq g p a b => some (packR g 0x0C p.val a.val b.val 0)
  | .cne g p a b => some (packR g 0x0C p.val a.val b.val 1)
  | .clt g p a b => some (packR g 0x0C p.val a.val b.val 2)
  | .cltu g p a b => some (packR g 0x0C p.val a.val b.val 3)
  | .cle g p a b => some (packR g 0x0C p.val a.val b.val 4)
  | .cleu g p a b => some (packR g 0x0C p.val a.val b.val 5)
  | .ctst g p a b => some (packR g 0x0C p.val a.val b.val 6)
  | .ceqi g p a i => some (packI g 0x0D (0 + p.val) a.val i.toNat)
  | .cnei g p a i => some (packI g 0x0D (8 + p.val) a.val i.toNat)
  | .clti g p a i => some (packI g 0x0D (16 + p.val) a.val i.toNat)
  | .cltui g p a i => some (packI g 0x0D (24 + p.val) a.val i.toNat)
  | .clei g p a i => some (packI g 0x0D (32 + p.val) a.val i.toNat)
  | .cleui g p a i => some (packI g 0x0D (40 + p.val) a.val i.toNat)
  | .ctsti g p a i => some (packI g 0x0D (48 + p.val) a.val i.toNat)
  | .pand g d a b => some (packR g 0x0E d.val a.val b.val 0)
  | .por g d a b => some (packR g 0x0E d.val a.val b.val 1)
  | .pxor g d a b => some (packR g 0x0E d.val a.val b.val 2)
  | .pandn g d a b => some (packR g 0x0E d.val a.val b.val 3)
  | .pnot g d a => some (packR g 0x0E d.val a.val 0 4)
  | .pset g a => some (packR g 0x0E 0 a.val 0 5)
  | .pget g d => some (packR g 0x0E d.val 0 0 6)
  | .pmov g d a => some (packR g 0x0E d.val a.val 0 7)
  | .faddS g d a b => some (packR g 0x10 d.val a.val b.val 0)
  | .fsubS g d a b => some (packR g 0x10 d.val a.val b.val 1)
  | .fmulS g d a b => some (packR g 0x10 d.val a.val b.val 2)
  | .fdivS g d a b => some (packR g 0x10 d.val a.val b.val 3)
  | .fsqrtS g d a => some (packR g 0x10 d.val a.val 0 4)
  | .fminS g d a b => some (packR g 0x10 d.val a.val b.val 5)
  | .fmaxS g d a b => some (packR g 0x10 d.val a.val b.val 6)
  | .fabsS g d a => some (packR g 0x10 d.val a.val 0 7)
  | .fnegS g d a => some (packR g 0x10 d.val a.val 0 8)
  | .fcpysS g d a b => some (packR g 0x10 d.val a.val b.val 9)
  | .fclassS g d a => some (packR g 0x10 d.val a.val 0 10)
  | .frcpS g d a => some (packR g 0x10 d.val a.val 0 11)
  | .frsqS g d a => some (packR g 0x10 d.val a.val 0 12)
  | .fexp2S g d a => some (packR g 0x10 d.val a.val 0 13)
  | .flog2S g d a => some (packR g 0x10 d.val a.val 0 14)
  | .ftanhS g d a => some (packR g 0x10 d.val a.val 0 15)
  | .faddD g d a b => some (packR g 0x11 d.val a.val b.val 0)
  | .fsubD g d a b => some (packR g 0x11 d.val a.val b.val 1)
  | .fmulD g d a b => some (packR g 0x11 d.val a.val b.val 2)
  | .fdivD g d a b => some (packR g 0x11 d.val a.val b.val 3)
  | .fsqrtD g d a => some (packR g 0x11 d.val a.val 0 4)
  | .fminD g d a b => some (packR g 0x11 d.val a.val b.val 5)
  | .fmaxD g d a b => some (packR g 0x11 d.val a.val b.val 6)
  | .fabsD g d a => some (packR g 0x11 d.val a.val 0 7)
  | .fnegD g d a => some (packR g 0x11 d.val a.val 0 8)
  | .fcpysD g d a b => some (packR g 0x11 d.val a.val b.val 9)
  | .fclassD g d a => some (packR g 0x11 d.val a.val 0 10)
  | .fmacS g d a b => some (packR g 0x12 d.val a.val b.val 0)
  | .fmscS g d a b => some (packR g 0x12 d.val a.val b.val 1)
  | .fnmacS g d a b => some (packR g 0x12 d.val a.val b.val 2)
  | .fmacD g d a b => some (packR g 0x12 d.val a.val b.val 3)
  | .fmscD g d a b => some (packR g 0x12 d.val a.val b.val 4)
  | .fnmacD g d a b => some (packR g 0x12 d.val a.val b.val 5)
  | .fceqS g p a b => some (packR g 0x13 p.val a.val b.val 0)
  | .fcltS g p a b => some (packR g 0x13 p.val a.val b.val 1)
  | .fcleS g p a b => some (packR g 0x13 p.val a.val b.val 2)
  | .fcunS g p a b => some (packR g 0x13 p.val a.val b.val 3)
  | .fceqD g p a b => some (packR g 0x13 p.val a.val b.val 4)
  | .fcltD g p a b => some (packR g 0x13 p.val a.val b.val 5)
  | .fcleD g p a b => some (packR g 0x13 p.val a.val b.val 6)
  | .fcunD g p a b => some (packR g 0x13 p.val a.val b.val 7)
  | .cvtSD g d a => some (packR g 0x14 d.val a.val 0 0)
  | .cvtDS g d a => some (packR g 0x14 d.val a.val 0 1)
  | .cvtSH g d a => some (packR g 0x14 d.val a.val 0 2)
  | .cvtHS g d a => some (packR g 0x14 d.val a.val 0 3)
  | .cvtSBf g d a => some (packR g 0x14 d.val a.val 0 4)
  | .cvtBfS g d a => some (packR g 0x14 d.val a.val 0 5)
  | .cvtSE4 g d a => some (packR g 0x14 d.val a.val 0 6)
  | .cvtE4S g d a => some (packR g 0x14 d.val a.val 0 7)
  | .cvtSE5 g d a => some (packR g 0x14 d.val a.val 0 8)
  | .cvtE5S g d a => some (packR g 0x14 d.val a.val 0 9)
  | .cvtWS g d a => some (packR g 0x14 d.val a.val 0 10)
  | .cvtSW g d a => some (packR g 0x14 d.val a.val 0 11)
  | .cvtWuS g d a => some (packR g 0x14 d.val a.val 0 12)
  | .cvtSWu g d a => some (packR g 0x14 d.val a.val 0 13)
  | .cvtLD g d a => some (packR g 0x14 d.val a.val 0 14)
  | .cvtDL g d a => some (packR g 0x14 d.val a.val 0 15)
  | .br g o => some (packWord g 0x15 o.toNat)
  | .call g o => some (packWord g 0x16 o.toNat)
  | .jalr g d a i => some (packI g 0x17 d.val a.val i.toNat)
  | .exit g => some (packR g 0x18 0 0 0 0)
  | .spawn g d a b => some (packR g 0x18 d.val a.val b.val 1)
  | .sleep g d a p => some (packR g 0x18 d.val a.val p.val 2)
  | .kill g d a => some (packR g 0x18 d.val a.val 0 3)
  | .send g a b => some (packR g 0x19 0 a.val b.val 0)
  | .sendw g d a b => some (packR g 0x19 d.val a.val b.val 1)
  | .hbind g d a b => some (packR g 0x19 d.val a.val b.val 2)
  | .hunbind g d a => some (packR g 0x19 d.val a.val 0 3)
  | .lb g d a i => some (packI g 0x20 d.val a.val i.toNat)
  | .lbu g d a i => some (packI g 0x21 d.val a.val i.toNat)
  | .lh g d a i => some (packI g 0x22 d.val a.val i.toNat)
  | .lhu g d a i => some (packI g 0x23 d.val a.val i.toNat)
  | .lw g d a i => some (packI g 0x24 d.val a.val i.toNat)
  | .lwu g d a i => some (packI g 0x25 d.val a.val i.toNat)
  | .ld g d a i => some (packI g 0x26 d.val a.val i.toNat)
  | .lq g d a i => some (packI g 0x27 d.val a.val i.toNat)
  | .sb g d a i => some (packI g 0x28 d.val a.val i.toNat)
  | .sh g d a i => some (packI g 0x29 d.val a.val i.toNat)
  | .sw g d a i => some (packI g 0x2A d.val a.val i.toNat)
  | .sd g d a i => some (packI g 0x2B d.val a.val i.toNat)
  | .sq g d a i => some (packI g 0x2C d.val a.val i.toNat)
  | .lacq g d a s z => some (packR g 0x2D d.val a.val (s.code * 8 + z.code) 0)
  | .srel g d a s z => some (packR g 0x2D d.val a.val (s.code * 8 + z.code) 1)
  | .ldf g d a s => some (packR g 0x2E d.val a.val (s.code * 8) 0)
  | .ldfe g d a s => some (packR g 0x2E d.val a.val (s.code * 8) 1)
  | .stef g d a s => some (packR g 0x2E d.val a.val (s.code * 8) 2)
  | .stf g d a s => some (packR g 0x2E d.val a.val (s.code * 8) 3)
  | .sto g d a s => some (packR g 0x2E d.val a.val (s.code * 8) 4)
  | .sete g a s => some (packR g 0x2E 0 a.val (s.code * 8) 5)
  | .peekf g p a s => some (packR g 0x2E p.val a.val (s.code * 8) 6)
  | .arrive g d a s => some (packR g 0x2E d.val a.val (s.code * 8) 7)
  | .expect g d a s => some (packR g 0x2E d.val a.val (s.code * 8) 8)
  | .aaddD g d a b => some (packR g 0x2F d.val a.val b.val 0)
  | .aandD g d a b => some (packR g 0x2F d.val a.val b.val 1)
  | .aorD g d a b => some (packR g 0x2F d.val a.val b.val 2)
  | .axorD g d a b => some (packR g 0x2F d.val a.val b.val 3)
  | .aminD g d a b => some (packR g 0x2F d.val a.val b.val 4)
  | .amaxD g d a b => some (packR g 0x2F d.val a.val b.val 5)
  | .aminuD g d a b => some (packR g 0x2F d.val a.val b.val 6)
  | .amaxuD g d a b => some (packR g 0x2F d.val a.val b.val 7)
  | .aswpD g d a b => some (packR g 0x2F d.val a.val b.val 8)
  | .acasD g d a b => some (packR g 0x2F d.val a.val b.val 9)
  | .afaddD g d a b => some (packR g 0x2F d.val a.val b.val 10)
  | .aaddW g d a b => some (packR g 0x30 d.val a.val b.val 0)
  | .aandW g d a b => some (packR g 0x30 d.val a.val b.val 1)
  | .aorW g d a b => some (packR g 0x30 d.val a.val b.val 2)
  | .axorW g d a b => some (packR g 0x30 d.val a.val b.val 3)
  | .aminW g d a b => some (packR g 0x30 d.val a.val b.val 4)
  | .amaxW g d a b => some (packR g 0x30 d.val a.val b.val 5)
  | .aminuW g d a b => some (packR g 0x30 d.val a.val b.val 6)
  | .amaxuW g d a b => some (packR g 0x30 d.val a.val b.val 7)
  | .aswpW g d a b => some (packR g 0x30 d.val a.val b.val 8)
  | .acasW g d a b => some (packR g 0x30 d.val a.val b.val 9)
  | .afaddW g d a b => some (packR g 0x30 d.val a.val b.val 10)
  | .fenceAcq g s => some (packR g 0x31 0 0 s.code 0)
  | .fenceRel g s => some (packR g 0x31 0 0 s.code 1)
  | .fenceAr g s => some (packR g 0x31 0 0 s.code 2)
  | .fenceCpy g s => some (packR g 0x31 0 0 s.code 3)
  | .fenceSrv g s => some (packR g 0x31 0 0 s.code 4)
  | .cflush g a => some (packR g 0x32 0 a.val 0 0)
  | .cinv g a => some (packR g 0x32 0 a.val 0 1)
  | .cpref g a => some (packR g 0x32 0 a.val 0 2)
  | .czero g a => some (packR g 0x32 0 a.val 0 3)
  | .cclean g a => some (packR g 0x32 0 a.val 0 4)
  | .gjoin g d n => some (packR g 0x33 d.val 0 n.toNat 0)
  | .gleave g d n => some (packR g 0x33 d.val 0 n.toNat 1)
  | .gsync g n => some (packR g 0x33 0 0 n.toNat 2)
  | .gshfl g d a n => some (packR g 0x33 d.val a.val n.toNat 3)
  | .gshflx g d a n => some (packR g 0x33 d.val a.val n.toNat 4)
  | .gbcast g d a n => some (packR g 0x33 d.val a.val n.toNat 5)
  | .gvoteAny g d a n => some (packR g 0x33 d.val a.val n.toNat 6)
  | .gvoteAll g d a n => some (packR g 0x33 d.val a.val n.toNat 7)
  | .gvoteBal g d a n => some (packR g 0x33 d.val a.val n.toNat 8)
  | .gmatch g d a n => some (packR g 0x33 d.val a.val n.toNat 9)
  | .gredAdd g d a n => some (packR g 0x33 d.val a.val n.toNat 10)
  | .gredMin g d a n => some (packR g 0x33 d.val a.val n.toNat 11)
  | .gredMax g d a n => some (packR g 0x33 d.val a.val n.toNat 12)
  | .gredFadd g d a n => some (packR g 0x33 d.val a.val n.toNat 13)
  | .gredFmax g d a n => some (packR g 0x33 d.val a.val n.toNat 14)
  | .gscanAdd g d a n => some (packR g 0x33 d.val a.val n.toNat 15)
  | .ldxtB g d a b => some (packR g 0x34 d.val a.val b.val 0)
  | .ldxtH g d a b => some (packR g 0x34 d.val a.val b.val 1)
  | .srv g a n r => some (packR g 0x36 0 a.val (n.toNat * 8 + r.toNat) 0)
  | .srvnw g p a n r => some (packR g 0x36 p.val a.val (n.toNat * 8 + r.toNat) 1)
  | .srvq g d a => some (packR g 0x36 d.val a.val 0 2)
  | .cfgld g d a => some (packR g 0x36 d.val a.val 0 3)
  | .cfgpin g d a => some (packR g 0x36 d.val a.val 0 4)
  | .cfgunpin g d a => some (packR g 0x36 d.val a.val 0 5)
  | .cfgev g d a => some (packR g 0x36 d.val a.val 0 6)
  | .mxw g d a n => some (packR g 0x37 d.val a.val n.toNat 0)
  | .mxa g d a n => some (packR g 0x37 d.val a.val n.toNat 1)
  | .mxc g d a n => some (packR g 0x37 d.val a.val n.toNat 2)
  | .mxd g d a n => some (packR g 0x37 d.val a.val n.toNat 3)
  | .mxmd g d a n => some (packR g 0x37 d.val a.val n.toNat 4)
  | .mxst g d a n => some (packR g 0x37 d.val a.val n.toNat 5)
  | .cpy g d a p c => some (packR g 0x38 d.val a.val (p.toNat * 16 + c.toNat) 0)
  | .cshp g d a c => some (packR g 0x38 d.val a.val c.toNat 1)
  | .cpyq g d a c => some (packR g 0x38 d.val a.val c.toNat 2)
  | .cpyres g d a c => some (packR g 0x38 d.val a.val c.toNat 3)
  | .cpyabt g d l c => some (packR g 0x38 d.val 0 (l.toNat * 16 + c.toNat) 4)
  | .wmrd g d c => some (packR g 0x38 d.val 0 c.toNat 5)
  | .wmwait g d a c => some (packR g 0x38 d.val a.val c.toNat 6)
  | .mstart g d a c => some (packR g 0x39 d.val a.val (c.toNat * 32) 0)
  | .mstrm g d a c u s => some (packR g 0x39 d.val a.val (c.toNat * 32 + u.toNat * 16 + s.toNat) 1)
  | .mpush g d a c s => some (packR g 0x39 d.val a.val (c.toNat * 32 + s.toNat) 2)
  | .mfin g d a c => some (packR g 0x39 d.val a.val (c.toNat * 32) 3)
  | .mspill g d a c => some (packR g 0x39 d.val a.val (c.toNat * 32) 4)
  | .mstat g d a c => some (packR g 0x39 d.val a.val (c.toNat * 32) 5)
  | .xsect g d a c => some (packR g 0x39 d.val a.val (c.toNat * 32) 6)
  | .xunion g d a c => some (packR g 0x39 d.val a.val (c.toNat * 32) 7)
  | .xcnt g d a c => some (packR g 0x39 d.val a.val (c.toNat * 32) 8)
  | .csrrw g d a i => some (packI g 0x3A d.val a.val i.toNat)
  | .csrrs g d a i => some (packI g 0x3B d.val a.val i.toNat)
  | .csrrc g d a i => some (packI g 0x3C d.val a.val i.toNat)
  | .tlbi g d a b => some (packR g 0x3D d.val a.val b.val 0)
  | .slotsave g d a b => some (packR g 0x3D d.val a.val b.val 1)
  | .slotload g d a => some (packR g 0x3D d.val a.val 0 2)
  | .slotctl g d a b => some (packR g 0x3D d.val a.val b.val 3)
  | .rgnset g d a b => some (packR g 0x3D d.val a.val b.val 4)
  | .trace g a b => some (packR g 0x3E 0 a.val b.val 0)
  | .mark g d a => some (packR g 0x3E d.val a.val 0 1)
  | .snap g d => some (packR g 0x3E d.val 0 0 2)
  | .nIadd a b m => some (packNode 0x01 a b m.toNat)
  | .nIsub a b m => some (packNode 0x02 a b m.toNat)
  | .nImul a b m => some (packNode 0x03 a b m.toNat)
  | .nIand a b m => some (packNode 0x04 a b m.toNat)
  | .nIor a b m => some (packNode 0x05 a b m.toNat)
  | .nIxor a b m => some (packNode 0x06 a b m.toNat)
  | .nIshl a b m => some (packNode 0x07 a b m.toNat)
  | .nIshr a b m => some (packNode 0x08 a b m.toNat)
  | .nIsra a b m => some (packNode 0x09 a b m.toNat)
  | .nImin a b m => some (packNode 0x0A a b m.toNat)
  | .nImax a b m => some (packNode 0x0B a b m.toNat)
  | .nIcmp a b m => some (packNode 0x0C a b m.toNat)
  | .nFadd a b m => some (packNode 0x10 a b m.toNat)
  | .nFmul a b m => some (packNode 0x11 a b m.toNat)
  | .nFma a b m => some (packNode 0x12 a b m.toNat)
  | .nFmax a b m => some (packNode 0x13 a b m.toNat)
  | .nFmin a b m => some (packNode 0x14 a b m.toNat)
  | .nExp2 a b m => some (packNode 0x18 a b m.toNat)
  | .nLog2 a b m => some (packNode 0x19 a b m.toNat)
  | .nRcp a b m => some (packNode 0x1A a b m.toNat)
  | .nRsq a b m => some (packNode 0x1B a b m.toNat)
  | .nCvt a b m => some (packNode 0x1C a b m.toNat)
  | .nSteer a b m => some (packNode 0x20 a b m.toNat)
  | .nJoin a b m => some (packNode 0x21 a b m.toNat)
  | .nMux a b m => some (packNode 0x22 a b m.toNat)
  | .nRecirc a b => some (packNode 0x23 a b 0)
  | .nEosx a b m => some (packNode 0x24 a b m.toNat)
  | .nDup a b => some (packNode 0x25 a b 0)
  | .nDelay a b => some (packNode 0x26 a b 0)
  | .nConst a b => some (packNode 0x27 a b 0)
  | .nTagchk a b m => some (packNode 0x28 a b m.toNat)
  | .nFilter a b m => some (packNode 0x29 a b m.toNat)
  | .nCoalesce a b m => some (packNode 0x2A a b m.toNat)
  | .nCmpx a b m => some (packNode 0x2B a b m.toNat)
  | .nLoopgen a b m => some (packNode 0x30 a b m.toNat)
  | .nAddrgen a b m => some (packNode 0x31 a b m.toNat)
  | .nLdn a b m => some (packNode 0x38 a b m.toNat)
  | .nStn a b m => some (packNode 0x39 a b m.toNat)
  | .nEntry a b => some (packNode 0x3E a b 0)
  | .nReturn a b => some (packNode 0x3F a b 0)
  | .evEventTaken _ => none
  | .evThreadResume _ => none
  | .evLoadResponse _ _ => none
  | .evStorePerformed _ _ _ => none
  | .evAtomicAtHome _ _ => none
  | .evSyncWordAtHome _ => none
  | .evWaitlistRetry _ => none
  | .evIcacheFill _ => none
  | .evPageWalk _ => none
  | .evSleepTimeout _ => none
  | .evLongPark _ => none
  | .evMessageArrival _ => none
  | .evAnswerArrival _ => none
  | .evKillArrival _ => none
  | .evDrainComplete _ => none
  | .evHeldRedelivery _ _ => none
  | .evCollectiveComplete _ _ => none
  | .evRecordEntry _ _ _ => none
  | .evReturnDelivery _ _ _ => none
  | .evHearthPlace _ _ => none
  | .evRegionClosed _ _ => none
  | .evShadowWrite _ _ _ _ => none
  | .evCellSwap _ _ _ _ _ => none
  | .evMatrixOpStart _ _ => none
  | .evRowDrain _ _ => none
  | .evMatrixHalt _ _ => none
  | .evElementLand _ _ => none
  | .evCopySignal _ _ => none
  | .evStreamRead _ _ _ => none
  | .evSpill _ _ => none
  | .evMergeFinish _ _ => none
  | .evSetOperation _ _ => none
  | .evRegionQuiet _ _ => none
  | .evCutDone _ _ => none
  | .evDbgtrig => none
  | .evSnapshotLatch _ => none
  | .evTraceWrite _ => none
  | .evWidxWrite _ _ => none
  | .evQstatErr _ => none
  | .evQstatFault _ => none
  | .evQstatAbort _ => none
  | .evEvrWrite _ _ => none
  | .evRefusedWrite _ _ _ => none
  | .evNodeStateWrite _ _ _ => none
  | .evRctlWrite _ _ _ => none
  | .evBkcfgWrite _ _ _ _ => none
  | .evRegisterWrite _ _ => none
  | .evLaunch _ => none
  | .evLaunchPlace _ => none
  | .evBind _ => none
  | .evBindInbound _ _ _ => none
  | .evBindOutbound _ _ _ => none
  | .evWait _ => none
  | .evSignalStf _ => none
  | .evSignalArrive _ => none
  | .evSignalAadd _ => none
  | .evConfigLoad _ => none
  | .evConfigUnload _ => none
  | .evConfigForce _ => none
  | .evRegion _ => none
  | .evCopy _ => none
  | .evFence _ => none
  | .evCommandComplete _ _ => none
  | .evSeqEnd _ _ => none
  | .evSeqLoad _ _ => none
  | .evSeqSwap _ _ => none
  | .evSeqWaiteos _ _ => none
  | .evSeqWaitc _ _ => none
  | .evSeqSkipc _ _ => none
  | .evSeqPin _ _ => none
  | .evSeqUnpin _ _ => none
  | .evPeerAccess _ => none
  | .evPeerLinkDown _ => none
  | .evIslctlWrite _ _ => none
  | .evIslandPowerUp _ => none
  | .evIslandGate _ => none
  | .evVfChange _ => none
  | .evThermalThrottle _ => none
  | .evForcedGate _ => none
  | .evEccWindow _ _ => none
  | .evUncorrectableError _ => none
  | .evPackageReset _ => none
  | .evAttctlWrite _ _ => none
  | .evAttestationDone _ => none
  | .evMatrixStreamRead _ _ => none
  | .evMemoryNodeAccessDone _ _ _ => none
  | .evPeerLinkUp _ => none

/-- The instruction of a table word (R43, R245): a barrel word where the word is one, else a node word. The two kinds of
words share patterns, and a word of memory is read as the one or the other by the place it stands in. (log 6: DEDUCED.) -/
noncomputable def decodeTableWord (nbits w : Nat) : Option Instr :=
  if nbits = 32 then
    match decode (BitVec.ofNat 32 w) with
    | .ok i => some i
    | .error _ => decodeNode (BitVec.ofNat 32 w)
  else none

end Sys2Proof
end

