-- ==== Sys2Proof/Config.lean ====
section
/-! DEFINITION. What an implementation fixes, and the values the spec leaves open. The open values are constants without a
body: nothing can be proved of one beyond its type (log 3). -/

namespace Sys2Proof.Config

/-- The dies of the package (R13). -/
def dies : Nat := 2
/-- Enabled spires of a die (R13). -/
def spiresPerDie : Nat := 80
/-- Enabled spires of the package (R13). -/
def spires : Nat := 160
/-- Barrel cores of a spire and slots of a core (R19). -/
def coresPerSpire : Nat := 16
def slotsPerCore : Nat := 16
/-- Bytes of a keep (R19). -/
def keepBytes : Nat := 3145728
/-- Ways and sets of a spire's cache, entries of its TLB, its page walks in flight (R19). -/
def cacheWays : Nat := 16
def cacheSets : Nat := 512
def tlbEntries : Nat := 1024
def walks : Nat := 64
/-- Lines of a core's instruction cache (R144). -/
def icacheLines : Nat := 256
/-- Entries of a slot's store queue (R164). -/
def storeQueueEntries : Nat := 8
/-- Entries of a wait list (R132). -/
def waitListEntries : Nat := 16
/-- Messages of a core's outbound queue (R153) and messages that wait at a destination core (R154). -/
def outboundMessages : Nat := 8
def waitingMessages : Nat := 4
/-- Entries of a die's absent-thread table (R375) and of its holding area (R159). -/
def absentEntries : Nat := 256
def heldMessages : Nat := 1024

/-- The n-th value that the spec leaves open: a value read from a peer, an instruction's unstated result (log 3). -/
opaque freeWord : Nat → Word
/-- The n-th byte that the spec leaves open (log 3). -/
opaque freeByte : Nat → Byte

/-- The way of a full set, or the entry of a full TLB or instruction cache, that the n-th replacement takes: the spec names no
replacement rule (R19, R144, R370; log 7). -/
opaque victim : Nat → Nat

/-- Which of its die's two SRAM dies holds a dome word, by the word's key ÷ 8: the spec gives no division (R34, R172; log 3). -/
opaque sramDie : Nat → Bool
/-- The fused hash of the firmware's public key, and the fused minimum of its version (R427; log 3). -/
opaque fusedKey : List Byte
opaque minVersion : BitVec 32
/-- The ROM image of a die's lantern strip, and the bytes of a die's spare map by the structures that spares have replaced (R426,
R429; log 3). -/
opaque romImage : Nat → List Byte
opaque spareMap : Nat → List (Nat × Nat) → List Byte
/-- The bytes of the device's identity key that the spec leaves open: its name, its secret by leaf and chain, and the salt of a
signature by leaf and message (R427, R429, R430; log 3). -/
opaque identityName : Nat → Byte
opaque identitySecret : Nat → Nat → Nat → Byte
opaque identitySalt : Nat → List Byte → Nat → Byte
/-- The key, the signature and the version of the ROM image of a die's lantern strip (R427; log 3). -/
opaque romKey : Nat → List Byte
opaque romSignature : Nat → List Byte
opaque romVersion : Nat → BitVec 32

end Sys2Proof.Config
end

