-- ==== Sys2Proof/Machine/Float.lean ====
section
/-! DEFINITION. Floating-point formats, exact values, rounding and the exact arithmetic beneath every unit
(R65 to R70, R77 to R82, R85, R86). Nothing here reads the machine. -/

namespace Sys2Proof.Machine

/-- A floating-point format of R65; `ieee` is false only for E4M3, which has no infinity and one NaN code. -/
structure Fmt where
  width : Nat
  mant  : Nat
  bias  : Nat
  ieee  : Bool
  deriving DecidableEq, Repr

def fp64 : Fmt := ⟨64, 52, 1023, true⟩
def fp32 : Fmt := ⟨32, 23, 127, true⟩
def fp16 : Fmt := ⟨16, 10, 15, true⟩
def bf16 : Fmt := ⟨16, 7, 127, true⟩
def e5m2 : Fmt := ⟨8, 2, 15, true⟩
def e4m3 : Fmt := ⟨8, 3, 7, false⟩

/-- The rounding modes of R77. -/
inductive RMode where
  | rne | rtz | rup | rdn | rna
  deriving DecidableEq, Repr

/-- What a floating-point code denotes (R66, R68): a NaN, an infinity, or (−1)^neg × m × 2^e with m a natural number. -/
inductive FVal where
  | nan (signalling : Bool)
  | inf (neg : Bool)
  | fin (neg : Bool) (m : Nat) (e : Int)
  deriving DecidableEq, Repr

def flagNV : Flags := 0x01#6
def flagDZ : Flags := 0x02#6
def flagOF : Flags := 0x04#6
def flagUF : Flags := 0x08#6
def flagNX : Flags := 0x10#6
def flagOV : Flags := 0x20#6

/-- The number of bits of a natural number; 0 has none. -/
def bitLen (n : Nat) : Nat := if n = 0 then 0 else Nat.log2 n + 1

/-- The width of the exponent field. -/
def Fmt.expBits (f : Fmt) : Nat := f.width - 1 - f.mant
/-- The all-ones exponent code. -/
def Fmt.expOnes (f : Fmt) : Nat := 2 ^ f.expBits - 1
/-- The exponent of the least significant bit of a subnormal (R66). -/
def Fmt.quantum (f : Fmt) : Int := 1 - (f.bias : Int) - (f.mant : Int)
/-- The sign bit as a number. -/
def Fmt.signBit (f : Fmt) : Nat := 2 ^ (f.width - 1)
/-- The canonical quiet NaN of R68. -/
def Fmt.canonNaN (f : Fmt) : Nat :=
  if f.ieee then f.expOnes * 2 ^ f.mant + 2 ^ (f.mant - 1) else f.expOnes * 2 ^ f.mant + (2 ^ f.mant - 1)
/-- The code of +∞ (formats that have one). -/
def Fmt.infCode (f : Fmt) : Nat := f.expOnes * 2 ^ f.mant
/-- The code of the largest finite value (R67). -/
def Fmt.maxCode (f : Fmt) : Nat := if f.ieee then f.infCode - 1 else f.canonNaN - 1

/-- The value of a code (R65, R66, R68); bits above the width are ignored (R69). -/
def Fmt.decode (f : Fmt) (bits : Nat) : FVal :=
  let b := bits % 2 ^ f.width
  let neg := decide (f.signBit ≤ b)
  let mag := b % f.signBit
  let e := mag / 2 ^ f.mant
  let m := mag % 2 ^ f.mant
  if f.ieee && e = f.expOnes then
    if m = 0 then .inf neg else .nan (decide (m < 2 ^ (f.mant - 1)))
  else if !f.ieee && mag = f.canonNaN then .nan false
  else if e = 0 then .fin neg m f.quantum
  else .fin neg (m + 2 ^ f.mant) (f.quantum + (e : Int) - 1)

/-- Whether the value discarded below a kept part `q` rounds the magnitude up (R77); `r` of `2^k` is what was discarded. -/
def roundsUp (mode : RMode) (neg : Bool) (q r k : Nat) : Bool :=
  match mode with
  | .rne => decide (2 ^ k < 2 * r) || (2 * r = 2 ^ k && q % 2 = 1)
  | .rtz => false
  | .rup => decide (r ≠ 0) && !neg
  | .rdn => decide (r ≠ 0) && neg
  | .rna => decide (2 ^ k ≤ 2 * r ∧ r ≠ 0)

/-- m × 2^e rounded to a multiple of 2^q: the multiple, and whether it differs from the value. -/
def roundAt (mode : RMode) (neg : Bool) (m : Nat) (e q : Int) : Nat × Bool :=
  if q ≤ e then (m * 2 ^ (e - q).toNat, false)
  else
    let k := (q - e).toNat
    let hi := m / 2 ^ k
    let lo := m % 2 ^ k
    (if roundsUp mode neg hi lo k then hi + 1 else hi, decide (lo ≠ 0))

/-- The place of the last kept bit when m × 2^e is rounded to `p` bits with an unbounded exponent. -/
def quantumOf (p m : Nat) (e : Int) : Int := e + (bitLen m : Int) - (p : Int)

/-- The outcome of R77's rounding: the code without sign when it fits, whether it overflowed, is tiny (R79), is inexact. -/
structure Rounded where
  code : Nat
  ovf : Bool
  tiny : Bool
  inexact : Bool
  deriving DecidableEq, Repr

/-- The magnitude code of n × 2^q, which the format represents: n below 2^(mant+1), q at least the quantum. -/
def Fmt.packMag (f : Fmt) (n : Nat) (q : Int) : Nat :=
  if n < 2 ^ f.mant then n else ((q - f.quantum).toNat + 1) * 2 ^ f.mant + (n - 2 ^ f.mant)

/-- Rounds the nonzero magnitude m × 2^e to the format (R77, R79). -/
def Fmt.roundMag (f : Fmt) (mode : RMode) (neg : Bool) (m : Nat) (e : Int) : Rounded :=
  let p := f.mant + 1
  let qu := quantumOf p m e
  let (nu, _) := roundAt mode neg m e qu
  -- the unbounded result is nu × 2^qu; it is tiny below 2^(1 − bias)
  let minNorm := f.quantum + (f.mant : Int)
  let tiny := decide ((bitLen nu : Int) + qu - 1 < minNorm)
  let q := max qu f.quantum
  let (n, ix) := roundAt mode neg m e q
  -- a carry out of the mantissa moves to the next binade
  let (n', q') := if n = 2 ^ p then (2 ^ f.mant, q + 1) else (n, q)
  let c := f.packMag n' q'
  ⟨c, decide (f.maxCode < c), tiny, ix⟩

def Fmt.withSign (f : Fmt) (neg : Bool) (code : Nat) : Nat := if neg then f.signBit + code else code

/-- R80: what an overflowing arithmetic result delivers. -/
def Fmt.overflowCode (f : Fmt) (mode : RMode) (neg : Bool) : Nat :=
  let toInf := match mode with
    | .rne | .rna => true
    | .rtz => false
    | .rup => !neg
    | .rdn => neg
  f.withSign neg (if toInf then f.infCode else f.maxCode)

/-- An arithmetic result delivered in a format (R77, R79, R80): its code and the flags it raises. -/
def Fmt.deliver (f : Fmt) (mode : RMode) (v : FVal) : Nat × Flags :=
  match v with
  | .nan _ => (f.canonNaN, 0)
  | .inf neg => (f.withSign neg f.infCode, 0)
  | .fin neg m e =>
    if m = 0 then (f.withSign neg 0, 0)
    else
      let r := f.roundMag mode neg m e
      if r.ovf then (f.overflowCode mode neg, flagOF ||| flagNX)
      else (f.withSign neg r.code,
        if r.inexact then (if r.tiny then flagUF ||| flagNX else flagNX) else 0)

/-- A narrowing conversion to a floating-point format (R82). -/
def Fmt.narrow (f : Fmt) (mode : RMode) (v : FVal) : Nat × Flags :=
  match v with
  | .nan sig => (f.canonNaN, if sig then flagNV else 0)
  | .inf neg => if f.ieee then (f.withSign neg f.infCode, 0) else (f.withSign neg f.maxCode, flagOV ||| flagNX)
  | .fin neg m e =>
    if m = 0 then (f.withSign neg 0, 0)
    else
      let r := f.roundMag mode neg m e
      if r.ovf then (f.withSign neg f.maxCode, flagOV ||| flagNX)
      else (f.withSign neg r.code,
        if r.inexact then (if r.tiny then flagUF ||| flagNX else flagNX) else 0)

/-- A widening conversion (exact; R82's opening, R121): NV for a signalling NaN. -/
def Fmt.widen (f : Fmt) (v : FVal) : Nat × Flags :=
  match v with
  | .nan sig => (f.canonNaN, if sig then flagNV else 0)
  | _ => ((f.deliver .rne v).1, 0)

/-- A finite value rounded to an integer in a mode (R122): the integer and whether it differs. -/
def roundToInt (mode : RMode) (neg : Bool) (m : Nat) (e : Int) : Int × Bool :=
  let (n, ix) := roundAt mode neg m e 0
  (if neg then -(n : Int) else (n : Int), ix)

/-- A conversion to an integer in the range lo to hi (R82, R122). -/
def narrowInt (lo hi : Int) (mode : RMode) (v : FVal) : Int × Flags :=
  match v with
  | .nan _ => (0, flagNV)
  | .inf neg => (if neg then lo else hi, flagOV)
  | .fin neg m e =>
    let (n, ix) := roundToInt mode neg m e
    if n < lo then (lo, flagOV ||| flagNX)
    else if hi < n then (hi, flagOV ||| flagNX)
    else (n, if ix then flagNX else 0)

/-- An integer as an exact value. -/
def FVal.ofInt (i : Int) : FVal := .fin (decide (i < 0)) i.natAbs 0

def FVal.isNaN : FVal → Bool
  | .nan _ => true
  | _ => false

def FVal.isSig : FVal → Bool
  | .nan s => s
  | _ => false

def FVal.isInf : FVal → Bool
  | .inf _ => true
  | _ => false

def FVal.isZero : FVal → Bool
  | .fin _ m _ => decide (m = 0)
  | _ => false

/-- The sign of a value that is no NaN. -/
def FVal.sign : FVal → Bool
  | .nan _ => false
  | .inf n => n
  | .fin n _ _ => n

/-- The value with its sign inverted; a NaN stays. -/
def FVal.neg : FVal → FVal
  | .nan s => .nan s
  | .inf n => .inf (!n)
  | .fin n m e => .fin (!n) m e

/-- NV when an input is a signalling NaN (R110). -/
def sigFlags (vs : List FVal) : Flags := if vs.any FVal.isSig then flagNV else 0

/-- The signed numerator of a finite value over 2^q, q at most its exponent; 0 for the others. -/
def FVal.scaled (q : Int) : FVal → Int
  | .fin neg m e => let n : Int := ((m * 2 ^ (e - q).toNat : Nat) : Int); if neg then -n else n
  | _ => 0

/-- The least exponent among finite values, starting from `q`. -/
def minExp : List FVal → Int → Int
  | [], q => q
  | .fin _ _ e :: vs, q => minExp vs (min q e)
  | _ :: vs, q => minExp vs q

/-- The exact sum of a list of values, with the zero rule of R81; the flag says that infinities of opposite sign met. -/
def exactSum (mode : RMode) (vs : List FVal) : FVal × Bool :=
  if vs.any FVal.isNaN then (.nan false, false)
  else
    let pinf := vs.any (fun v => v.isInf && !v.sign)
    let ninf := vs.any (fun v => v.isInf && v.sign)
    if pinf && ninf then (.nan false, true)
    else if pinf then (.inf false, false)
    else if ninf then (.inf true, false)
    else
      let q := minExp vs 0
      let t := vs.foldl (fun acc v => acc + v.scaled q) (0 : Int)
      if t ≠ 0 then (.fin (decide (t < 0)) t.natAbs q, false)
      else if vs.all FVal.isZero && vs.all (fun v => !v.sign) then (.fin false 0 0, false)
      else if vs.all FVal.isZero && vs.all FVal.sign then (.fin true 0 0, false)
      else (.fin (decide (mode = .rdn)) 0 0, false)

/-- The exact product of two values; the flag says 0 × ∞ (R113). -/
def exactMul (a b : FVal) : FVal × Bool :=
  match a, b with
  | .nan _, _ => (.nan false, false)
  | _, .nan _ => (.nan false, false)
  | .inf s, .inf t => (.inf (s != t), false)
  | .inf s, .fin t m _ => if m = 0 then (.nan false, true) else (.inf (s != t), false)
  | .fin t m _, .inf s => if m = 0 then (.nan false, true) else (.inf (s != t), false)
  | .fin s m e, .fin t n g => (.fin (s != t) (m * n) (e + g), false)

/-- The value 2^k times a value, exactly (R70). -/
def FVal.scaleBy (k : Int) : FVal → FVal
  | .fin n m e => .fin n m (e + k)
  | v => v

/-- a + b in a format (R112, R113). -/
def fAdd (f : Fmt) (mode : RMode) (a b : FVal) : Nat × Flags :=
  let (v, bad) := exactSum mode [a, b]
  let (r, fl) := f.deliver mode v
  (r, fl ||| sigFlags [a, b] ||| (if bad then flagNV else 0))

/-- a × b in a format (R112, R113). -/
def fMul (f : Fmt) (mode : RMode) (a b : FVal) : Nat × Flags :=
  let (v, bad) := exactMul a b
  let (r, fl) := f.deliver mode v
  (r, fl ||| sigFlags [a, b] ||| (if bad then flagNV else 0))

/-- a × b + c with one rounding (R119). -/
def fMulAdd (f : Fmt) (mode : RMode) (a b c : FVal) : Nat × Flags :=
  let (p, bad) := exactMul a b
  if bad then (f.canonNaN, flagNV)
  else
    let (v, bad2) := exactSum mode [p, c]
    let (r, fl) := f.deliver mode v
    (r, fl ||| sigFlags [a, b, c] ||| (if bad2 then flagNV else 0))

/-- The quotient m × 2^e over n × 2^g with at least `p` + 2 bits, its last bit set where the rest is not zero. -/
def quotient (p m : Nat) (e : Int) (n : Nat) (g : Int) : Nat × Int :=
  let k := bitLen n + p + 3 - bitLen m
  let q := m * 2 ^ k / n
  let r := m * 2 ^ k % n
  (2 * q + (if r = 0 then 0 else 1), e - g - (k : Int) - 1)

/-- a ÷ b in a format (R112, R113). -/
def fDiv (f : Fmt) (mode : RMode) (a b : FVal) : Nat × Flags :=
  match a, b with
  | .nan _, _ => (f.canonNaN, sigFlags [a, b])
  | _, .nan _ => (f.canonNaN, sigFlags [a, b])
  | .inf _, .inf _ => (f.canonNaN, flagNV)
  | .inf s, .fin t _ _ => (f.withSign (s != t) f.infCode, 0)
  | .fin s _ _, .inf t => (f.withSign (s != t) 0, 0)
  | .fin s m e, .fin t n g =>
    if n = 0 then
      if m = 0 then (f.canonNaN, flagNV) else (f.withSign (s != t) f.infCode, flagDZ)
    else if m = 0 then (f.withSign (s != t) 0, 0)
    else
      let (q, x) := quotient (f.mant + 1) m e n g
      f.deliver mode (.fin (s != t) q x)

/-- The integer square root, one bit at a time from bit `k` − 1 down. -/
def isqrtFrom (n : Nat) : Nat → Nat → Nat
  | 0, acc => acc
  | k + 1, acc =>
    let t := acc + 2 ^ k
    if t * t ≤ n then isqrtFrom n k t else isqrtFrom n k acc

/-- The largest natural number whose square is at most n. -/
def isqrt (n : Nat) : Nat := isqrtFrom n (bitLen n / 2 + 1) 0

/-- √(m × 2^e) with at least `p` + 2 bits, its last bit set where the rest is not zero. -/
def rootOf (p m : Nat) (e : Int) : Nat × Int :=
  let e0 := e % 2
  let m1 := m * 2 ^ e0.toNat
  let k := p + 2
  let n := m1 * 2 ^ (2 * k)
  let r := isqrt n
  (2 * r + (if r * r = n then 0 else 1), (e - e0) / 2 - (k : Int) - 1)

/-- √a in a format (R112, R113). -/
def fSqrt (f : Fmt) (mode : RMode) (a : FVal) : Nat × Flags :=
  match a with
  | .nan _ => (f.canonNaN, sigFlags [a])
  | .inf s => if s then (f.canonNaN, flagNV) else (f.infCode, 0)
  | .fin s m e =>
    if m = 0 then (f.withSign s 0, 0)
    else if s then (f.canonNaN, flagNV)
    else
      let (r, x) := rootOf (f.mant + 1) m e
      f.deliver mode (.fin false r x)

/-- The order of two codes of an IEEE format that are no NaN, −0 below +0 (R114). -/
def Fmt.orderKey (f : Fmt) (bits : Nat) : Int :=
  let b := bits % 2 ^ f.width
  if f.signBit ≤ b then -((b - f.signBit : Nat) : Int) - 1 else (b : Int)

/-- The order of two codes with −0 equal to +0 (R120). -/
def Fmt.valueKey (f : Fmt) (bits : Nat) : Int :=
  let b := bits % 2 ^ f.width
  if f.signBit ≤ b then -((b - f.signBit : Nat) : Int) else (b : Int)

/-- FMIN and FMAX (R114); `greater` chooses FMAX. -/
def fMinMax (f : Fmt) (greater : Bool) (a b : Nat) : Nat × Flags :=
  let va := f.decode a
  let vb := f.decode b
  let fl := sigFlags [va, vb]
  let x := a % 2 ^ f.width
  let y := b % 2 ^ f.width
  if va.isNaN && vb.isNaN then (f.canonNaN, fl)
  else if va.isNaN then (y, fl)
  else if vb.isNaN then (x, fl)
  else
    let le := decide (f.orderKey a ≤ f.orderKey b)
    (if le != greater then x else y, fl)

/-- The class word of R116. -/
def fClass (f : Fmt) (a : Nat) : Nat :=
  let b := a % 2 ^ f.width
  let neg := if f.signBit ≤ b then 1 else 0
  match f.decode a with
  | .nan sig => (if sig then 10 else 8) + neg
  | .inf _ => 6 + neg
  | .fin _ m e =>
    let kind := if m = 0 then 0 else if m < 2 ^ f.mant then 1 else 2
    let whole := if 0 ≤ e then true else decide (m % 2 ^ (-e).toNat = 0)
    (if whole then 16 else 0) + 2 * kind + neg

/-- The FP compares of R120: 0 equal, 1 less, 2 less or equal, 3 unordered. -/
inductive FCond where
  | eq | lt | le | un
  deriving DecidableEq, Repr

def fCompare (f : Fmt) (c : FCond) (a b : Nat) : Bool × Flags :=
  let va := f.decode a
  let vb := f.decode b
  let anyNaN := va.isNaN || vb.isNaN
  let anySig := va.isSig || vb.isSig
  let ka := f.valueKey a
  let kb := f.valueKey b
  match c with
  | .eq => (!anyNaN && decide (ka = kb), if anySig then flagNV else 0)
  | .lt => (!anyNaN && decide (ka < kb), if anyNaN then flagNV else 0)
  | .le => (!anyNaN && decide (ka ≤ kb), if anyNaN then flagNV else 0)
  | .un => (anyNaN, if anySig then flagNV else 0)

/-- The sign operations of R115: the magnitude of a under a new sign, a NaN giving the canonical NaN. -/
def fSignOp (f : Fmt) (newSign : Bool) (a : Nat) (inputs : List FVal) : Nat × Flags :=
  if (f.decode a).isNaN then (f.canonNaN, sigFlags inputs)
  else (f.withSign newSign (a % f.signBit), sigFlags inputs)

/-- Whether the sign bit of a code is set. -/
def Fmt.signOf (f : Fmt) (a : Nat) : Bool := a.testBit (f.width - 1)

/-- One level of the tree of R86: pairs are added in FP32 with RNE, an odd last value passes up. -/
def treeLevel : List Nat → List Nat × Flags
  | a :: b :: rest =>
    let (r, fl) := fAdd fp32 .rne (fp32.decode a) (fp32.decode b)
    let (rs, fl2) := treeLevel rest
    (r :: rs, fl ||| fl2)
  | [a] => ([a], 0)
  | [] => ([], 0)

/-- The levels of the tree of R86, with the flags every addition raises. -/
def treeSumFrom : Nat → List Nat → Flags → List Nat × Flags
  | 0, vs, fl => (vs, fl)
  | n + 1, vs, fl =>
    if vs.length ≤ 1 then (vs, fl)
    else
      let (ws, f2) := treeLevel vs
      treeSumFrom n ws (fl ||| f2)

/-- GRED.FADD's tree over the operands in ascending member index (R86). -/
def treeSum (vs : List Nat) : Nat × Flags :=
  let (ws, fl) := treeSumFrom 5 vs 0
  (ws.headD 0, fl)

end Sys2Proof.Machine
end

