-- ==== Sys2Proof/Machine/ThreadTypes.lean ====
section
/-! DEFINITION. The data of thread slots: privileges, causes, parks, memory requests and the slot record
(R46, R83, R124 to R135, R156, R164, R169, R359 to R363). -/

namespace Sys2Proof.Machine

/-- The privileges of R358. -/
inductive Priv where
  | user | kernel | lantern
  deriving DecidableEq, Repr

def Priv.code : Priv → Nat
  | .user => 0 | .kernel => 1 | .lantern => 2

/-- The privilege of a code; 3 names none. -/
def Priv.ofCode : Nat → Option Priv
  | 0 => some .user | 1 => some .kernel | 2 => some .lantern | _ => none

/-- The causes of R363. -/
inductive Cause where
  | illegal | priv | align | xspace | pageR | pageW | pageX | prot | secondWrite | srvPoison | cpyFrozen | cpyAborted
  | mergeStop | metadata | expectOvf | group | ecall | ebrk | fpe | shape
  deriving DecidableEq, Repr

/-- The code of a cause (R363). -/
def Cause.code : Cause → Nat
  | .illegal => 0x01 | .priv => 0x02 | .align => 0x04 | .xspace => 0x05 | .pageR => 0x06 | .pageW => 0x07 | .pageX => 0x08
  | .prot => 0x09 | .secondWrite => 0x0A | .srvPoison => 0x0B | .cpyFrozen => 0x0C | .cpyAborted => 0x0D | .mergeStop => 0x0E
  | .metadata => 0x0F | .expectOvf => 0x10 | .group => 0x11 | .ecall => 0x12 | .ebrk => 0x13 | .fpe => 0x14 | .shape => 0x16

/-- A fault before it is delivered: cause, TSUB and TVAL. -/
structure Flt where
  cause : Cause
  sub   : Nat
  val   : Word
  deriving DecidableEq, Repr

/-- An event that waits for a thread's boundary (R362): CPY_FROZEN or MERGE_STOP, and the SRV_POISON that R226 records
for a held thread (`node` is its TNODE). -/
structure PendEvent where
  cause : Cause
  sub   : Word
  val   : Word
  deriving DecidableEq, Repr

/-- The park reasons of R128. -/
inductive Reason where
  | mem | sync | wmark | srv | group | cpyq | send | sleep | engine
  deriving DecidableEq, Repr

def Reason.code : Reason → Nat
  | .mem => 1 | .sync => 2 | .wmark => 3 | .srv => 4 | .group => 5 | .cpyq => 6 | .send => 7 | .sleep => 8 | .engine => 9

/-- The kinds of an access (R368): a write that also reads keeps the kind W for the choice of fault. -/
inductive AccKind where
  | fetch | read | write | readWrite
  deriving DecidableEq, Repr

/-- A run of bytes of one home, within one 32-byte block (R170): `off` is its place in the access, `key` the first byte, `va`
that byte's virtual address. -/
structure Piece where
  off : Nat
  key : Nat
  len : Nat
  va  : Nat
  deriving DecidableEq, Repr

/-- Bytes to be written at consecutive keys; `once` when the page is marked ONCE (R172), `va` the virtual address of the first. -/
structure StorePiece where
  key  : Nat
  data : List Byte
  once : Bool
  va   : Nat
  deriving DecidableEq, Repr

/-- How a loaded value is extended (R167, R173). -/
inductive LoadExt where
  | sext | zext | pair
  deriving DecidableEq, Repr

/-- A load under way: the pieces still to be read, the bytes read so far by their place, and where the value goes. -/
structure LoadReq where
  todo : List Piece
  got  : List (Nat × Byte)
  size : Nat
  ext  : LoadExt
  d    : Reg
  acq  : Option Scope
  deriving DecidableEq, Repr

/-- The atomic operations of R177. -/
inductive AmoOp where
  | add | and | or | xor | min | max | minu | maxu | swp | cas | fadd
  deriving DecidableEq, Repr

/-- An atomic on its way to its home: `b` and `c` are X[b] and X[d] at issue. -/
structure AmoReq where
  op   : AmoOp
  wide : Bool
  key  : Nat
  va   : Nat
  once : Bool
  b    : Word
  c    : Word
  deriving DecidableEq, Repr

/-- The sync-word operations of R174. -/
inductive SyncOp where
  | ldf | ldfe | stef | stf | sto | sete | peekf | arrive | expect
  deriving DecidableEq, Repr

/-- A sync-word operation on its way to its home. -/
structure SyncReq where
  op    : SyncOp
  key   : Nat
  va    : Nat
  once  : Bool
  scope : Scope
  d     : Reg
  p     : PReg
  v     : Word
  deriving DecidableEq, Repr

/-- What a store queue holds (R164, R178): a store of one or more pieces, or a posted atomic. `serial` numbers accesses. -/
inductive QEntry where
  | store (serial : Nat) (ps : List StorePiece)
  | amo (serial : Nat) (r : AmoReq)
  deriving DecidableEq, Repr

/-- A tile shape of a matrix region (R305). -/
structure TileShape where
  fmt    : Nat
  acc    : Bool
  sparse : Bool
  ur     : Nat
  uc     : Nat
  m      : Nat
  deriving DecidableEq, Repr

/-- A queued operation of a matrix region (R303): a weight load, with its metadata when sparse, or a tile with its drain. -/
inductive MatOp where
  | wload (addr : Word) (shape : TileShape) (md : List Byte)
  | tile (addr : Word) (shape : TileShape) (dst pitch : Word)
  deriving DecidableEq, Repr

/-- A condition that a parked instruction waits on. -/
inductive WaitCond where
  /-- Every earlier access of the thread is performed: its store queue is empty. -/
  | drained
  /-- The store queue has room (R164). -/
  | storeRoom
  /-- The core's outbound queue has room (R153). -/
  | outRoom
  /-- Every copy the thread issued has landed or been aborted (R179). -/
  | copiesLanded (scope : Scope)
  /-- Every record the thread sent has returned (R179). -/
  | recordsBack
  /-- Every access on its way to a peer is acknowledged (R181). -/
  | acked
  /-- No access of the scope's spires under way has the serial number or an older one (R371). -/
  | flights (scope : Scope) (serial : Nat)
  /-- The watermark of every covering window has passed the bytes (R326): virtual address, key and length of each run. -/
  | watermark (runs : List (Nat × Nat × Nat))
  /-- A channel's watermark has reached a value, or the channel left the wait (R335). -/
  | channelMark (ch : Nat) (mark : Word)
  /-- A matrix region's queue is empty (R305). -/
  | matrixEmpty (region : Nat)
  /-- A matrix region's queue is empty and it is IDLE or FAULTED (R309). -/
  | matrixIdle (region : Nat)
  /-- A crucible context is neither finishing nor in a set operation (R342). -/
  | crucible (ctx : Nat)
  /-- A stream of a context is wholly read (R344). -/
  | stream (ctx stream : Nat)
  /-- A context's buffer can take an element of a stream (R345). -/
  | push (ctx stream : Nat)
  /-- Already satisfied: the thread goes on at once. -/
  | now
  deriving DecidableEq, Repr

/-- A copy's level (R319): count, source and destination strides. -/
structure Level where
  cnt  : Nat
  sstr : Int
  dstr : Int
  deriving DecidableEq, Repr

/-- A copy's shape: eight levels, innermost first, and log2 of the element size (R319). -/
structure CopyShape where
  levels : Vector Level 8
  loge   : Nat
  deriving DecidableEq, Repr

def CopyShape.reset : CopyShape := ⟨Vector.replicate 8 ⟨1, 0, 0⟩, 0⟩

/-- Where a port copy goes (R323): region and ENTRY node. -/
structure CopyPort where
  region : Nat
  block  : Nat
  node   : Nat
  deriving DecidableEq, Repr

/-- A CPY that has passed its checks (R322): its channel, the shape, source, destination and signal, the port it names, its number in
the spire's issue sequence (R318), its result register. -/
structure CopyReq where
  ch    : Nat
  shape : CopyShape
  src   : Word
  dst   : Word
  sig   : Word
  port  : Option CopyPort
  seq   : Nat
  d     : Reg
  deriving DecidableEq, Repr

/-- A call (R210): the image address, the record shape, the arguments, and its place in the order in which calls issued (R211, R214). -/
structure CallReq where
  addr  : Word
  nargs : Nat
  nrets : Nat
  args  : List Word
  seq   : Nat
  deriving DecidableEq, Repr

/-- What the parked instruction is doing (R129): the one instruction of the thread in progress. -/
inductive ParkOp where
  /-- The line of the pc is being filled into the instruction cache (R144). -/
  | fetch (line : Nat)
  /-- A page walk for a virtual address, missed at a cycle (R370). -/
  | walk (va : Nat) (kind : AccKind) (missed : Nat)
  | load (r : LoadReq)
  /-- A store to a ONCE page, not yet performed at its home (R164). -/
  | once (ps : List StorePiece)
  | atomic (r : AmoReq) (d : Reg)
  /-- A value on its way back to the thread. -/
  | reply (d : Reg) (v : Word)
  /-- A sync-word operation; `listed` when it stands in a wait list, `wait` once it has met a word it must wait on. -/
  | sync (r : SyncReq) (waits listed : Bool)
  /-- Waits on a condition, then goes on (R129). -/
  | wait (c : WaitCond)
  /-- Waits on a condition, then writes a value and goes on. -/
  | finish (c : WaitCond) (d : Reg) (v : Word)
  /-- SLEEP (R148): the turn at which the limit falls, if any. -/
  | sleep (d : Reg) (p : PReg) (limit : Option Nat)
  /-- SENDW or KILL awaiting its answer (R153, R150). -/
  | answer (d : Reg)
  /-- SRV while a record of another thread of its slot is in flight (R213). -/
  | held (c : CallReq)
  /-- SRV waiting on the hearth (R210). -/
  | hearth (c : CallReq)
  /-- SRV whose record waits at the entry port of a region (R211). -/
  | port (region : Nat) (c : CallReq)
  /-- SRV whose record is in flight in a region (R213). -/
  | flight (region : Nat) (nrets : Nat)
  /-- A group collective (R191). -/
  | group (g : Nat)
  /-- MFIN or a set member under way in a crucible context (R350, R352). -/
  | merge (ctx : Nat) (d : Reg)
  /-- SLOTSAVE waiting for its target's boundary, or for a redirect entry (R375): the target, the physical key and the virtual
  address of the save area, whether its page is marked ONCE. -/
  | save (h : BitVec 24) (key va : Nat) (once : Bool) (d : Reg)
  /-- MXMD reading its metadata (R308, R316): the region, X[a], X[a+1], the shape and the pieces. -/
  | metadata (region : Nat) (x y : Word) (sh : TileShape) (ps : List Piece) (d : Reg)
  /-- A matrix operation waiting for its thread's earlier accesses, then for room in its region's queue (R307, R308). -/
  | matrix (region : Nat) (op : MatOp) (d : Reg)
  /-- CPY that waits to enter its channel's queue (R322). -/
  | copy (r : CopyReq)
  /-- RGNSET CREATE or DELETE while planes and borders are cleared (R293): X[a], X[b] and d. -/
  | rgnset (x c : Word) (d : Reg)
  deriving DecidableEq, Repr

/-- A park: its reason, what it waits for, the turn it began, whether the watchdog has reported it (R135), its access number. -/
structure Park where
  reason : Reason
  op     : ParkOp
  since  : Nat
  raised : Bool
  /-- The number of accesses made before it (R371). -/
  serial : Nat
  deriving DecidableEq, Repr

/-- The states of a slot (R124); HOLD is the mark `held`, which leaves the state below it as it is. `ended` is a slot whose thread
has exited in the present turn: it is FREE from the turn's end (R145). -/
inductive SlotState where
  | free | run | park | drain | ended
  deriving DecidableEq, Repr

/-- A thread slot with its thread (R46, R124 to R126, R359). `p` holds p1 to p7 at indices 1 to 7. -/
structure Slot where
  st     : SlotState
  held   : Bool
  gen    : BitVec 8
  pc     : Word
  x      : Vector Word 64
  p      : Vector Bool 8
  rm     : RMode
  en     : Flags
  fl     : Flags
  drops  : BitVec 8
  sBad   : Bool
  sRef   : Bool
  sStale : Bool
  wSlp   : Bool
  wFired : Bool
  wLimit : BitVec 32
  tvec   : Word
  tepc   : Word
  tcause : BitVec 8
  tsub   : Word
  tval   : Word
  tnode  : Word
  tscr0  : Word
  tscr1  : Word
  nest   : Bool
  pprv   : Priv
  prv    : Priv
  asid   : BitVec 12
  ptbr   : Word
  kwin   : Vector Word 5
  work   : BitVec 32
  inbox  : Option Word
  park   : Option Park
  queue  : List QEntry
  events : List PendEvent
  /-- The SRV_POISON that a thread takes when it next may (R226, R227): nrets of its call, TSUB, TVAL and TNODE. -/
  poison : Option (Nat × Word × Word × Word)
  /-- The trap of its instruction that a held thread takes when it is released (R378): cause, TSUB, TVAL and TNODE. -/
  trapDue : Option (Cause × Word × Word × Word)
  /-- The instruction that the thread last issued: a parked one goes on with it (R127, R129). -/
  ins    : Option Instr
  /-- The first cycle at which the thread may issue (R138, R139, R147). -/
  wake   : Nat
  /-- The LAUNCH that placed the thread: queue and packet index (R393). -/
  launch : Option (Nat × Nat)
  deriving DecidableEq, Repr

/-- A slot no thread has claimed: FREE, its registers as the log names them (R83, R134, R156, R361; log 2). -/
def Slot.reset : Slot where
  st := .free
  held := false
  gen := 0
  pc := 0
  x := Vector.replicate 64 0
  p := Vector.replicate 8 false
  rm := .rne
  en := 0
  fl := 0
  drops := 0
  sBad := false
  sRef := false
  sStale := false
  wSlp := false
  wFired := false
  wLimit := 0
  tvec := 0
  tepc := 0
  tcause := 0
  tsub := 0
  tval := 0
  tnode := 0
  tscr0 := 0
  tscr1 := 0
  nest := false
  pprv := .user
  prv := .user
  asid := 0
  ptbr := 0
  kwin := Vector.replicate 5 0
  work := 0
  inbox := none
  park := none
  queue := []
  events := []
  poison := none
  trapDue := none
  ins := none
  wake := 0
  launch := none

/-- A message of R153: the sender's handle and address space, whether a SENDW waits for the answer. -/
structure Msg where
  src  : BitVec 24
  asid : BitVec 12
  dst  : Word
  data : List Word
  wait : Bool
  deriving DecidableEq, Repr

/-- A binding of a handler port (R157): entry, address space (with the registers that make it, R359) and privilege. -/
structure Binding where
  entry : Word
  asid  : BitVec 12
  ptbr  : Word
  kwin  : Vector Word 5
  tvec  : Word
  prv   : Priv
  deriving DecidableEq, Repr

/-- A KILL on its way to the target's spire (R150). -/
structure KillReq where
  killer : Nat
  gen    : BitVec 8
  asid   : BitVec 12
  prv    : Priv
  target : BitVec 24
  deriving DecidableEq, Repr

/-- An answer on its way to a parked sender: its identity, its generation and the status (R155, R150). -/
structure Answer where
  tid    : Nat
  gen    : BitVec 8
  status : Word
  deriving DecidableEq, Repr

/-- What the lantern holds for an absent thread (R159, R376): a message for its inbox, or the answer it awaits. -/
inductive Held where
  | msg (handle : BitVec 24) (w : Word)
  | answer (handle : BitVec 24) (status : Word)
  deriving DecidableEq, Repr

/-- One barrel core: handler ports 0 to 3, messages that wait at it, its instruction cache by physical line, the first cycle at
which it can grant another claim (R139). -/
structure Core where
  ports   : Vector (Option Binding) 4
  waiting : List Msg
  icache  : List (Nat × BitVec 512)
  claim   : Nat
  deriving DecidableEq, Repr

def Core.reset : Core := ⟨Vector.replicate 4 none, [], [], 0⟩

end Sys2Proof.Machine
end

