-- ==== Sys2Proof/Machine/FabricTypes.lean ====
section
/-! DEFINITION. The data of the anvil fabric: tokens, placed images, node state, regions, and the serve unit
(R205 to R227, R230 to R291, R379, R406 to R411). -/

namespace Sys2Proof.Machine

/-- The token kinds of R232. -/
inductive TKind where
  | data | endTile | endStream | control
  deriving DecidableEq, Repr

def TKind.code : TKind → Nat
  | .data => 0 | .endTile => 1 | .endStream => 2 | .control => 3

/-- A token (R232) without its parity bit, which is checked on entry to a queue (R235), with the cycle of its region's clock from
which it stands in its queue; before that it is on its way there (R236, R274). -/
structure Token where
  poison  : Bool
  tag     : BitVec 8
  dim     : Nat
  kind    : TKind
  valid   : BitVec 8
  payload : Word
  due     : Nat
  deriving DecidableEq, Repr

/-- A burst header's fields (R71). -/
structure Header where
  oxt   : Nat
  fmt   : Nat
  last  : Bool
  len   : Nat
  scale : Nat
  deriving DecidableEq, Repr

/-- A place in a region: site row and column relative to the origin, and the unit at the site: 0 a compute cell,
1 to 4 a memory slot, 5 to 12 an address-generator slot, 13 the ENTRY and 14 the RETURN of an entry–return slot (R231). -/
structure Site where
  row  : Nat
  col  : Nat
  unit : Nat
  deriving DecidableEq, Repr

/-- An input port of a place: 0 a, 1 b, 2 c, 3 ctl (R230). -/
structure PortId where
  site : Site
  port : Nat
  deriving DecidableEq, Repr

/-- A placed node (R242, R276): its word, its extension words, its place, arm and replication. -/
structure PNode where
  block : Nat
  idx   : Nat
  word  : BitVec 32
  exts  : List (BitVec 32)
  site  : Site
  arm   : Nat
  rep   : Nat
  deriving DecidableEq, Repr

/-- One enabled entry of a route word (R272). -/
structure Conn where
  row : Nat
  col : Nat
  src : Nat
  dst : Nat
  reg : Bool
  deriving DecidableEq, Repr

/-- A BINDING entry (R285) with the place of its ENTRY or RETURN node. -/
structure BindEntry where
  block : Nat
  node  : Nat
  dir   : Nat
  fmt   : Nat
  sink  : Bool
  site  : Site
  deriving DecidableEq, Repr

/-- One configuration plane: the image that a region holds (R283). -/
structure Plane where
  rows  : Nat
  cols  : Nat
  nargs : Nat
  nrets : Nat
  kind  : Nat
  nodes : List PNode
  conns : List Conn
  deriving DecidableEq, Repr

/-- An emission under way at a LOOPGEN or ADDRGEN (R261, R262): the value and index of the next emission. -/
structure Emit where
  base : Word
  step : Word
  i    : Nat
  n    : Nat
  dim  : Nat
  tag  : BitVec 8
  inDim : Nat
  poison : Bool
  done : Word
  void : Bool
  deriving DecidableEq, Repr

/-- The state a node keeps between firings: the latched header and the elements seen under it (R73, R75), AMAX and
NaN-seen with the candidates of each tag (R222, R251), an open record's choice (R252, R254), the record position, JOIN's
turn, RECIRC's count, an emission under way, COALESCE's lanes (R259), what each later firing emits by output (R250, R257). -/
structure NodeState where
  hdr    : Option Header
  seen   : Nat
  outl   : Bool
  badHdr : Bool
  amax   : BitVec 32
  nan    : Bool
  cands  : List (BitVec 8 × BitVec 32 × Bool)
  open_  : Option (Bool × Bool)
  pos    : Nat
  turn   : Bool
  unitOn : Option Bool
  count  : Int
  emit   : Option Emit
  lanes  : List (BitVec 64)
  ltag   : BitVec 8
  lpois  : Bool
  pend   : List (List (Nat × Token))
  deriving DecidableEq, Repr

def NodeState.fresh : NodeState where
  hdr := none
  seen := 0
  outl := false
  badHdr := false
  amax := 0
  nan := false
  cands := []
  open_ := none
  pos := 0
  turn := false
  unitOn := none
  count := 0
  emit := none
  lanes := []
  ltag := 0
  lpois := false
  pend := []

/-- A memory node's access under way (R263): its place, what it does, and whose record it serves; `dim` goes with the data,
`cdim` with the completion. -/
structure MemAcc where
  site   : Site
  store  : Bool
  tag    : BitVec 8
  dim    : Nat
  cdim   : Nat
  addr   : Word
  size   : Nat
  sext   : Bool
  data   : Word
  valid  : BitVec 8
  poison : Bool
  void   : Bool
  serial : Nat
  shadow : Bool
  deriving DecidableEq, Repr

/-- A fault recorded for a tag (R218, R239), with the TNODE of R220. -/
structure TagFault where
  tag   : BitVec 8
  cause : Cause
  sub   : Nat
  val   : Word
  tnode : Word
  deriving DecidableEq, Repr

/-- A record in flight (R213): its tag, the caller and its generation, and the caller's rights (R263). -/
structure Flight where
  tag    : BitVec 8
  tid    : Nat
  gen    : BitVec 8
  nrets  : Nat
  asid   : BitVec 12
  ptbr   : Word
  kwin   : Vector Word 5
  prv    : Priv
  deriving DecidableEq, Repr

/-- A descriptor of a BIND with its place in the port's work (R394). -/
structure BindDesc where
  entry : Nat
  base  : Word
  len   : Nat
  deriving DecidableEq, Repr

/-- An edge port bound by a BIND (R394): the BINDING entry, the descriptors still to be served, the tokens moved under the
first, whether a poisoned token closed it, whether its last descriptor has closed, whether a fault holds it (R396), whether a swap has
taken its slot (R437), whether the BIND names no descriptor for it. -/
structure BoundPort where
  entry  : Nat
  descs  : List BindDesc
  moved  : Nat
  closed : Bool
  ended  : Bool
  held   : Bool
  lost   : Bool
  bare   : Bool
  deriving DecidableEq, Repr

/-- A BIND in force in a stream region: its queue and packet index, its address space, its ports, its overflow count, the tags
of the poisoned tokens that it has reported. -/
structure BindState where
  queue  : Nat
  packet : Nat
  asid   : BitVec 12
  ptbr   : Word
  ports  : List BoundPort
  ovf    : Nat
  seen   : List (BitVec 8)
  deriving DecidableEq, Repr

/-- The states of regions (R206, R269, R295). -/
inductive RState where
  | empty | loading | placed | closing | swapping | busy | faulted | halted
  deriving DecidableEq, Repr

/-- The STATE codes of RSTAT (R291, R295); IDLE of a matrix region is EMPTY's code. -/
def RState.code : RState → Nat
  | .empty => 1 | .loading => 2 | .placed => 3 | .closing => 4 | .swapping => 5 | .busy => 6 | .faulted => 7 | .halted => 8

/-- A breakpoint (R408). -/
structure Breakpoint where
  en     : Bool
  action : Nat
  row    : Nat
  col    : Nat
  dst    : Nat
  target : BitVec 32
  count  : BitVec 32
  hit    : Bool
  deriving DecidableEq, Repr

def Breakpoint.reset : Breakpoint := ⟨false, 0, 0, 0, 0, 0, 0, false⟩

/-- The position latched at the first refusal (R291). -/
structure ViolPos where
  tag   : BitVec 8
  kind  : Nat
  track : Nat
  dir   : Nat
  row   : Nat
  col   : Nat
  deriving DecidableEq, Repr

/-- A cut (R410): its CUTID, its state code, whether it stops, the places that have passed the marker, and the RECIRC places
whose marker has still to return. -/
structure Cut where
  id     : BitVec 16
  state  : Nat
  stop   : Bool
  passed : List Site
  loops  : List Site
  deriving DecidableEq, Repr

/-- How far the running operation has read its stream (R299): whether a load in force is read again (R314), the next word's
address, columns or vectors read, elements of the present one, the block's header and its address, its elements still to come,
whether it has had its outlier, the elements decoded, whether a vector waits for its row to drain. -/
structure MatRun where
  op      : MatOp
  again   : Bool
  next    : Word
  unit    : Nat
  have_   : Nat
  hdr     : Header
  left    : Nat
  had     : Bool
  elems   : List FVal
  done    : Bool
  deriving DecidableEq, Repr

/-- Weights in force: their shape, their stream address, their metadata, and the columns, K values each, none where a sparse
load omits one (R302, R303). -/
structure Weights where
  shape : TileShape
  addr  : Word
  md    : List Byte
  cols  : List (Option FVal)
  deriving DecidableEq, Repr

/-- The matrix side of a kind-2 region (R296 to R315). -/
structure Matrix where
  owner  : Option (BitVec 24)
  asid   : BitVec 12
  ptbr   : Word
  kwin   : Vector Word 5
  prv    : Priv
  shape  : Option TileShape
  drain  : Option (Word × Word)
  queue  : List MatOp
  run    : Option MatRun
  weights : Option Weights
  frow   : Nat
  fcause : Nat
  ftsub  : Nat
  faddr  : Word
  qdup   : Bool
  reload : Bool
  closing : Bool
  deriving DecidableEq, Repr

def Matrix.reset : Matrix where
  owner := none
  asid := 0
  ptbr := 0
  kwin := Vector.replicate 5 0
  prv := .user
  shape := none
  drain := none
  queue := []
  run := none
  weights := none
  frow := 0
  fcause := 0
  ftsub := 0
  faddr := 0
  qdup := false
  reload := false
  closing := false

/-- What a token on its way over an edge comes to at a cycle (R236, R274, R279, R409): a link that it is delivered to, the end of a
segment where it is discarded, or the border. -/
inductive Arrival where
  | link (row col dst : Nat)
  | dropped
  | refused (row col track dir : Nat) (node : Word)
  deriving DecidableEq, Repr

/-- An arrival that a region's clock has still to reach. -/
structure Crossing where
  due : Nat
  what : Arrival
  tok : Token
  deriving DecidableEq, Repr

/-- Where an edge ends (R274, R279). -/
inductive EdgeEnd where
  | port (p : PortId)
  | refused (row col track dir : Nat)
  | dropped
  deriving DecidableEq, Repr

/-- A token sent on an output of a node, and the rest of its way: the links still to be crossed and what they end at, from the
clock at which it reaches the first of them on (R274, R288); `name` is the TNODE of its producer (R220). -/
structure Transit where
  site  : Site
  arm   : Nat
  out   : Nat
  tok   : Token
  name  : Word
  hops  : List (Nat × Nat × Nat)
  stop  : EdgeEnd
  reach : Nat
  deriving DecidableEq, Repr

/-- A region of a spire's table (R268): geometry, kind, state, planes, queues, registers. `queues` holds the active plane's
tokens, `squeues` the shadow plane's (R288); `written` lists the sites whose shadow plane is written, `swapped` the places that
have swapped, `passed` those that send their end-of-stream and have still to swap, and `sentEnd` the clocks at which places fired
theirs (R286 to R288); `casid`, `cptbr` and
`cprv` are the rights under which a stream configuration's memory nodes access memory (R263); `fired` lists the cells and
slots that have fired in the present cycle (R406), `spent` the places that have done in it what they may (R236, R238), and `clock`
counts the cycles in which the region's places could fire (R236); `sent` holds the last clocks at which long edges took tokens, by
the ports they end at (R275), `crossings` what tokens on their way have still to meet, and `stalled` the tokens of the shadow plane
that wait for a segment or a port of the active plane (R288). -/
structure Region where
  orow     : Nat
  ocol     : Nat
  rows     : Nat
  cols     : Nat
  kind     : Nat
  asid     : BitVec 12
  eq       : Nat
  st       : RState
  imgAsid  : BitVec 12
  imgAddr  : Word
  active   : Option Plane
  shadow   : Option Plane
  written  : List (Nat × Nat)
  swapped  : List Site
  passed   : List Site
  sentEnd  : List (Site × Nat)
  queues   : List (PortId × List Token)
  squeues  : List (PortId × List Token)
  nodes    : List ((Site × Nat) × NodeState)
  snodes   : List ((Site × Nat) × NodeState)
  accs     : List MemAcc
  flights  : List Flight
  waiting  : List Nat
  reserved : Option Nat
  rets     : List (BitVec 8 × List Token)
  faults   : List TagFault
  faultCount : Nat
  parity   : List PortId
  refused  : BitVec 32
  viol     : Option ViolPos
  dropped  : BitVec 32
  ovdrop   : BitVec 32
  halt     : Bool
  quiet    : Bool
  cut      : Cut
  bks      : Vector Breakpoint 4
  entries  : List BindEntry
  binds    : List BindState
  sinkEos  : List (Nat × Nat)
  eosTaken : Nat
  casid    : BitVec 12
  cptbr    : Word
  cprv     : Priv
  fired    : List Site
  spent    : List Site
  sent     : List (PortId × List Nat)
  crossings : List Crossing
  stalled  : List Transit
  clock    : Nat
  matrix   : Matrix
  deriving DecidableEq, Repr

def Region.create (orow ocol rows cols kind : Nat) (asid : BitVec 12) (eq : Nat) : Region where
  orow := orow
  ocol := ocol
  rows := rows
  cols := cols
  kind := kind
  asid := asid
  eq := eq
  st := .empty
  imgAsid := 0
  imgAddr := 0
  active := none
  shadow := none
  written := []
  swapped := []
  passed := []
  sentEnd := []
  queues := []
  squeues := []
  nodes := []
  snodes := []
  accs := []
  flights := []
  waiting := []
  reserved := none
  rets := []
  faults := []
  faultCount := 0
  parity := []
  refused := 0
  viol := none
  dropped := 0
  ovdrop := 0
  halt := false
  quiet := false
  cut := ⟨0, 0, false, [], []⟩
  bks := Vector.replicate 4 Breakpoint.reset
  entries := []
  binds := []
  sinkEos := []
  eosTaken := 0
  casid := 0
  cptbr := 0
  cprv := .user
  fired := []
  spent := []
  sent := []
  crossings := []
  stalled := []
  clock := 0
  matrix := Matrix.reset

/-- An image in the hearth (R205, R208): its bytes and its pins. -/
structure Image where
  asid  : BitVec 12
  addr  : Word
  bytes : List Byte
  pins  : Nat
  deriving DecidableEq, Repr

/-- When an image was last used, and last called, in a spire's count of its uses (R207, R208). -/
structure Naming where
  asid   : BitVec 12
  addr   : Word
  used   : Nat
  called : Nat
  deriving DecidableEq, Repr

/-- A waiting call of the placement queue (R214): the image, the caller if any, its place in the order of issue. -/
structure Place where
  asid  : BitVec 12
  addr  : Word
  ptbr  : Word
  kwin  : Vector Word 5
  prv   : Priv
  tid   : Option Nat
  seq   : Nat
  deriving DecidableEq, Repr

/-- A return redirect (R225): the tag and region of the record, the handle, the physical key of the return block. -/
structure Redirect where
  tag    : BitVec 8
  region : Nat
  handle : BitVec 24
  block  : Nat
  deriving DecidableEq, Repr

/-- One participant of a collective (R191, R192): its handle, the kind, its operands and destination. -/
structure Part where
  who  : BitVec 24
  kind : Nat
  v    : Word
  dv   : Word
  d    : Reg
  deriving DecidableEq, Repr

/-- A pending instance (R191): its kind, its wait set, who has issued. -/
structure Collective where
  kind  : Nat
  wait  : List (BitVec 24)
  parts : List Part
  deriving DecidableEq, Repr

/-- A group (R188): members by handle with their indices, the pending instance, issues held for the next. -/
structure Group where
  asid    : BitVec 12
  members : List (BitVec 24 × Nat)
  inst    : Option Collective
  held    : List Part
  deriving DecidableEq, Repr

/-- One sector of the spire cache (R19, R165): 32 bytes, which words it has, which words are to be written back. -/
structure Sector where
  data  : BitVec 256
  have_ : BitVec 8
  dirty : BitVec 8
  deriving DecidableEq, Repr

/-- A translation (R367, R370): page base and log2 of its size, the leaf's attributes. -/
structure TlbEntry where
  asid : BitVec 12
  glob : Bool
  va   : Nat
  log  : Nat
  pa   : Nat
  r    : Bool
  w    : Bool
  x    : Bool
  u    : Bool
  pres : Bool
  once : Bool
  deriving DecidableEq, Repr

/-- A page that an engine of a spire missed at a cycle while 64 walks were in flight (R370). -/
structure PageMiss where
  asid   : BitVec 12
  ptbr   : Word
  va     : Nat
  missed : Nat
  deriving DecidableEq, Repr

/-- Where a copy stands in its channel (R318, R331). -/
inductive CopyState where
  | queued | landing | signal | frozen | aborted
  deriving DecidableEq, Repr

/-- Who issued a copy: a thread by its handle, or the command of a queue (R317, R400). -/
inductive Issuer where
  | thread (handle : BitVec 24)
  | command (queue packet : Nat)
  deriving DecidableEq, Repr

/-- A copy (R317 to R324): shape, ends, signal, issuer and address space; the next element; its watermark; the bytes read for a port
and not yet emitted; whether a byte of its window has landed in host or peer memory (R336). -/
structure CopyEntry where
  shape  : CopyShape
  src    : Word
  dst    : Word
  sig    : Word
  issuer : Issuer
  asid   : BitVec 12
  ptbr   : Word
  kwin   : Vector Word 5
  prv    : Priv
  port   : Option CopyPort
  st     : CopyState
  next   : Nat
  wm     : BitVec 48
  seq    : Nat
  hold   : List Byte
  serial : Nat
  far    : Bool
  deriving DecidableEq, Repr

/-- A channel of the tongs (R317, R333). -/
structure Channel where
  shape  : CopyShape
  owner  : Option (BitVec 24)
  queue  : List CopyEntry
  wm     : BitVec 48
  fcause : Nat
  ftsub  : Nat
  side   : Nat
  faddr  : Word
  deriving DecidableEq, Repr

def Channel.reset : Channel := ⟨CopyShape.reset, none, [], 0, 0, 0, 0, 0⟩

/-- The states of a crucible context (R338). -/
inductive CtxState where
  | free | open_ | final | frozen | setop
  deriving DecidableEq, Repr

def CtxState.code : CtxState → Nat
  | .free => 0 | .open_ => 1 | .final => 2 | .frozen => 3 | .setop => 4

/-- A stream of a context (R344): where its array is, elements read, whether it is a run and its header read; elements read
and not yet taken, with their values in the accumulator format. -/
structure Stream where
  base  : Word
  count : Nat
  pos   : Nat
  run   : Bool
  hdr   : Bool
  items : List (Nat × Nat)
  deriving DecidableEq, Repr

/-- An entry of the merge buffer: its key, its value in the accumulator format, the stream it came from (R87, R347). -/
structure BufItem where
  key    : Nat
  val    : Nat
  stream : Nat
  deriving DecidableEq, Repr

/-- The output descriptor of R350. -/
structure OutDesc where
  form  : Nat
  kbase : Word
  vbase : Word
  rbase : Word
  limit : Nat
  row0  : Nat
  nrows : Nat
  deriving DecidableEq, Repr

/-- A set operation (R352): its funct (6 XSECT, 7 XUNION, 8 XCNT), its lists and outputs; the positions reached, the heads
read, the keys before them, the number of results, whether the present result's key is written. -/
structure SetOp where
  kind  : Nat
  pbase : Word
  pcnt  : Nat
  qbase : Word
  qcnt  : Nat
  outk  : Word
  outi  : Word
  ip    : Nat
  iq    : Nat
  hp    : Option Word
  hq    : Option Word
  prevP : Option Word
  prevQ : Option Word
  n     : Nat
  half  : Bool
  deriving DecidableEq, Repr

/-- What an MFIN has merged (R350, R351): the in-range distinct keys with their sums, and whether a key was out of range. -/
structure Merged where
  sums  : List (Nat × Nat)
  out   : Bool
  deriving DecidableEq, Repr

/-- A crucible context (R338 to R355). `runList` holds the address and count of each spilled run; `spilling` is set while a
spill is under way; `back` holds the partial sums read back from runs; `merged` what is being written out; `wrote` the number
of writes the step in progress has made. -/
structure Context where
  st      : CtxState
  kept    : CtxState
  owner   : Option (BitVec 24)
  asid    : BitVec 12
  ptbr    : Word
  kwin    : Vector Word 5
  prv     : Priv
  mode    : Bool
  vfmt    : Nat
  cap     : Nat
  buffer  : List BufItem
  streams : Vector (Option Stream) 16
  runList : List (Nat × Nat)
  spilling : Bool
  spbase  : Word
  spnext  : Word
  splimit : Word
  sat     : Bool
  ovr     : Bool
  rng     : Bool
  outcnt  : Word
  ftsub   : Word
  faddr   : Word
  desc    : Option OutDesc
  back    : List (Nat × Nat)
  merged  : Option Merged
  wrote   : Nat
  setop   : Option SetOp
  deriving DecidableEq, Repr

def Context.reset : Context where
  st := .free
  kept := .free
  owner := none
  asid := 0
  ptbr := 0
  kwin := Vector.replicate 5 0
  prv := .user
  mode := false
  vfmt := 0
  cap := 0
  buffer := []
  streams := Vector.replicate 16 none
  runList := []
  spilling := false
  spbase := 0
  spnext := 0
  splimit := 0
  sat := false
  ovr := false
  rng := false
  outcnt := 0
  ftsub := 0
  faddr := 0
  desc := none
  back := []
  merged := none
  wrote := 0
  setop := none

/-- A trace record (R417). -/
structure TraceRec where
  kind   : Nat
  sub    : Nat
  source : BitVec 32
  time   : Word
  data0  : Word
  data1  : Word
  deriving DecidableEq, Repr

/-- The counters of a site (R407): nine live, nine latched; MISALIGN; INTV; the island cycle at which the present interval
began and the slots that the site counts over, if an interval runs; the snapshot doublewords of R415. LIVE8 is what the other
classes leave of the interval. -/
structure SiteCount where
  live  : Vector (BitVec 48) 9
  last  : Vector (BitVec 48) 9
  misalign : BitVec 32
  intv  : BitVec 32
  since : Option (Nat × Nat)
  snap  : List (Nat × Word)
  deriving DecidableEq, Repr

def SiteCount.reset : SiteCount := ⟨Vector.replicate 9 0, Vector.replicate 9 0, 0, 0, none, []⟩

/-- The debug block of a spire (R416), its trace FIFO, and the cycle at which an armed snapshot latches (R414). -/
structure Debug where
  trctl  : BitVec 3
  trbase : Word
  trsize : Nat
  trw    : BitVec 32
  trr    : BitVec 32
  trdly  : BitVec 48
  lostGate : BitVec 32
  lostFull : BitVec 32
  msgstale : BitVec 32
  seq    : BitVec 16
  missed : BitVec 16
  arm    : Bool
  latchAt : Option Nat
  slotsnap : List (Nat × Word)
  chsnap : List (Nat × Word)
  mcsnap : List (Nat × Word)
  fifo   : List TraceRec
  deriving DecidableEq, Repr

def Debug.reset : Debug where
  trctl := 0
  trbase := 0
  trsize := 6
  trw := 0
  trr := 0
  trdly := 0
  lostGate := 0
  lostFull := 0
  msgstale := 0
  seq := 0
  missed := 0
  arm := false
  latchAt := none
  slotsnap := []
  chsnap := []
  mcsnap := []
  fifo := []

/-- One spire (R19): cache sectors by physical sector number, translations, wait lists in joining order (list number and
identity, R132), groups, hearth, placement queue, redirects, regions, channels, contexts, debug block, site counters by
(anvil, row, column) number. -/
structure Spire where
  cache    : List (Nat × Sector)
  tlb      : List TlbEntry
  misses   : List PageMiss
  groups   : List (Nat × Group)
  hearth   : List Image
  uses     : Nat
  named    : List Naming
  places   : List Place
  redirects : List Redirect
  regions  : List (Nat × Region)
  channels : Vector Channel 16
  copySeq  : Nat
  /-- The channel that landed last (R337). -/
  lastCh   : Nat
  ctxs     : Vector Context 2
  dbg      : Debug
  sites    : List (Nat × SiteCount)
  deriving DecidableEq, Repr

def Spire.reset : Spire where
  cache := []
  tlb := []
  misses := []
  groups := []
  hearth := []
  uses := 0
  named := []
  places := []
  redirects := []
  regions := []
  channels := Vector.replicate 16 Channel.reset
  copySeq := 0
  lastCh := 15
  ctxs := Vector.replicate 2 Context.reset
  dbg   := Debug.reset
  sites := []

end Sys2Proof.Machine
end

