-- ==== Sys2Proof/Machine/LanternTypes.lean ====
section
/-! DEFINITION. The data of the lantern, the host's queues, the peers, power and reliability
(R34, R62, R159, R383 to R405, R419 to R430). -/

namespace Sys2Proof.Machine

/-- An event record (R401); `sub` is the TSUB that a DOUBLE_TRAP carries to the lantern (R362), for which a record has no place. -/
structure EvRec where
  kind  : Nat
  queue : Nat
  die   : Nat
  code  : Nat
  id    : Word
  info0 : Word
  info1 : Word
  sub   : Word
  deriving DecidableEq, Repr

/-- A sequencing step (R62), with its first eight bytes as an event reports them (R401). -/
structure SeqStep where
  op     : Nat
  region : Nat
  cond   : Nat
  arg0   : Nat
  arg1   : Word
  first  : Word
  deriving DecidableEq, Repr

/-- A CONFIG section of an object with its BINDING entries (R283, R285): its address, its bytes, its plane. -/
structure Section where
  idx   : Nat
  addr  : Word
  bytes : List Byte
  plane : Plane
  binds : List BindEntry
  deriving DecidableEq, Repr

/-- What a started command is doing (R387, R389). -/
inductive CmdWork where
  /-- The next ordinal to place, how many threads have exited, the argument registers, none until they are read (R391 to
  R393). -/
  | launch (placed exited : Nat) (args : List Word)
  | bind (spire region : Nat)
  | wait
  | signal
  /-- The sections of the object, its program, the next step, the region map, none until they are read (R398). -/
  | load (sections : List Section) (prog : List SeqStep) (at_ : Nat) (map : List (Nat × Nat))
  /-- The region, none until the map is read (R398). -/
  | unload (target : Option (Nat × Nat)) (force : Bool)
  | region
  /-- The number of its copy in the spire's issue sequence, none until it is issued (R400). -/
  | copy (spire ch : Nat) (seq : Option Nat)
  | fence
  deriving DecidableEq, Repr

/-- A started command: its packet index and words; whether it is stalled on a fault (R396); done, with the code of its
CMD_ERROR event if it ends with one, and whether its completion signal has been made by its copy (R400). -/
structure Cmd where
  idx     : BitVec 32
  words   : Vector Word 8
  work    : CmdWork
  stalled : Option Flt
  done    : Bool
  sigDone : Bool
  deriving DecidableEq, Repr

/-- A host command queue (R385) with its started commands. -/
structure Queue where
  qbase  : Word
  asid   : BitVec 12
  msix   : BitVec 6
  log2n  : Nat
  prio   : BitVec 2
  loc    : Bool
  privk  : Bool
  en     : Bool
  ptbr   : Word
  widx   : BitVec 32
  ridx   : BitVec 32
  code   : BitVec 8
  err    : Bool
  overrun : Bool
  evbase : Word
  evloc  : Bool
  evlog  : Nat
  evw    : BitVec 32
  evr    : BitVec 32
  cmds   : List Cmd
  deriving DecidableEq, Repr

/-- R385's reset values. -/
def Queue.reset : Queue where
  qbase := 0
  asid := 0
  msix := 0
  log2n := 4
  prio := 0
  loc := false
  privk := false
  en := false
  ptbr := 0
  widx := 0
  ridx := 0
  code := 0
  err := false
  overrun := false
  evbase := 0
  evloc := false
  evlog := 4
  evw := 0
  evr := 0
  cmds := []

/-- An entry of the absent-thread table (R159, R375): a handle, the LAUNCH that placed its thread (R393), the statuses of its
SENDs that have been decided since it was swapped out (R156), and the key of its saved image once that is written (R354). -/
structure Absent where
  handle : BitVec 24
  launch : Option (Nat × Nat)
  sends  : List Nat
  area   : Option Nat
  deriving DecidableEq, Repr

/-- A die's lantern and register block, with the firmware that runs (R402, R159, R375, R392, R427 to R429). -/
structure Die where
  evq     : BitVec 6
  evlost  : BitVec 32
  held    : List EvRec
  peers   : Vector (Bool × Nat) 32
  pinBase : Vector Word 32
  pinLim  : Vector Word 32
  absent  : List Absent
  holding : List Held
  fifo    : List (Nat × BitVec 32)
  served  : Option Nat
  dome    : Nat
  booted  : Bool
  recStep : BitVec 8
  recCause : BitVec 8
  attAddr : Word
  attStat : Nat
  attBusy : Bool
  attAt   : Nat
  attNonce : List Byte
  firmware : List Byte
  deriving DecidableEq, Repr

def Die.reset : Die where
  evq := 0
  evlost := 0
  held := []
  peers := Vector.replicate 32 (false, 0)
  pinBase := Vector.replicate 32 0
  pinLim := Vector.replicate 32 0
  absent := []
  holding := []
  fifo := []
  served := none
  dome := 6
  booted := false
  recStep := 0
  recCause := 0
  attAddr := 0
  attStat := 0
  attBusy := false
  attAt := 0
  attNonce := []
  firmware := []

/-- An island (R419): requested and current power, levels, the forced mark, the hottest sensor; its cycle count `cyc` when
its level last changed, at package cycle `since` (R141); `hot` from a temperature of 100 °C to one below 95 °C (R421). -/
structure Island where
  on     : Bool
  st     : Nat
  vfcur  : Nat
  vfreq  : Nat
  forced : Bool
  temp   : BitVec 8
  cyc    : Nat
  since  : Nat
  hot    : Bool
  deriving DecidableEq, Repr

def Island.reset : Island := ⟨false, 0, 0, 0, false, 0, 0, 0, false⟩

/-- Corrected errors of a structure in the window `win` of its island's clock, whether it is marked lasting (R423), whether a spare replaced it (R424). -/
structure Ecc where
  cls     : Nat
  id      : Nat
  count   : Nat
  lasting : Bool
  spared  : Bool
  win     : Nat
  deriving DecidableEq, Repr

/-- What a peer asks for (R403, R405): the byte address; bytes to write, an atomic or a sync-word operation. -/
structure PeerReq where
  peer : Nat
  key  : Nat
  data : List Byte
  amo  : Option AmoReq
  sync : Option SyncReq
  deriving DecidableEq, Repr

/-- What leaves to a peer (R404): bytes or an operation at a peer key, by port; `posted` while its acknowledgement has still to
come (R181). -/
structure PeerOut where
  port : Nat
  key  : Nat
  data : List Byte
  amo  : Option AmoReq
  sync : Option SyncReq
  posted : Bool
  deriving DecidableEq, Repr

/-- What boots a die (R426 to R428): the firmware image with its version, its public key and its signature; whether the other steps
succeed, the failing one and the cause otherwise; the steps of dome memory made addressable, the islands that the firmware names. -/
structure Boot where
  image   : List Byte
  version : BitVec 32
  key     : List Byte
  sig     : List Byte
  ok      : Bool
  step    : BitVec 8
  cause   : BitVec 8
  dome    : Nat
  islands : List Nat
  deriving DecidableEq, Repr

end Sys2Proof.Machine
end

