-- ==== Sys2Proof/Machine/Table.lean ====
section
/-! DEFINITION. Sparse tables: lists of (key, value) pairs with rising keys. -/

namespace Sys2Proof.Machine

/-- The value a table holds for a key. -/
def tget {α : Type} (k : Nat) : List (Nat × α) → Option α
  | [] => none
  | (j, v) :: rest => if j = k then some v else tget k rest

/-- The table with a key's value set: replaced where the key stands, else inserted before the first greater key. -/
def tset {α : Type} (k : Nat) (v : α) : List (Nat × α) → List (Nat × α)
  | [] => [(k, v)]
  | (j, w) :: rest => if j = k then (k, v) :: rest else if k < j then (k, v) :: (j, w) :: rest else (j, w) :: tset k v rest

/-- The table without a key. -/
def tdel {α : Type} (k : Nat) : List (Nat × α) → List (Nat × α)
  | [] => []
  | (j, w) :: rest => if j = k then rest else (j, w) :: tdel k rest

/-- Keys strictly rise from `lo`. -/
def risingFrom {α : Type} : Nat → List (Nat × α) → Bool
  | _, [] => true
  | lo, (j, _) :: rest => decide (lo ≤ j) && risingFrom (j + 1) rest

/-- A list with the entry at an index replaced; unchanged where the index is outside. -/
def lset {α : Type} : List α → Nat → α → List α
  | [], _, _ => []
  | _ :: rest, 0, v => v :: rest
  | w :: rest, n + 1, v => w :: lset rest n v

/-- A list without the entry at an index. -/
def ldel {α : Type} : List α → Nat → List α
  | [], _ => []
  | _ :: rest, 0 => rest
  | w :: rest, n + 1 => w :: ldel rest n

/-- An entry placed in a list by its key, behind those of the same key. -/
def linsert {α : Type} (f : α → Nat) (v : α) : List α → List α
  | [] => [v]
  | w :: rest => if f v < f w then v :: w :: rest else w :: linsert f v rest

/-- A list in rising order of keys; entries of one key keep their order. -/
def lsort {α : Type} (f : α → Nat) (l : List α) : List α := l.foldl (fun r v => linsert f v r) []

/-- The index of the first entry that satisfies a test. -/
def lfind {α : Type} (f : α → Bool) : List α → Option Nat
  | [] => none
  | w :: rest => if f w then some 0 else (lfind f rest).map (· + 1)

end Sys2Proof.Machine
end

