-- ==== Sys2Proof/Machine/State.lean ====
section
/-! DEFINITION. The state of the whole package as plain data, the faults and refusals of a step, and the state after reset.
Each field names the rule that gives it; the inventory lists them with their reset values. -/

namespace Sys2Proof.Machine

/-- What acts next (log 4): a thread at its issue cycle, a node of a region, one of the machine's own steps, or an input
from outside the modelled machine. -/
inductive Action where
  /-- The slot of an identity at its issue cycle (R127). -/
  | issue (tid : Nat)
  /-- The node of an arm at a place of a region (R236). -/
  | fire (spire region : Nat) (site : Site) (arm : Nat)
  /-- A step the machine takes on its own, or a register write by the host. -/
  | event (i : Instr)
  /-- The host writes bytes of its own memory. -/
  | hostWrite (key : Nat) (data : List Byte)
  /-- The host writes bytes, and reads as many, at an offset of BAR0 (R384). -/
  | barWrite (offset : Nat) (data : List Byte)
  | barRead (offset n : Nat)
  /-- An access arrives at a peer port (R404). -/
  | peerArrives (r : PeerReq)
  /-- The peer acknowledges the oldest access on its way to it (R181, R404). -/
  | peerAck
  /-- The messages on their way, from a place in their order on, reach their destinations (R139, R154). -/
  | messages (n : Nat)
  /-- The waiters of a list retry, a word of theirs having changed (R132). -/
  | retryList (list : Nat)
  /-- A page walk that an engine of a spire waits for ends (R370). -/
  | engineWalk (spire : Nat)
  /-- A line leaves a spire's cache, a translation its TLB, a line a core's instruction cache (log 7). -/
  | evict (spire line : Nat)
  | tlbEvict (spire idx : Nat)
  | icacheEvict (core line : Nat)
  /-- The hottest sensor of an island reads a temperature (R419). -/
  | sensor (island : Nat) (temp : BitVec 8)
  /-- A structure corrects an error (R423). -/
  | corrected (cls id : Nat)
  /-- The next token that enters a queue fails its parity check (R235). -/
  | parity (spire region : Nat) (port : PortId)
  /-- A cycle of the fabric (R236). -/
  | cycle
  /-- The classes of a cycle's places (R406). -/
  | sample
  /-- What the next package reset of a die finds (R426). -/
  | bootPlan (die : Nat) (b : Boot)
  deriving DecidableEq, Repr

/-- The fabric place that fires: spire, region, site and arm. -/
structure Firing where
  spire  : Nat
  region : Nat
  site   : Site
  arm    : Nat
  deriving DecidableEq, Repr

/-- The state of the package. -/
structure State where
  /-- Cycles of 0.8 ns since package reset (R17, R141). -/
  now      : Nat
  /-- The place in the present turn: the first phase whose issue cycle has not come (R127; log 4). -/
  cursor   : Nat
  /-- The thread that executes (log 4). -/
  tid      : Nat
  /-- The fabric place that fires (log 4). -/
  site     : Firing
  /-- What acts next, before the turn's own order goes on (log 4). -/
  agenda   : List Action
  /-- The number of free values drawn (log 3). -/
  fresh    : Nat
  /-- The number of accesses made (R371). -/
  serial   : Nat
  /-- Memory by byte key (R32, R29): physical bytes at their address, keep bytes from 2^48 (log 1). -/
  mem      : List Host.Cell
  /-- The words whose full/empty bit is full (R172), by key ÷ 8, rising. -/
  full     : List Nat
  /-- Wait lists (R132): list number and waiting identity, in joining order. -/
  waits    : List (Nat × Nat)
  /-- Thread slots by identity (R6, R124); a slot not listed is at its reset. -/
  slots    : List (Nat × Slot)
  /-- Cores by global spire × 16 + core (R144, R153, R157). -/
  cores    : List (Nat × Core)
  /-- Spires by global number (R19). -/
  spires   : List (Nat × Spire)
  /-- Messages on their way (R153), in the order they were sent. -/
  net      : List Msg
  /-- Kill requests on their way (R150). -/
  kills    : List KillReq
  /-- Answers on their way back (R155). -/
  answers  : List Answer
  /-- The two dies' lanterns (R402). -/
  die0     : Die
  die1     : Die
  /-- Host command queues by number (R385). -/
  queues   : List (Nat × Queue)
  /-- MSI-X vectors raised and not yet taken by the host (R397). -/
  msix     : List Nat
  /-- What the host's last read through BAR0 gave (R384; log 90). -/
  barData  : List Byte
  /-- Whether the link of each peer port is up (R403). -/
  links    : Vector Bool 12
  /-- Accesses that have arrived from peers (R405), and what is on its way to peers (R404). -/
  peerIn   : List PeerReq
  peerOut  : List PeerOut
  /-- Power islands (R34, R419). -/
  islands  : List (Nat × Island)
  /-- Corrected-error counts and lasting marks (R423). -/
  ecc      : List Ecc
  /-- Bytes whose next read meets an uncorrectable error (R425). -/
  bad      : List Nat
  /-- What the next reset of each die finds (R426). -/
  boots    : List (Nat × Boot)
  /-- The next leaf of the device's identity key (R430). -/
  leaf     : Nat
  /-- The cycle until which DBGOUT is driven high (R414). -/
  dbgout   : Nat
  /-- The cycles of the last common triggers: triggers of one cycle are one (R414). -/
  trig     : List Nat
  deriving DecidableEq, Repr

/-- Why a step stops. -/
inductive Fault where
  /-- The agenda names as an event an instruction that only a thread or a node executes; raised by the step. Safe: the
  hardware has no such case. -/
  | notAnEvent
  deriving DecidableEq, Repr

/-- Why a step is refused. -/
inductive Refusal where
  /-- An instruction without a meaning in this model; raised by the dispatch. Safe. -/
  | notModelled (mnemonic : String)
  deriving DecidableEq, Repr

/-- The package right after reset: every table empty, so every slot, core, spire, queue and island is at its own reset
value; memory lists nothing (log 1, log 2, log 5). (log 2: DESIGN CHOICE.) -/
def State.reset : State where
  now := 0
  cursor := 0
  tid := 0
  site := ⟨0, 0, ⟨0, 0, 0⟩, 0⟩
  agenda := []
  fresh := 0
  serial := 0
  mem := []
  full := []
  waits := []
  slots := []
  cores := []
  spires := []
  net := []
  kills := []
  answers := []
  die0 := Die.reset
  die1 := Die.reset
  queues := []
  msix := []
  barData := []
  links := Vector.replicate 12 false
  peerIn := []
  peerOut := []
  islands := []
  ecc := []
  bad := []
  boots := []
  leaf := 0
  dbgout := 0
  trig := []

end Sys2Proof.Machine
end

