-- ==== Sys2Proof/Machine/Memory.lean ====
section
/-! DEFINITION. Memory as one canonical list of bytes, its full/empty bits, the physical map, and the spire caches between a
spire and the homes (R2, R29 to R33, R163, R165, R166, R172). -/

namespace Sys2Proof.Machine

/-- What an unlisted byte reads as (log 1; R172 gives it for keeps and dome memory). (log 1: DESIGN CHOICE.) -/
def unlistedByte : Byte := 0

/-- The byte at a key. -/
def memGet (k : Nat) : List Host.Cell → Byte
  | [] => unlistedByte
  | (j, b) :: rest => if j = k then b else memGet k rest

/-- The memory with a byte written; an entry that would equal what an unlisted byte reads as is removed. -/
def memSet (k : Nat) (b : Byte) : List Host.Cell → List Host.Cell
  | [] => if b = unlistedByte then [] else [(k, b)]
  | (j, c) :: rest =>
    if j = k then (if b = unlistedByte then rest.filter (fun e => decide (e.1 ≠ k)) else (k, b) :: rest)
    else if k < j then (if b = unlistedByte then (j, c) :: rest.filter (fun e => decide (e.1 ≠ k)) else (k, b) :: (j, c) :: rest)
    else (j, c) :: memSet k b rest

/-- The canonical form from a least key: addresses strictly rise and no entry equals what an unlisted byte reads as. -/
def Memory.wfFrom : Nat → List Host.Cell → Bool
  | _, [] => true
  | lo, (j, b) :: rest => decide (lo ≤ j) && decide (b ≠ unlistedByte) && Memory.wfFrom (j + 1) rest

/-- The canonical form of memory. -/
def Memory.wf (m : List Host.Cell) : Bool := Memory.wfFrom 0 m

/-- `n` bytes from a key upward. -/
def memRead (k : Nat) : Nat → List Host.Cell → List Byte
  | 0, _ => []
  | n + 1, m => memGet k m :: memRead (k + 1) n m

/-- Bytes written from a key upward. -/
def memWrite (k : Nat) : List Byte → List Host.Cell → List Host.Cell
  | [], m => m
  | b :: bs, m => memWrite (k + 1) bs (memSet k b m)

/-- Bytes as a number, the first the least significant (R2). -/
def leNat : List Byte → Nat
  | [] => 0
  | b :: bs => b.toNat + 256 * leNat bs

/-- The low `n` bytes of a number, least significant first (R2). -/
def leBytes : Nat → Nat → List Byte
  | 0, _ => []
  | n + 1, v => BitVec.ofNat 8 v :: leBytes n (v / 256)

/-- Membership in a rising list of numbers. -/
def natIn (k : Nat) : List Nat → Bool
  | [] => false
  | j :: rest => if j = k then true else natIn k rest

/-- Insertion into a rising list of numbers. -/
def natAdd (k : Nat) : List Nat → List Nat
  | [] => [k]
  | j :: rest => if j = k then j :: rest else if k < j then k :: j :: rest else j :: natAdd k rest

/-- Removal from a list of numbers. -/
def natDel (k : Nat) : List Nat → List Nat
  | [] => []
  | j :: rest => if j = k then rest else j :: natDel k rest

/-- The byte key of offset `o` in the keep of global spire `g` (R29): keeps stand above the physical addresses. -/
def keepKey (g o : Nat) : Nat := 281474976710656 + g * 4194304 + o

/-- Where a byte key is held (R32, R163). -/
inductive Home where
  | keep (g o : Nat)
  | lpddr (die : Nat)
  | dome (die : Nat)
  | device
  | host
  | peer (p : Nat)
  | unbacked
  deriving DecidableEq, Repr

/-- A die's register state. -/
def State.die (s : State) (d : Nat) : Die := if d = 0 then s.die0 else s.die1

def State.setDie (d : Nat) (v : Die) (s : State) : State :=
  if d = 0 then { s with die0 := v } else { s with die1 := v }

/-- A peer is reachable when its entry is valid and its port's link is up (R403); die 0's copy governs. -/
def State.peerUp (s : State) (p : Nat) : Bool :=
  let e := s.die0.peers[p % 32]'(Nat.mod_lt _ (by decide))
  e.1 && s.links[e.2 % 12]'(Nat.mod_lt _ (by decide))

/-- The LPDDR 5X channel, of its die, that holds a byte (R33). -/
def lpddrChannel (k : Nat) : Nat := k / 256 % 64

/-- The home of a byte key (R29, R32). -/
def State.home (s : State) (k : Nat) : Home :=
  if 281474976710656 ≤ k then
    let r := k - 281474976710656
    if r / 4194304 < 160 ∧ r % 4194304 < 3145728 then .keep (r / 4194304) (r % 4194304) else .unbacked
  else if k < 0x8000000000 then .lpddr 0
  else if k < 0x10000000000 then .lpddr 1
  else if k < 0x10000000000 + s.die0.dome * 268435456 then .dome 0
  else if 0x10080000000 ≤ k ∧ k < 0x10080000000 + s.die1.dome * 268435456 then .dome 1
  else if 0x20000000000 ≤ k ∧ k ≤ 0x2FFFFFFFFFF then .device
  else if 0x800000000000 ≤ k ∧ k ≤ 0xBFFFFFFFFFFF then .host
  else if 0xC00000000000 ≤ k then
    let p := k / 2199023255552 % 32
    if s.peerUp p then .peer p else .unbacked
  else .unbacked

/-- The spire cache holds only dome memory and LPDDR 5X (R20, R165). -/
def Home.cached : Home → Bool
  | .lpddr _ => true
  | .dome _ => true
  | _ => false

/-- The words that carry a full/empty bit (R30, R172). -/
def Home.hasBit : Home → Bool
  | .keep _ _ => true
  | .dome _ => true
  | _ => false

def State.isFull (s : State) (k : Nat) : Bool := natIn (k / 8) s.full

def State.setFull (k : Nat) (f : Bool) (s : State) : State :=
  { s with full := if f then natAdd (k / 8) s.full else natDel (k / 8) s.full }

/-- The word keys that a run of bytes touches. -/
def wordsOf (k n : Nat) : List Nat := (List.range ((k + n + 7) / 8 - k / 8)).map (fun i => (k / 8 + i) * 8)

/-- A spire's state; one not listed is at its reset. -/
def State.spire (s : State) (g : Nat) : Spire := (tget g s.spires).getD Spire.reset

def State.setSpire (g : Nat) (v : Spire) (s : State) : State := { s with spires := tset g v s.spires }

def State.core (s : State) (c : Nat) : Core := (tget c s.cores).getD Core.reset

def State.setCore (c : Nat) (v : Core) (s : State) : State := { s with cores := tset c v s.cores }

/-- Bytes at their home; those behind an island that is OFF (a keep, a dome memory) answer as they last were. (log 96: DESIGN CHOICE.) -/
def State.homeRead (s : State) (k n : Nat) : List Byte := memRead k n s.mem

def State.homeWrite (k : Nat) (bs : List Byte) (s : State) : State := { s with mem := memWrite k bs s.mem }

/-- Byte `i` of a sector's data. -/
def Sector.byte (c : Sector) (i : Nat) : Byte := c.data.extractLsb' (8 * i) 8

/-- A sector fetched (R165): its dirty words stay, all others take the home's bytes, so that a load sees no store of another
spire in part (R170). (log 84: DEDUCED.) -/
def Sector.fetch (c : Sector) (home : List Byte) : Sector :=
  let data := (List.range 32).map (fun i => if c.dirty.getLsbD (i / 4) then c.byte i else home.getD i 0)
  { c with data := BitVec.ofNat 256 (leNat data), have_ := 0xFF#8 }

/-- The words of a sector that are dirty, written to their home (R165: a write-back sends only those). -/
def writeBackFrom (base : Nat) (c : Sector) : Nat → Nat → List Host.Cell → List Host.Cell
  | 0, _, m => m
  | n + 1, i, m =>
    let m' := if c.dirty.getLsbD i then memWrite (base + 4 * i) ((List.range 4).map (fun j => c.byte (4 * i + j))) m else m
    writeBackFrom base c n (i + 1) m'

/-- A sector written back; it becomes clean. -/
def State.writeBackSector (g sec : Nat) (s : State) : State :=
  let sp := s.spire g
  match tget sec sp.cache with
  | none => s
  | some c =>
    { s.setSpire g { sp with cache := tset sec { c with dirty := 0 } sp.cache } with
      mem := writeBackFrom (sec * 32) c 8 0 s.mem }

/-- A sector dropped from the cache. -/
def State.dropSector (g sec : Nat) (s : State) : State :=
  let sp := s.spire g
  s.setSpire g { sp with cache := tdel sec sp.cache }

/-- Sectors written back one after another. -/
def State.writeBackList (g : Nat) : List Nat → State → State
  | [], s => s
  | sec :: rest, s => State.writeBackList g rest (s.writeBackSector g sec)

/-- Every dirty sector of a spire's cache is written back (R181: a release at DIE or wider). -/
def State.writeBackAll (g : Nat) (s : State) : State :=
  s.writeBackList g ((s.spire g).cache.map Prod.fst)

/-- What an acquire leaves of a sector: its dirty words (R165, R181, R184). -/
def Sector.onlyDirty (c : Sector) : Sector := { c with have_ := c.have_ &&& c.dirty }

/-- The clean sectors of a spire's cache are dropped, and the clean words of the others (R181: an acquire at DIE or wider; R184).
(log 84: DEDUCED.) -/
def State.dropClean (g : Nat) (s : State) : State :=
  let sp := s.spire g
  s.setSpire g { sp with
    cache := (sp.cache.filter (fun e => decide (e.2.dirty ≠ 0))).map (fun e => (e.1, e.2.onlyDirty)) }

/-- The eight sectors of the 256-byte line that holds a key. -/
def lineSectors (k : Nat) : List Nat := (List.range 8).map (fun i => k / 256 * 8 + i)

/-- The line's dirty sectors are written back and its sectors leave the cache (R166, R180). -/
def State.flushLine (g k : Nat) (s : State) : State :=
  let s := s.writeBackList g ((lineSectors k).filter (fun sec => (tget sec (s.spire g).cache).isSome))
  let sp := s.spire g
  s.setSpire g { sp with cache := sp.cache.filter (fun e => decide (e.1 / 8 ≠ k / 256)) }

/-- The lines of a cache in the set of a line (R19). (log 7: DESIGN CHOICE.) -/
def setLines (line : Nat) (cache : List (Nat × Sector)) : List Nat :=
  ((cache.filter (fun e => decide (e.1 / 8 % Config.cacheSets = line % Config.cacheSets))).map (fun e => e.1 / 8)).eraseDups

/-- Room for the line of a sector in the cache of spire `g`: a line leaves its set if that is full (R19). (log 7: DESIGN CHOICE.) -/
def State.makeRoom (g sec : Nat) (s : State) : State :=
  let ls := setLines (sec / 8) (s.spire g).cache
  if ls.length < Config.cacheWays || ls.contains (sec / 8) then s
  else
    match ls[Config.victim s.fresh % Config.cacheWays]? with
    | some l => State.flushLine g (256 * l) { s with fresh := s.fresh + 1 }
    | none => s

/-- Whether a sector has every word that a run of `n` bytes from offset `off` needs (R165). -/
def Sector.holds (c : Sector) (off n : Nat) : Bool :=
  (List.range 8).all (fun w => !decide (4 * w < off + n ∧ off < 4 * w + 4) || c.have_.getLsbD w)

/-- A run of `n` bytes of one sector brought into the cache of spire `g`: where it needs words whose mask bits are clear, the
sector is fetched and merged under the mask (R165). -/
def State.fetchSector (g k n : Nat) (s : State) : State :=
  let sec := k / 32
  let c := (tget sec (s.spire g).cache).getD ⟨0, 0, 0⟩
  if c.holds (k % 32) n then s
  else
    let s := s.makeRoom g sec
    let sp := s.spire g
    s.setSpire g { sp with cache := tset sec (c.fetch (s.homeRead (sec * 32) 32)) sp.cache }

/-- A run of bytes of one sector read by an agent of spire `g` (R165): from the cache when its home is cached there. -/
def State.cachedRead (g k n : Nat) (s : State) : State × List Byte :=
  let s' := s.fetchSector g k n
  match tget (k / 32) (s'.spire g).cache with
  | none => (s', s'.homeRead k n)
  | some c => (s', (List.range n).map (fun i => c.byte (k % 32 + i)))

/-- Whether a run of `n` bytes from offset `off` covers word `w` of a sector whole, and whether it covers it in part. -/
def wholeWord (off n w : Nat) : Bool := decide (off ≤ 4 * w ∧ 4 * w + 4 ≤ off + n)
def partWord (off n w : Nat) : Bool := decide (4 * w < off + n ∧ off < 4 * w + 4) && !wholeWord off n w

/-- A mask of the words of a sector that a test names. -/
def wordMask (f : Nat → Bool) : BitVec 8 := BitVec.ofNat 8 ((List.range 8).map (fun w => if f w then 2 ^ w else 0)).sum

/-- Whether a run covers some word of a sector only in part. -/
def anyPart (off n : Nat) : Bool := (List.range 8).any (partWord off n)

/-- A sector's data with bytes put at an offset. -/
def Sector.put (c : Sector) (off : Nat) (bs : List Byte) : BitVec 256 :=
  BitVec.ofNat 256 (leNat ((List.range 32).map (fun i => if off ≤ i ∧ i < off + bs.length then bs.getD (i - off) 0 else c.byte i)))

/-- The sector with whole words stored at an offset: it has them and they are dirty (R165). -/
def Sector.store (c : Sector) (off : Nat) (bs : List Byte) : Sector :=
  let m := wordMask (wholeWord off bs.length)
  ⟨c.put off bs, c.have_ ||| m, c.dirty ||| m⟩

/-- A run of bytes of one sector stored by an agent of spire `g` (R165). Whole words are taken by the cache. A run that covers a word
only in part is written through, after the sector's dirty words, which so reach the home together; the cached copy, if there is one, is
updated (R170, R182). (log 84: DEDUCED.) -/
def State.cachedWrite (g k : Nat) (bs : List Byte) (s : State) : State :=
  let sec := k / 32
  if anyPart (k % 32) bs.length then
    let s := (s.writeBackSector g sec).homeWrite k bs
    let sp := s.spire g
    match tget sec sp.cache with
    | none => s
    | some c => s.setSpire g { sp with cache := tset sec { c with data := c.put (k % 32) bs } sp.cache }
  else
    let s := s.makeRoom g sec
    let sp := s.spire g
    s.setSpire g { sp with cache := tset sec (((tget sec sp.cache).getD ⟨0, 0, 0⟩).store (k % 32) bs) sp.cache }

/-! ## Wait lists -/

/-- The core of a spire whose near banks hold a keep offset (R19, R200). -/
def nearCore (o : Nat) : Nat := o / 196608

/-- The wait list of a word (R132): a bank group of a keep, or a 64 KiB block of dome memory. -/
def waitList (k : Nat) : Nat :=
  if 281474976710656 ≤ k then
    let g := (k - 281474976710656) / 4194304
    let o := (k - 281474976710656) % 4194304
    let w := o % 196608 / 4
    g * 192 + (192 * nearCore o + ((w % 192) ^^^ (w / 192 % 16))) / 16
  else 1048576 + k / 65536

/-- A word's bit written; where it changes, the waiters of the word's list retry next, before anything else acts (R132). -/
def State.turnBit (k : Nat) (f : Bool) (s : State) : State :=
  let l := waitList k
  let s' := s.setFull k f
  if s.isFull k ≠ f ∧ s.waits.any (fun e => decide (e.1 = l)) = true then
    { s' with agenda := .retryList l :: s'.agenda }
  else s'

end Sys2Proof.Machine
end

