-- ==== Sys2Proof/Machine/Ops.lean ====
section
/-! DEFINITION. The named operations over threads: identities, registers, guards, parks, the lantern's event records, taking
a trap and returning from one (R6, R38, R46, R124 to R131, R358, R361 to R365, R401). -/

namespace Sys2Proof.Machine

/-- The die of an identity (R6). -/
def tidDie (t : Nat) : Nat := t / 32768 % 2
/-- The global spire of an identity (R5, R6). -/
def tidSpire (t : Nat) : Nat := tidDie t * 80 + t / 256 % 128
/-- The core of an identity within its spire, and its slot. -/
def tidCore (t : Nat) : Nat := t / 16 % 16
def tidSlot (t : Nat) : Nat := t % 16
/-- The core of an identity among the package's cores. -/
def tidCoreKey (t : Nat) : Nat := tidSpire t * 16 + tidCore t
/-- An identity that names a thread slot (R6). -/
def tidValid (t : Nat) : Bool := decide (t < 65536 ∧ t / 256 % 128 < 80)
/-- The identity of a slot of a core of a global spire. -/
def mkTid (g c sl : Nat) : Nat := g / 80 * 32768 + g % 80 * 256 + c * 16 + sl
/-- The fabric tag of an identity (R6). -/
def tidTag (t : Nat) : BitVec 8 := BitVec.ofNat 8 t

/-- The slot of an identity; one not listed is at its reset. -/
def State.slot (s : State) (t : Nat) : Slot := (tget t s.slots).getD Slot.reset

def State.setSlot (t : Nat) (v : Slot) (s : State) : State := { s with slots := tset t v s.slots }

/-- The thread that executes. -/
def State.thr (s : State) : Slot := s.slot s.tid

def State.setThr (v : Slot) (s : State) : State := s.setSlot s.tid v

/-- A slot's handle (R125). -/
def handleOf (t : Nat) (gen : BitVec 8) : BitVec 24 := gen ++ BitVec.ofNat 16 t

def Slot.handle (v : Slot) (t : Nat) : BitVec 24 := handleOf t v.gen

/-- The identity and the generation that a handle names. -/
def handleTid (h : BitVec 24) : Nat := (h.setWidth 16).toNat
def handleGen (h : BitVec 24) : BitVec 8 := h.extractLsb' 16 8

/-- An island's state; one not listed is at its reset. -/
def State.island (s : State) (i : Nat) : Island := (tget i s.islands).getD Island.reset

def State.setIsland (i : Nat) (v : Island) (s : State) : State := { s with islands := tset i v s.islands }

/-- The cycles an island has counted since it powered up (R141, R419: level n runs at (8 − n)/8 of the clock). -/
def State.islandCycles (s : State) (i : Nat) : Nat :=
  let u := s.island i
  u.cyc + (s.now - u.since) * (8 - u.vfcur) / 8

/-- The turn of a spire's cores (R127), as the sixteen cycles that hold the present one begin. (log 53: DEDUCED.) -/
def State.turnOf (s : State) (g : Nat) : Nat := ({ s with now := s.now / 16 * 16 } : State).islandCycles (3 * g) / 16

/-- The cycle count of a slot at its issue cycle (R127, R141): 16t + phase. -/
def State.cycleOf (s : State) (t : Nat) : Word := BitVec.ofNat 64 (16 * s.turnOf (tidSpire t) + tidSlot t)

/-- The package time count in nanoseconds (R141): 0.8 ns a cycle. -/
def State.time (s : State) : Word := BitVec.ofNat 64 (s.now * 4 / 5)

/-- A general register (R46): x0 reads zero. -/
def Slot.getX (v : Slot) (r : Reg) : Word := if r = 0 then 0 else v.x[r]

/-- A general register written (R46): x0 has no effect. -/
def Slot.setX (r : Reg) (w : Word) (v : Slot) : Slot := if r = 0 then v else { v with x := v.x.set r w }

/-- A predicate (R46): p0 reads true. -/
def Slot.getP (v : Slot) (p : PReg) : Bool := if p = 0 then true else v.p[p]

/-- A predicate written (R46): p0 has no effect. -/
def Slot.setP (p : PReg) (b : Bool) (v : Slot) : Slot := if p = 0 then v else { v with p := v.p.set p b }

/-- A register pair (R42): the even register in the low half. -/
def Slot.setPair (r : Reg) (lo hi : Word) (v : Slot) : Slot := (v.setX r lo).setX (r + 1) hi

/-- The next sequential instruction (R36). -/
def Slot.step (v : Slot) : Slot := { v with pc := v.pc + 4 }

/-- The general registers and predicates of the thread that executes. -/
def State.getX (s : State) (r : Reg) : Word := s.thr.getX r
def State.getP (s : State) (p : PReg) : Bool := s.thr.getP p

/-- Registers of the thread that executes written, without moving its pc. -/
def State.wx (r : Reg) (w : Word) (s : State) : State := s.setThr (s.thr.setX r w)
def State.wp (p : PReg) (b : Bool) (s : State) : State := s.setThr (s.thr.setP p b)

/-- The instruction ends and the thread goes on with the next (R36). -/
def State.advance (s : State) : State := s.setThr s.thr.step

/-- The instruction ends with a result in a general register. -/
def State.retX (r : Reg) (w : Word) (s : State) : State := s.setThr (s.thr.setX r w).step

/-- The instruction ends with a result in a predicate. -/
def State.retP (p : PReg) (b : Bool) (s : State) : State := s.setThr (s.thr.setP p b).step

/-- The instruction ends with a result in a register pair (R42). -/
def State.retPair (r : Reg) (lo hi : Word) (s : State) : State := s.setThr (s.thr.setPair r lo hi).step

/-- Whether the guard lets the instruction take effect (R37, R38). -/
def State.guardOk (s : State) (g : Guard) : Bool := s.getP g.p != g.neg

/-- R38: an instruction under its guard; a false guard only advances the pc. -/
def guarded (g : Guard) (f : State → State) (s : State) : Host.Outcome State Fault Refusal :=
  .next (if s.guardOk g then f s else s.advance)

/-- The event rings (R401): a physical or host byte address of the queue's ring. -/
def ringKey (loc : Bool) (a : Word) : Nat :=
  if loc then a.toNat % 0x1000000000000 else 0x800000000000 + a.toNat % 0x400000000000

/-- Whether a ring's byte lies in memory that the lantern can read and write. -/
def State.ringMemory (s : State) (k : Nat) : Bool := (s.home k).cached || decide (s.home k = .host)

def State.queue (s : State) (q : Nat) : Queue := (tget q s.queues).getD Queue.reset

def State.setQueue (q : Nat) (v : Queue) (s : State) : State := { s with queues := tset q v s.queues }

/-- The bytes of an event record (R401). -/
def EvRec.bytes (e : EvRec) : List Byte :=
  leBytes 1 e.kind ++ leBytes 1 e.queue ++ leBytes 1 e.die ++ leBytes 1 0 ++ leBytes 4 e.code
    ++ leBytes 8 e.id.toNat ++ leBytes 8 e.info0.toNat ++ leBytes 8 e.info1.toNat

/-- Whether an event ring is full (R401). -/
def Queue.ringFull (v : Queue) : Bool := decide ((v.evw - v.evr).toNat ≥ 2 ^ v.evlog)

/-- An event record written to its queue's ring (R401). -/
def State.ringWrite (e : EvRec) (s : State) : State :=
  let v := s.queue e.queue
  let k := ringKey v.evloc v.evbase + 32 * (v.evw.toNat % 2 ^ v.evlog)
  (if s.ringMemory k then s.homeWrite k e.bytes else s).setQueue e.queue { v with evw := v.evw + 1 }

/-- R401: an event written, held by its die while the ring is full, or dropped and counted. (log 72: DEDUCED.) -/
def State.post (e : EvRec) (s : State) : State :=
  let d := s.die e.die
  if (s.queue e.queue).ringFull || d.held.any (fun h => decide (h.queue = e.queue)) then
    if d.held.length < 256 then s.setDie e.die { d with held := d.held ++ [e] }
    else s.setDie e.die { d with evlost := if d.evlost = 0xFFFFFFFF#32 then d.evlost else d.evlost + 1 }
  else s.ringWrite e

/-- An event with no queue of its own goes to the queue of the die's EVQ register (R401). -/
def State.postDie (die kind code : Nat) (id info0 info1 : Word) (s : State) : State :=
  s.post ⟨kind, (s.die die).evq.toNat, die, code, id, info0, info1, 0⟩

/-- What TVEC and TEPC hold of an address: bits 1:0 and 63:48 are zero (R359). (log 12: DEDUCED.) -/
def codeAddr (w : Word) : Word := w &&& 0xFFFFFFFFFFFC#64

/-- A DOUBLE_TRAP event of the slot of an identity goes to its die's lantern (R362, R401). -/
def State.postDouble (t : Nat) (c : Cause) (sub val : Word) (s : State) : State :=
  let v := s.slot t
  s.post ⟨5, (s.die (tidDie t)).evq.toNat, tidDie t, c.code, (v.handle t).setWidth 64, v.pc, val, sub⟩

/-- Taking a trap, for the slot of an identity (R362): TEPC, TCAUSE, TSUB, TVAL and TNODE; PPRV, PRV and NEST; the pc at the
handler. With NEST set the thread enters HOLD, a DOUBLE_TRAP event goes to the lantern and the trap CSRs stay. A held thread's
trap waits for its release (R378). -/
def State.trapAt (t : Nat) (c : Cause) (sub val node : Word) (s : State) : State :=
  let v := s.slot t
  if v.held then s.setSlot t { v with st := .run, park := none, trapDue := some (c, sub, val, node) }
  else if v.nest then (s.setSlot t { v with held := true, st := .run, park := none }).postDouble t c sub val
  else
    s.setSlot t { v with
      st := .run, park := none
      tepc := codeAddr v.pc, tcause := BitVec.ofNat 8 c.code, tsub := sub, tval := val, tnode := node
      pprv := v.prv, prv := (if v.prv = .user then .kernel else v.prv), nest := true, pc := v.tvec }

/-- A precise trap of the thread that executes (R362). -/
def State.trap (c : Cause) (sub : Nat) (val : Word) (s : State) : State :=
  s.trapAt s.tid c (BitVec.ofNat 64 sub) val 0

/-- A fault delivered as a precise trap. -/
def State.trapFlt (f : Flt) (s : State) : State := s.trap f.cause f.sub f.val

/-- The return from a trap (R365): PRV from PPRV, NEST clear, the pc from TEPC. -/
def State.trapReturn (s : State) : State :=
  let v := s.thr
  s.setThr { v with prv := v.pprv, nest := false, pc := v.tepc }

/-- An instruction that needs kernel privilege (R45, R358): below it, PRIV with TSUB 0 and the instruction word, whatever the
guard holds. (log 13: DEDUCED.) -/
def kernelOnly (word : BitVec 32) (g : Guard) (f : State → State) (s : State) : Host.Outcome State Fault Refusal :=
  if s.thr.prv = .user then .next (s.trap .priv 0 (word.setWidth 64)) else guarded g f s

/-- The thread leaves the rotation for a reason (R128). -/
def State.parkAt (t : Nat) (r : Reason) (op : ParkOp) (s : State) : State :=
  let v := s.slot t
  s.setSlot t { v with st := .park, park := some ⟨r, op, s.turnOf (tidSpire t), false, s.serial⟩ }

def State.park (r : Reason) (op : ParkOp) (s : State) : State := s.parkAt s.tid r op

/-- A park that goes on with another thing to wait for: the same park for the watchdog (R135). -/
def State.reparkAt (t : Nat) (op : ParkOp) (s : State) : State :=
  let v := s.slot t
  match v.park with
  | some k => s.setSlot t { v with park := some { k with op := op } }
  | none => s

/-- A park clears. -/
def Slot.unpark (v : Slot) : Slot := { v with st := .run, park := none }

/-- A park clears and the instruction ends (R129). -/
def Slot.resume (v : Slot) : Slot := { v with st := .run, park := none, pc := v.pc + 4 }

/-- The next free value. (log 3: DESIGN CHOICE.) -/
def State.freeWord (s : State) : State × Word := ({ s with fresh := s.fresh + 1 }, Config.freeWord s.fresh)

def State.freeByte (s : State) : State × Byte := ({ s with fresh := s.fresh + 1 }, Config.freeByte s.fresh)

/-- The next access number (R371). -/
def State.tick (s : State) : State × Nat := ({ s with serial := s.serial + 1 }, s.serial)

/-- The status words of the manual: −n as a 64-bit word. -/
def negWord (n : Nat) : Word := -(BitVec.ofNat 64 n)

/-- A bit field of a word as a number. -/
def fld (w : Word) (lo n : Nat) : Nat := w.toNat / 2 ^ lo % 2 ^ n

/-- A truth value as a word. -/
def boolWord (b : Bool) : Word := if b then 1 else 0

end Sys2Proof.Machine
end

