-- ==== Sys2Proof/Machine/Device.lean ====
section
/-! DEFINITION. The device registers and what a read or a write of one does (R7, R290, R291, R379, R384, R385, R386, R402,
R407, R408, R415, R416, R419, R428 to R430, R448). A register is addressed by its byte offset from 0x0200_0000_0000. -/

namespace Sys2Proof.Machine

/-- The first device-register address (R32). -/
def deviceBase : Nat := 0x20000000000

/-- A field of `n` bits at bit `lo` of a register's word. -/
def atBit (v lo : Nat) : Nat := v * 2 ^ lo

/-- The word of a number. -/
def wordOf (n : Nat) : Word := BitVec.ofNat 64 n

/-- A bit as a number. -/
def bit (b : Bool) : Nat := if b then 1 else 0

/-- The new value of an RW register's bytes: those that are covered are taken from the write (R448). -/
def merge (old mask v : Word) : Word := (old &&& ~~~mask) ||| (v &&& mask)

/-- The bits that a write sets in covered bytes (W1C and WO fields, R448). -/
def ones (mask v : Word) (i : Nat) : Bool := mask.getLsbD i && v.getLsbD i

/-- A region of a spire's table. -/
def Spire.region (sp : Spire) (r : Nat) : Option Region := tget r sp.regions

def State.region (s : State) (g r : Nat) : Option Region := (s.spire g).region r

def State.setRegion (g r : Nat) (v : Region) (s : State) : State :=
  let sp := s.spire g
  s.setSpire g { sp with regions := tset r v sp.regions }

/-- The state of a node at a place and arm; one not listed is fresh (R287, R290). -/
def nodeStateOf (k : Site × Nat) : List ((Site × Nat) × NodeState) → NodeState
  | [] => NodeState.fresh
  | (j, v) :: rest => if j = k then v else nodeStateOf k rest

def setNodeState (k : Site × Nat) (v : NodeState) : List ((Site × Nat) × NodeState) → List ((Site × Nat) × NodeState)
  | [] => [(k, v)]
  | (j, w) :: rest => if j = k then (k, v) :: rest else (j, w) :: setNodeState k v rest

/-- The opcode of a node word (R245). -/
def nodeOp (w : BitVec 32) : Nat := (w.extractLsb' 24 8).toNat

/-- The node of a block and index in a plane (R276). -/
def Plane.find (p : Plane) (block idx : Nat) : Option PNode :=
  p.nodes.find? (fun n => decide (n.block = block ∧ n.idx = idx))

/-! ## Reads -/

/-- RSTAT (R291, R295). -/
def Region.rstat (r : Region) : Word :=
  wordOf (atBit (if r.kind = 1 then r.asid.toNat else 0) 12 + atBit (bit (decide (r.refused ≠ 0))) 7
    + atBit (bit (decide (r.st = .swapping))) 6 + atBit r.kind 4 + r.st.code)

/-- VIOLPOS (R291). -/
def Region.violpos (r : Region) : Word :=
  match r.viol with
  | none => 0
  | some v => wordOf (atBit 1 63 + atBit v.tag.toNat 40 + atBit v.kind 38 + atBit v.track 35 + atBit v.dir 33
      + atBit v.row 24 + atBit v.col 14)

/-- BKCFGn (R408). -/
def Breakpoint.cfg (b : Breakpoint) : Word :=
  wordOf (atBit (bit b.en) 63 + atBit b.action 61 + atBit b.row 40 + atBit b.col 30 + atBit b.dst 24)

/-- Whether a token only crosses a link: it is then counted in the queue that it goes to. -/
def Crossing.isLink (c : Crossing) : Bool :=
  match c.what with
  | .link _ _ _ => true
  | _ => false

/-- Whether a region holds a token: in a port queue or on its way to no port, but for tokens still outside an ENTRY of a stream configuration, or within a
node (R379). -/
def Region.holdsToken (r : Region) : Bool :=
  let counted (p : PortId) : Bool := !(decide (r.kind = 1) && decide (p.site.unit = 13))
  (r.queues ++ r.squeues).any (fun q => counted q.1 && !q.2.isEmpty)
    || r.crossings.any (fun c => !c.isLink) || !r.stalled.isEmpty
    || (r.nodes ++ r.snodes).any (fun e => e.2.emit.isSome || !e.2.pend.isEmpty || !e.2.lanes.isEmpty)

/-- Whether a region is halted with no token in it and no access outstanding, its stop, if a cut made one, released; for kind 2,
whether it is HALTED (R379, R411). -/
def Region.drainedOut (r : Region) : Bool :=
  r.halt && (if r.kind = 2 then decide (r.st = .halted)
    else !r.holdsToken && r.accs.isEmpty && r.flights.isEmpty && !(r.cut.stop && decide (r.cut.state = 3 ∨ r.cut.state = 1)))

/-- RCTL.QUIET (R379): the region has been found quiet, and still is. -/
def Region.isQuiet (r : Region) : Bool := r.quiet && r.drainedOut

/-- The registers of a region beyond its node states: the offset is from the region base + 0x2_0000. -/
def Region.reg (r : Region) (o : Nat) : Word :=
  if o = 0x00 then r.rstat
  else if o = 0x08 then r.refused.setWidth 64
  else if o = 0x10 then r.violpos
  else if o = 0x18 then r.dropped.setWidth 64
  else if o = 0x20 then wordOf (atBit (bit r.isQuiet) 1 + bit r.halt)
  else if o = 0x28 then r.ovdrop.setWidth 64
  else if o = 0x30 then wordOf (atBit r.cut.id.toNat 48 + r.cut.state)
  else if 0x40 ≤ o ∧ o < 0x80 then
    let b := r.bks[(o - 0x40) / 16 % 4]'(Nat.mod_lt _ (by decide))
    if o % 16 = 0 then b.cfg else if o % 16 = 8 then wordOf (atBit b.target.toNat 32 + b.count.toNat) else 0
  else 0

/-- The n-th compute column at or after a column (R278). -/
def computeCol (col : Nat) : Nat → Nat
  | 0 => if col % 8 = 7 then col + 1 else col
  | n + 1 => computeCol ((if col % 8 = 7 then col + 1 else col) + 1) n

/-- The cells that a node and its copies take (R278). (log 23: DEDUCED.) -/
def PNode.cells (n : PNode) : List Site :=
  if n.site.unit = 0 then (List.range n.rep).map (fun k => { n.site with col := computeCol n.site.col k }) else [n.site]

/-- Copy `k` of a replicated node (R278). -/
def PNode.copyAt (n : PNode) (k : Nat) : PNode :=
  if n.site.unit = 0 then { n with site := { n.site with col := computeCol n.site.col k } } else n

/-- Whether a plane holds a node, or a copy of one, at a place (R276, R278). -/
def Plane.holds (p : Plane) (st : Site) : Bool := p.nodes.any (fun n => n.cells.contains st)

/-- Whether a place serves the shadow plane (R287): it has swapped, or the active plane holds no node there and the shadow plane
of its site is written. -/
def Region.inShadow (r : Region) (st : Site) : Bool :=
  decide (r.st = .swapping) && (r.swapped.contains st
    || (!((r.active.map (fun p => p.holds st)).getD false) && r.written.contains (st.row, st.col)))

/-- The node that a block and an index name in the planes in force (R287, R290): the new plane's where its cell serves that
plane, else the former one's where its cell does not; and whether it is the new plane's. -/
def Region.nodeInForce (r : Region) (block idx : Nat) : Option (PNode × Bool) :=
  match (r.shadow.bind (fun p => p.find block idx)).filter (fun n => r.inShadow n.site) with
  | some n => some (n, true)
  | none =>
    ((r.active.bind (fun p => p.find block idx)).filter (fun n => !r.inShadow n.site)).map (fun n => (n, false))

/-- A node-state register (R290): AMAX and NaN-seen of a CVT node of the active plane. -/
def Region.nodeReg (r : Region) (block idx : Nat) : Word :=
  match r.nodeInForce block idx with
  | none => 0
  | some (n, new) =>
    if nodeOp n.word = 28 then
      let st := nodeStateOf (n.site, n.arm) (if new then r.snodes else r.nodes)
      wordOf (atBit (bit st.nan) 32 + st.amax.toNat)
    else 0

/-- Whether a command of the queue is stalled (R396). (log 56: DEDUCED.) -/
def Queue.fault (v : Queue) : Bool := v.cmds.any (fun c => c.stalled.isSome)

/-- QSTAT.CODE (R385): the code of the halt or stall that the queue is in; zero in neither. (log 58: DEDUCED.) -/
def Queue.statCode (v : Queue) : Nat := if v.err || v.fault then v.code.toNat else 0

/-- A queue's register block (R385). -/
def Queue.reg (v : Queue) (o : Nat) : Word :=
  if o = 0x00 then v.qbase
  else if o = 0x08 then
    wordOf (atBit v.asid.toNat 36 + atBit v.msix.toNat 26 + atBit v.log2n 16 + atBit v.prio.toNat 10 + atBit (bit v.loc) 9
      + atBit (bit v.privk) 8 + bit v.en)
  else if o = 0x10 then v.ptbr
  else if o = 0x18 then v.widx.setWidth 64
  else if o = 0x20 then v.ridx.setWidth 64
  else if o = 0x28 then
    wordOf (atBit v.statCode 8 + atBit (bit v.fault) 2 + atBit (bit v.err) 1 + bit (!v.cmds.isEmpty))
  else if o = 0x30 then v.evbase
  else if o = 0x38 then wordOf (atBit (bit v.evloc) 9 + v.evlog)
  else if o = 0x40 then v.evw.setWidth 64
  else if o = 0x48 then v.evr.setWidth 64
  else 0

/-- A die's register block (R402, R428, R429). PEERRT of die 1 reads zero. -/
def Die.reg (d : Die) (die o : Nat) : Word :=
  if o = 0x000 then d.evq.setWidth 64
  else if o = 0x008 then d.evlost.setWidth 64
  else if 0x100 ≤ o ∧ o < 0x200 then
    let e := d.peers[(o - 0x100) / 8 % 32]'(Nat.mod_lt _ (by decide))
    if die = 0 then wordOf (atBit (bit e.1) 7 + e.2) else 0
  else if 0x200 ≤ o ∧ o < 0x400 then
    if o % 16 = 0 then d.pinBase[(o - 0x200) / 16 % 32]'(Nat.mod_lt _ (by decide))
    else d.pinLim[(o - 0x200) / 16 % 32]'(Nat.mod_lt _ (by decide))
  else if o = 0x408 then d.attAddr
  else if o = 0x410 then wordOf d.attStat
  else if o = 0x418 then wordOf (atBit d.recStep.toNat 8 + d.recCause.toNat)
  else 0

/-- The value of an offset in a list of snapshot doublewords. -/
def snapAt (o : Nat) (l : List (Nat × Word)) : Word := (tget o l).getD 0

/-- LIVE8 at an island cycle: what the other classes leave of the interval (R406, R407). -/
def SiteCount.idle (c : SiteCount) (cyc : Nat) : Nat :=
  match c.since with
  | none => 0
  | some (since, slots) => (cyc - since) * slots - ((c.live.toList.take 8).map BitVec.toNat).sum

/-- A count of 48 bits, saturating (R407). -/
def sat48 (n : Nat) : BitVec 48 := BitVec.ofNat 48 (min n 0xFFFFFFFFFFFF)

/-- A live counter at an island cycle. -/
def SiteCount.liveAt (c : SiteCount) (cyc i : Nat) : BitVec 48 :=
  if i % 9 = 8 then sat48 (c.idle cyc) else c.live[i % 9]'(Nat.mod_lt _ (by decide))

/-- A site's counter block (R407, R415), at a cycle of its island. -/
def SiteCount.reg (c : SiteCount) (cyc o : Nat) : Word :=
  if o < 0x48 then (c.liveAt cyc (o / 8)).setWidth 64
  else if o < 0x90 then (c.last[(o - 0x48) / 8 % 9]'(Nat.mod_lt _ (by decide))).setWidth 64
  else if o = 0x90 then c.misalign.setWidth 64
  else if o = 0x98 then c.intv.setWidth 64
  else if o < 0xF0 then snapAt o c.snap
  else 0

/-- The spire debug block (R416). -/
def Debug.reg (d : Debug) (o : Nat) : Word :=
  if o = 0x000 then d.trctl.setWidth 64
  else if o = 0x008 then d.trbase
  else if o = 0x010 then wordOf d.trsize
  else if o = 0x018 then d.trw.setWidth 64
  else if o = 0x020 then d.trr.setWidth 64
  else if o = 0x028 then d.trdly.setWidth 64
  else if o = 0x030 then wordOf (atBit d.lostGate.toNat 32 + d.lostFull.toNat)
  else if o = 0x038 then d.msgstale.setWidth 64
  else if o = 0x040 then wordOf (atBit d.seq.toNat 32 + atBit d.missed.toNat 16 + bit d.arm)
  else if 0x800 ≤ o ∧ o < 0x1000 then snapAt ((o - 0x800) / 8) d.slotsnap
  else if 0x1000 ≤ o ∧ o < 0x1100 then snapAt ((o - 0x1000) / 8) d.chsnap
  else if 0x1100 ≤ o ∧ o < 0x1110 then snapAt ((o - 0x1100) / 8) d.mcsnap
  else 0

/-- The counters of a spire's sites. -/
def Spire.site (sp : Spire) (k : Nat) : SiteCount := (tget k sp.sites).getD SiteCount.reset

/-- ISLCTL (R419). -/
def Island.reg (v : Island) : Word :=
  wordOf (atBit v.temp.toNat 32 + atBit v.vfcur 20 + atBit v.vfreq 16 + atBit v.st 8 + atBit (bit v.forced) 1 + bit v.on)

/-- The doubleword at a device-register offset (R448): zero where no register is. -/
def State.devReg (s : State) (o : Nat) : Word :=
  if o < 0xA0000000 then
    match s.region (o / 0x1000000) (o / 0x40000 % 64) with
    | none => 0
    | some r =>
      let x := o % 0x40000
      if x < 0x20000 then r.nodeReg (x / 0x200) (x % 0x200 / 8) else r.reg (x - 0x20000)
  else if 0x1000000000 ≤ o ∧ o < 0x1000040000 then (s.queue (o / 0x1000 % 64)).reg (o % 0x1000)
  else if 0x1100000000 ≤ o ∧ o < 0x1100020000 then (s.die (o / 0x10000 % 2)).reg (o / 0x10000 % 2) (o % 0x10000)
  else if 0x2000000000 ≤ o ∧ o < 0x20A0000000 then
    let sp := s.spire ((o - 0x2000000000) / 0x1000000)
    let x := o % 0x1000000
    if x < 0x400000 then
      if x % 0x100000 < 0x28000 then (sp.site (x / 0x100000 * 640 + x % 0x100000 / 0x100)).reg (s.islandCycles (3 * ((o - 0x2000000000) / 0x1000000) + 1)) (x % 0x100) else 0
    else if 0x800000 ≤ x then sp.dbg.reg (x - 0x800000)
    else 0
  else if 0x3000000000 ≤ o ∧ o < 0x3000001000 then (s.island ((o - 0x3000000000) / 8)).reg
  else 0

/-- Bytes read from device registers (R448). (log 69: DEDUCED.) -/
def State.devRead (s : State) (k n : Nat) : List Byte :=
  (List.range n).map (fun i =>
    let a := k + i - deviceBase
    (s.devReg (a / 8 * 8)).extractLsb' (8 * (a % 8)) 8)

/-! ## Writes -/

/-- Events that a die holds for queues whose rings now have room are written in arrival order (R401). -/
def flushFrom : List EvRec → List Nat → State → List EvRec × State
  | [], _, s => ([], s)
  | e :: rest, blocked, s =>
    if natIn e.queue blocked || (s.queue e.queue).ringFull then
      let (kept, s') := flushFrom rest (natAdd e.queue blocked) s
      (e :: kept, s')
    else flushFrom rest blocked (s.ringWrite e)

def State.flushHeld (d : Nat) (s : State) : State :=
  let (kept, s') := flushFrom (s.die d).held [] s
  s'.setDie d { s'.die d with held := kept }

/-- R386: the ring is overrun when WIDX − RIDX exceeds its size. -/
def Queue.overran (v : Queue) : Bool := decide ((v.widx - v.ridx).toNat > 2 ^ v.log2n)

/-- A queue halts with a code (R386, R389, R421). -/
def Queue.halt (code : BitVec 8) (v : Queue) : Queue := { v with err := true, code := code, overrun := decide (code = 0x46#8) }

/-- The doorbell (R386). -/
def Queue.writeWidx (w : BitVec 32) (v : Queue) : Queue :=
  let v := { v with widx := w }
  if v.overran then v.halt 0x46#8 else v

/-- QSTAT.ERR written (R385, R386): the queue restarts, past the command at RIDX but after an OVERRUN halt. -/
def Queue.writeErr (v : Queue) : Queue :=
  if !v.err then v
  else
    let skip := !v.overrun && decide (v.ridx ≠ v.widx)
    let v := { v with err := false, overrun := false, ridx := if skip then v.ridx + 1 else v.ridx }
    if v.overran then v.halt 0x46#8 else v

/-- The channel of a spire. -/
def Spire.channel (sp : Spire) (ch : Nat) : Channel := sp.channels[ch % 16]'(Nat.mod_lt _ (by decide))

def Spire.setChannel (ch : Nat) (v : Channel) (sp : Spire) : Spire :=
  { sp with channels := sp.channels.set (ch % 16) v (Nat.mod_lt _ (by decide)) }

/-- The frozen copy of a channel retries (R330): its element, or its signal once every element has landed. -/
def Channel.resume (c : Channel) : Channel :=
  { c with
    fcause := 0, ftsub := 0, side := 0, faddr := 0,
    queue := c.queue.map (fun e => if e.st = .frozen then { e with st := if c.side = 2 then .signal else .landing } else e) }

/-- The copy that lands, waits for its signal or is frozen (R318). -/
def CopyState.active : CopyState → Bool
  | .landing | .signal | .frozen => true
  | .queued | .aborted => false

/-- The first queued copy made to land. -/
def startFirst : List CopyEntry → List CopyEntry × Option (BitVec 48)
  | [] => ([], none)
  | e :: rest =>
    if e.st = .queued then ({ e with st := .landing } :: rest, some e.wm)
    else
      let (r, w) := startFirst rest
      (e :: r, w)

/-- R318: with no copy active, the next unaborted one starts; wm.n takes its first value (R324). -/
def Channel.startNext (c : Channel) : Channel :=
  if c.queue.any (fun e => e.st.active) then c
  else
    let (q, w) := startFirst c.queue
    { c with queue := q, wm := w.getD c.wm }

/-- The numbered copy of a channel is aborted (R331); the next starts (R318). -/
def Channel.abortSeq (seq : Nat) (c : Channel) : Channel :=
  Channel.startNext { c with
    fcause := 0, ftsub := 0, side := 0, faddr := 0,
    queue := c.queue.map (fun e => if e.seq = seq then { e with st := .aborted } else e) }

/-- A stalled command of a queue is retried (R396): a BIND's port goes on, a COPY resumes as by CPYRES (R400). -/
def State.retryCmd (q : Nat) (c : Cmd) (s : State) : State :=
  match c.stalled, c.work with
  | some _, .bind g r =>
    match s.region g r with
    | some rg => s.setRegion g r { rg with binds := rg.binds.map (fun b =>
        if b.queue = q ∧ b.packet = c.idx.toNat then { b with ports := b.ports.map (fun p => { p with held := false }) } else b) }
    | none => s
  | some _, .copy g ch (some _) => s.setSpire g ((s.spire g).setChannel ch ((s.spire g).channel ch).resume)
  | _, _ => s

/-- QSTAT.FAULT written (R385, R396): every stalled command of the queue is retried. -/
def State.writeFault (q : Nat) (s : State) : State :=
  let s := (s.queue q).cmds.foldl (fun s c => s.retryCmd q c) s
  let v := s.queue q
  s.setQueue q { v with cmds := v.cmds.map (fun c => { c with stalled := none }) }

/-- The TAG of a packet (R388). -/
def packetTag (ws : Vector Word 8) : Word := ws[0] >>> 32

/-- A CMD_ERROR event of a command (R401), sent by the die that parses the queue (R16). -/
def State.cmdError (q : Nat) (idx : BitVec 32) (ws : Vector Word 8) (code : Nat) (info : Word) (s : State) : State :=
  s.post ⟨1, q, q / 32, code, idx.setWidth 64, info, packetTag ws, 0⟩

/-- A stalled command is abandoned (R396): what it drives ends, its CMD_ERROR event is written, it completes. -/
def State.abortCmd (q : Nat) (c : Cmd) (s : State) : State :=
  match c.stalled with
  | none => s
  | some f =>
    let s := match c.work with
      | .bind g r =>
        match s.region g r with
        | some rg => s.setRegion g r { rg with binds := rg.binds.filter (fun b => decide (b.queue ≠ q ∨ b.packet ≠ c.idx.toNat)) }
        | none => s
      | .copy g ch (some seq) => s.setSpire g ((s.spire g).setChannel ch (((s.spire g).channel ch).abortSeq seq))
      | .launch _ _ _ =>
        let d := s.die (q / 32)
        s.setDie (q / 32) { d with fifo := d.fifo.filter (fun e => decide (e ≠ (q, c.idx))) }
      | _ => s
    s.cmdError q c.idx c.words 0x45 f.val

/-- QSTAT.ABORT written (R385, R391, R396). -/
def State.writeAbort (q : Nat) (s : State) : State :=
  let s := (s.queue q).cmds.foldl (fun s c => s.abortCmd q c) s
  let v := s.queue q
  s.setQueue q { v with cmds := v.cmds.map (fun c => if c.stalled.isSome then { c with stalled := none, done := true } else c) }

/-- A queue register written (R385): the covered bytes are those of `mask`. -/
def State.writeQueueReg (q o : Nat) (mask v : Word) (s : State) : State :=
  let u := s.queue q
  let w := merge (u.reg o) mask v
  if o = 0x00 then s.setQueue q { u with qbase := w }
  else if o = 0x08 then
    let n := fld w 16 5
    s.setQueue q { u with
      asid := w.extractLsb' 36 12, msix := w.extractLsb' 26 6, log2n := if 4 ≤ n ∧ n ≤ 16 then n else u.log2n,
      prio := w.extractLsb' 10 2, loc := w.getLsbD 9, privk := w.getLsbD 8, en := w.getLsbD 0 }
  else if o = 0x10 then s.setQueue q { u with ptbr := w &&& 0xFFFFFFFFF000#64 }
  else if o = 0x18 then if mask.setWidth 32 = 0#32 then s else s.setQueue q (u.writeWidx (w.setWidth 32))
  else if o = 0x28 then
    let s := if ones mask v 1 then s.setQueue q u.writeErr else s
    let s := if ones mask v 3 then s.writeAbort q else s
    if ones mask v 2 then s.writeFault q else s
  else if o = 0x30 then s.setQueue q { u with evbase := w }
  else if o = 0x38 then
    let n := fld w 0 5
    (((s.setQueue q { u with evloc := w.getLsbD 9, evlog := if 4 ≤ n ∧ n ≤ 16 then n else u.evlog }).flushHeld 0).flushHeld 1)
  else if o = 0x48 then (((s.setQueue q { u with evr := w.setWidth 32 }).flushHeld 0).flushHeld 1)
  else s

/-- A request for a report (R429, R430): refused while the device makes one, of either die, or after the last leaf; else where the
report goes and its nonce are those of the request, whatever is written later. (log 67: DESIGN CHOICE.) -/
def State.request (die : Nat) (s : State) : State :=
  let d := s.die die
  let k := d.attAddr.toNat % 0x1000000000000
  s.setDie die (if s.die0.attBusy || s.die1.attBusy || decide (32768 ≤ s.leaf) then { d with attStat := 2 }
    else { d with attBusy := true, attStat := 0, attAt := k, attNonce := s.homeRead k 32 })

/-- A die register written (R402, R429). -/
def State.writeDieReg (die o : Nat) (mask v : Word) (s : State) : State :=
  let d := s.die die
  let w := merge (d.reg die o) mask v
  if o = 0x000 then s.setDie die { d with evq := w.setWidth 6 }
  else if o = 0x008 then s.setDie die { d with evlost := d.evlost &&& ~~~((v &&& mask).setWidth 32) }
  else if 0x100 ≤ o ∧ o < 0x200 then
    if die = 0 then
      s.setDie die { d with peers := d.peers.set ((o - 0x100) / 8 % 32) (w.getLsbD 7, fld w 0 4) (Nat.mod_lt _ (by decide)) }
    else s
  else if 0x200 ≤ o ∧ o < 0x400 then
    let x := w &&& 0xFFFFFFFFFFFF#64
    if o % 16 = 0 then s.setDie die { d with pinBase := d.pinBase.set ((o - 0x200) / 16 % 32) x (Nat.mod_lt _ (by decide)) }
    else s.setDie die { d with pinLim := d.pinLim.set ((o - 0x200) / 16 % 32) x (Nat.mod_lt _ (by decide)) }
  else if o = 0x400 then if ones mask v 0 then s.request die else s
  else if o = 0x408 then s.setDie die { d with attAddr := w }
  else s

/-- HALT written (R379, R380): clearing it resumes the region; a HALTED matrix region that has weights in force first reads them
again, and is IDLE or BUSY after that (R314). -/
def Region.setHalt (h : Bool) (r : Region) : Region :=
  if h then { r with halt := true }
  else if r.st = .halted then
    let again := r.matrix.weights.isSome
    { r with
      halt := false, quiet := false,
      st := if again then .halted else if r.matrix.queue.isEmpty then .empty else .busy,
      matrix := { r.matrix with reload := again } }
  else { r with halt := false, quiet := false }

/-- REFUSED written (R291): writing 0 re-arms the record and clears VIOLPOS. -/
def Region.setRefused (n : BitVec 32) (r : Region) : Region :=
  if n = 0 then { r with refused := 0, viol := none } else { r with refused := n }

/-- BKCFGn written (R408, R409): its count clears. -/
def Breakpoint.write (w : Word) (b : Breakpoint) : Breakpoint :=
  ⟨w.getLsbD 63, fld w 61 2, fld w 40 8, fld w 30 10, fld w 24 6, b.target, 0, false⟩

/-- A region register written; the offset is from the region base + 0x2_0000. A store that covers only reserved bytes of BKCFGn is no
write of it (R8, R448). (log 104: DEDUCED.) -/
def Region.write (o : Nat) (mask v : Word) (r : Region) : Region :=
  let w := merge (r.reg o) mask v
  if o = 0x08 then r.setRefused (w.setWidth 32)
  else if o = 0x18 then { r with dropped := w.setWidth 32 }
  else if o = 0x20 then if mask.getLsbD 0 then r.setHalt (v.getLsbD 0) else r
  else if o = 0x28 then { r with ovdrop := w.setWidth 32 }
  else if 0x40 ≤ o ∧ o < 0x80 then
    let i := (o - 0x40) / 16 % 4
    let b := r.bks[i]'(Nat.mod_lt _ (by decide))
    let b' := if o % 16 = 0 then (if mask &&& 0xFF00FFFFFF000000#64 = 0 then b else b.write w) else if o % 16 = 8 then { b with target := w.extractLsb' 32 32 } else b
    { r with bks := r.bks.set i b' (Nat.mod_lt _ (by decide)) }
  else r

/-- The covered bytes of AMAX and NaN-seen cleared (R290, R448). -/
def NodeState.clearMax (mask : Word) (v : NodeState) : NodeState :=
  { v with amax := v.amax &&& ~~~(mask.setWidth 32), nan := v.nan && !mask.getLsbD 32 }

/-- A node-state register written (R290): AMAX and NaN-seen clear, in the bytes that the write covers (R448). -/
def Region.clearNode (block idx : Nat) (mask : Word) (r : Region) : Region :=
  match r.nodeInForce block idx with
  | none => r
  | some (n, new) =>
    let k := (n.site, n.arm)
    if nodeOp n.word = 28 then
      if new then { r with snodes := setNodeState k ((nodeStateOf k r.snodes).clearMax mask) r.snodes }
      else { r with nodes := setNodeState k ((nodeStateOf k r.nodes).clearMax mask) r.nodes }
    else r

/-- A register of the spire debug block written (R416). -/
def Debug.write (o : Nat) (mask v : Word) (d : Debug) : Debug :=
  let w := merge (d.reg o) mask v
  if o = 0x000 then { d with trctl := w.setWidth 3 }
  else if o = 0x008 then { d with trbase := w &&& 0xFFFFFFFFFFE0#64 }
  else if o = 0x010 then
    let n := fld w 0 5
    if 6 ≤ n ∧ n ≤ 24 then { d with trsize := n } else d
  else if o = 0x020 then { d with trr := w.setWidth 32 }
  else if o = 0x028 then { d with trdly := w.setWidth 48 }
  else if o = 0x030 then { d with lostGate := w.extractLsb' 32 32, lostFull := w.setWidth 32 }
  else if o = 0x038 then { d with msgstale := w.setWidth 32 }
  else if o = 0x040 then { d with arm := w.getLsbD 0 }
  else d

/-- ISLCTL written (R419): ON requests power or a gate; a level beyond 7 leaves VFREQ. -/
def Island.write (mask v : Word) (u : Island) : Island :=
  let w := merge u.reg mask v
  let n := fld w 16 4
  { u with on := w.getLsbD 0, vfreq := if n ≤ 7 then n else u.vfreq }

/-- A doubleword of the device-register range written, the covered bytes being those of `mask` (R448). -/
def State.writeDevReg (o : Nat) (mask v : Word) (s : State) : State :=
  if o < 0xA0000000 then
    let g := o / 0x1000000
    let n := o / 0x40000 % 64
    match s.region g n with
    | none => s
    | some r =>
      let x := o % 0x40000
      s.setRegion g n (if x < 0x20000 then r.clearNode (x / 0x200) (x % 0x200 / 8) mask else r.write (x - 0x20000) mask v)
  else if 0x1000000000 ≤ o ∧ o < 0x1000040000 then s.writeQueueReg (o / 0x1000 % 64) (o % 0x1000) mask v
  else if 0x1100000000 ≤ o ∧ o < 0x1100020000 then s.writeDieReg (o / 0x10000 % 2) (o % 0x10000) mask v
  else if 0x2000000000 ≤ o ∧ o < 0x20A0000000 then
    let g := (o - 0x2000000000) / 0x1000000
    let sp := s.spire g
    let x := o % 0x1000000
    if x < 0x400000 then
      if x % 0x100000 < 0x28000 ∧ x % 0x100 = 0x90 then
        let k := x / 0x100000 * 640 + x % 0x100000 / 0x100
        let c := sp.site k
        s.setSpire g { sp with sites := tset k { c with misalign := (merge (c.misalign.setWidth 64) mask v).setWidth 32 } sp.sites }
      else s
    else if 0x800000 ≤ x then s.setSpire g { sp with dbg := sp.dbg.write (x - 0x800000) mask v }
    else s
  else if 0x3000000000 ≤ o ∧ o < 0x3000001000 then
    let i := (o - 0x3000000000) / 8
    s.setIsland i ((s.island i).write mask v)
  else s

/-- A run of bytes of one register written (R448): the mask and the word of the covered bytes. -/
def coveredMask (off n : Nat) : Word := wordOf ((2 ^ (8 * n) - 1) * 2 ^ (8 * off))

/-- Bytes stored to one device register. -/
def State.devPiece (k : Nat) (bs : List Byte) (s : State) : State :=
  let a := k - deviceBase
  s.writeDevReg (a / 8 * 8) (coveredMask (a % 8) bs.length) (wordOf (leNat bs * 2 ^ (8 * (a % 8))))

/-- A run of bytes cut at each register: place and bytes of each cut (R170, R448). -/
def regCuts : Nat → Nat → List Byte → List (Nat × List Byte)
  | 0, _, _ => []
  | fuel + 1, k, bs =>
    let n := 8 - k % 8
    if bs.length ≤ n then [(k, bs)] else (k, bs.take n) :: regCuts fuel (k + n) (bs.drop n)

/-- Bytes stored to device registers, register after register (R448, R170: one piece for each register). -/
def State.devWrite (k : Nat) (bs : List Byte) (s : State) : State :=
  (regCuts (bs.length / 8 + 2) k bs).foldl (fun s c => s.devPiece c.1 c.2) s

end Sys2Proof.Machine
end

