-- ==== Sys2Proof/Machine/Access.lean ====
section
/-! DEFINITION. How an access reaches memory: the fixed windows, translation and walks, the order of checks, the watermark
comparison, pieces, and reads and writes at the homes (R28 to R32, R163 to R172, R326, R366 to R372, R403). -/

namespace Sys2Proof.Machine

/-! ## The fixed windows -/

/-- What a virtual address names before translation (R29). -/
inductive Zone where
  | keep (g o : Nat)
  | hole
  | space
  deriving DecidableEq, Repr

/-- The zone of an address, for an agent of spire `g` (R29). The lantern, an agent of no spire, has no window onto an own keep (log 40). -/
def zoneOf (g va : Nat) : Zone :=
  if 0x7F0000000000 ≤ va ∧ va < 0x7F1000000000 then
    let x := va - 0x7F0000000000
    if x / 0x400000 < 160 ∧ x % 0x400000 < 0x300000 then .keep (x / 0x400000) (x % 0x400000) else .hole
  else if 0x7F1000000000 ≤ va ∧ va < 0x7F2000000000 then
    if va - 0x7F1000000000 < 0x300000 ∧ g < 160 then .keep g (va - 0x7F1000000000) else .hole
  else .space

/-- Whose access it is: the spire of the agent, its address space, keep-window rights and privilege (R359). -/
structure Ctx where
  g    : Nat
  asid : BitVec 12
  ptbr : Word
  kwin : Vector Word 5
  prv  : Priv
  deriving DecidableEq, Repr

/-- The rights of a thread. -/
def Slot.ctx (v : Slot) (g : Nat) : Ctx := ⟨g, v.asid, v.ptbr, v.kwin, v.prv⟩

/-- The rights of the thread that executes. -/
def State.ctx (s : State) : Ctx := s.thr.ctx (tidSpire s.tid)

/-- Whether a kind of access reads, and whether it writes (R368). -/
def AccKind.reads : AccKind → Bool
  | .read | .readWrite => true
  | .fetch | .write => false

def AccKind.writes : AccKind → Bool
  | .write | .readWrite => true
  | .fetch | .read => false

/-- The page fault of a kind (R368). -/
def AccKind.pageCause : AccKind → Cause
  | .fetch => .pageX
  | .read => .pageR
  | .write | .readWrite => .pageW

/-- A fault with its TSUB and its byte address. -/
def fltAt (c : Cause) (sub va : Nat) : Flt := ⟨c, sub, wordOf va⟩

/-- The keep-window rights of spire `k` (R372): read and write. -/
def Ctx.keepRight (c : Ctx) (k : Nat) (kind : AccKind) : Bool :=
  let w := c.kwin[k / 32 % 5]'(Nat.mod_lt _ (by decide))
  decide (c.prv ≠ .user) ||
    ((!kind.reads || w.getLsbD (2 * (k % 32))) && (!kind.writes || w.getLsbD (2 * (k % 32) + 1)))

/-- A run of bytes of one 4 KiB page or keep window with its translation. -/
structure Chunk where
  va   : Nat
  key  : Nat
  len  : Nat
  keep : Bool
  pres : Bool
  once : Bool
  deriving DecidableEq, Repr

/-! ## Page tables -/

/-- A translation of a virtual page in a TLB (R370). -/
def TlbEntry.hits (e : TlbEntry) (asid : BitVec 12) (va : Nat) : Bool :=
  (e.glob || decide (e.asid = asid)) && decide (va / 2 ^ e.log = e.va / 2 ^ e.log)

def Spire.tlbFind (sp : Spire) (asid : BitVec 12) (va : Nat) : Option TlbEntry := sp.tlb.find? (fun e => e.hits asid va)

/-- The first of `n` bytes from a key whose read meets an uncorrectable error (R425), by its place. -/
def State.badIn (s : State) (k n : Nat) : Option Nat :=
  if s.bad.isEmpty then none else (List.range n).find? (fun i => s.bad.contains (k + i))

/-- The errors of `n` bytes from a key, once they are reported. -/
def State.heal (k n : Nat) (s : State) : State := { s with bad := s.bad.filter (fun b => decide (b < k ∨ k + n ≤ b)) }

/-- A page-table entry read as a load of the spire (R370), by the lantern at its home (log 40); none when the read is unbacked (R368)
or meets an uncorrectable error (R425). -/
def State.readPte (g pa : Nat) (s : State) : State × Option Word :=
  if (s.badIn pa 8).isSome then (s.heal pa 8, none)
  else
  match s.home pa with
  | .lpddr _ | .dome _ =>
    let (s, bs) := if g < Config.spires then s.cachedRead g pa 8 else (s, s.homeRead pa 8)
    (s, some (wordOf (leNat bs)))
  | .device => (s, some (s.devReg (pa - deviceBase)))
  | .keep _ _ | .host => (s, some (wordOf (leNat (s.homeRead pa 8))))
  | .peer _ | .unbacked => (s, none)

/-- The outcome of a walk: a translation, or the TSUB of R368 at which it fails. -/
inductive Walk where
  | found (e : TlbEntry)
  | fails (sub : Nat)
  deriving DecidableEq, Repr

/-- Whether a run of bytes lies wholly in directly addressable dome memory (R32). -/
def State.inDome (s : State) (pa n : Nat) : Bool :=
  let inDie (d : Nat) (base : Nat) : Bool := decide (base ≤ pa ∧ pa + n ≤ base + (s.die d).dome * 268435456)
  inDie 0 0x10000000000 || inDie 1 0x10080000000

/-- Whether a valid leaf of a page of 2^log bytes breaks the entry map of R367. (log 55: DEDUCED.) -/
def State.leafBad (s : State) (w : Word) (log : Nat) : Bool :=
  let pa := fld w 12 36 * 4096
  let pres := w.getLsbD 8
  decide (fld w 48 16 ≠ 0) || decide (fld w 10 2 ≠ 0) || (w.getLsbD 3 && !w.getLsbD 2)
    || decide (pa % 2 ^ log ≠ 0) || (w.getLsbD 9 && !pres) || (pres && !s.inDome pa (2 ^ log))
    || (w.getLsbD 7 && decide (log ≠ 16))

/-- The translation of a leaf. -/
def leafEntry (asid : BitVec 12) (va : Nat) (w : Word) (log : Nat) : TlbEntry where
  asid := asid
  glob := w.getLsbD 6
  va := va / 2 ^ log * 2 ^ log
  log := log
  pa := fld w 12 36 * 4096
  r := w.getLsbD 2
  w := w.getLsbD 3
  x := w.getLsbD 4
  u := w.getLsbD 5
  pres := w.getLsbD 8
  once := w.getLsbD 9

/-- The level-3 reads of R366: the group's first entry, then the page's own. -/
def State.walkLast (c : Ctx) (va table : Nat) (s : State) : State × Walk :=
  let (s, first) := s.readPte c.g (table + va / 65536 % 32 * 16 * 8)
  match first with
  | none => (s, .fails 4)
  | some w =>
    if w.getLsbD 0 && w.getLsbD 7 then
      if s.leafBad w 16 || !w.getLsbD 1 then (s, .fails 3) else (s, .found (leafEntry c.asid va w 16))
    else
      let (s, own) := s.readPte c.g (table + va / 4096 % 512 * 8)
      match own with
      | none => (s, .fails 4)
      | some w =>
        if !w.getLsbD 0 then (s, .fails 0)
        else if s.leafBad w 12 || !w.getLsbD 1 then (s, .fails 3)
        else (s, .found (leafEntry c.asid va w 12))

/-- The walk from a level down (R366, R367): `n` levels remain above level 3. -/
def State.walkFrom (c : Ctx) (va : Nat) : Nat → Nat → State → State × Walk
  | 0, table, s => s.walkLast c va table
  | n + 1, table, s =>
    -- level 2 − n; its index is VA bits (47 − 9l):(39 − 9l)
    let log := 21 + 9 * n
    let (s, e) := s.readPte c.g (table + va / 2 ^ log % 512 * 8)
    match e with
    | none => (s, .fails 4)
    | some w =>
      if !w.getLsbD 0 then (s, .fails 0)
      else if w.getLsbD 1 then
        if n = 2 || s.leafBad w log then (s, .fails 3) else (s, .found (leafEntry c.asid va w log))
      else if fld w 48 16 ≠ 0 ∨ fld w 2 8 ≠ 0 ∨ fld w 10 2 ≠ 0 then (s, .fails 3)
      else State.walkFrom c va n (fld w 12 36 * 4096) s

/-- A translation enters the TLB of spire `g`; where that is full, one leaves it (R370). (log 7: DESIGN CHOICE.) -/
def State.tlbAdd (g : Nat) (e : TlbEntry) (s : State) : State :=
  let sp := s.spire g
  if sp.tlb.length < Config.tlbEntries then s.setSpire g { sp with tlb := sp.tlb ++ [e] }
  else
    { s.setSpire g { sp with tlb := ldel sp.tlb (Config.victim s.fresh % Config.tlbEntries) ++ [e] } with fresh := s.fresh + 1 }

/-- A page walk (R366, R370): a translation found enters the spire's TLB; a failed one never does, one whose leaf maps an
unbacked address among them (R368). -/
def State.walk (c : Ctx) (va : Nat) (s : State) : State × Walk :=
  let (s, r) := State.walkFrom c va 3 (fld c.ptbr 12 36 * 4096) s
  match r with
  | .found e =>
    let sp := s.spire c.g
    if s.home (e.pa + va % 2 ^ e.log) = .unbacked then (s, .fails 2)
    else if (sp.tlbFind c.asid va).isSome then (s, r) else (s.tlbAdd c.g e, r)
  | .fails _ => (s, r)

/-! ## Walks in flight -/

/-- The order of slots within a turn (R127): by phase, and within a phase by core. -/
def slotKey (t : Nat) : Nat := tidSlot t * 2560 + tidCoreKey t

/-- The page that a thread's walk is for, with the cycle of its miss (R370): address space, 4 KiB page. -/
def Slot.walks (v : Slot) : Option (Nat × (BitVec 12 × Nat)) :=
  match v.park with
  | some ⟨_, .walk va _ n, _, _, _⟩ => some (n, (v.asid, va / 4096))
  | _ => none

/-- The page of an engine's miss. -/
def PageMiss.page (m : PageMiss) : BitVec 12 × Nat := (m.asid, m.va / 4096)

/-- The threads of a spire that wait for a walk, each with its place in the order of arrival and its page (R370). -/
def State.missing (s : State) (g : Nat) : List (Nat × (Nat × (BitVec 12 × Nat))) :=
  (s.slots.filter (fun e => decide (tidSpire e.1 = g))).filterMap (fun e =>
    e.2.walks.map (fun w => (w.1 * 65536 + slotKey e.1, (e.1, w.2))))

/-- The threads of a spire that wait for a walk, in order of arrival (R370). -/
def State.walkers (s : State) (g : Nat) : List (Nat × (BitVec 12 × Nat)) := (lsort Prod.fst (s.missing g)).map Prod.snd

/-- The pages that the agents of a spire wait for, in order of arrival, each once (R370). -/
def State.missed (s : State) (g : Nat) : List (BitVec 12 × Nat) :=
  ((lsort Prod.fst ((s.missing g).map (fun e => (e.1, e.2.2))
    ++ (s.spire g).misses.map (fun m => (m.missed * 65536 + 65535, m.page)))).map Prod.snd).eraseDups

/-- The pages that a spire's translation unit walks for: the first 64 that its agents wait for (R370). -/
def State.walking (s : State) (g : Nat) : List (BitVec 12 × Nat) := (s.missed g).take Config.walks

/-- The walk for the page that an engine of a spire has waited for longest ends, if it is one of those in flight: a translation found
enters the TLB (R370). -/
def State.engineWalk (g : Nat) (s : State) : State :=
  let sp := s.spire g
  match sp.misses with
  | [] => s
  | m :: rest =>
    if !(s.walking g).contains m.page then s
    else
      let s := s.setSpire g { sp with misses := rest }
      if (sp.tlbFind m.asid m.va).isSome then s else (s.walk ⟨g, m.asid, m.ptbr, Vector.replicate 5 0, .kernel⟩ m.va).1

/-! ## The checks of R169 -/

/-- What an access asks: `strict` for ordered, sync-word and atomic accesses, `sync` for those that need a full/empty bit,
`plainHost` when host memory refuses it (R169), `zero` for CZERO, `noPeer` when the peer range refuses it (R403). -/
structure Acc where
  kind   : AccKind
  va     : Word
  n      : Nat
  strict : Bool
  sync   : Bool
  noHost : Bool
  zero   : Bool
  noPeer : Bool
  deriving DecidableEq, Repr

/-- A load and a store. -/
def Acc.load (va : Word) (n : Nat) : Acc := ⟨.read, va, n, false, false, false, false, true⟩
def Acc.store (va : Word) (n : Nat) : Acc := ⟨.write, va, n, false, false, false, false, false⟩

/-- What the checks decide. -/
inductive Verdict where
  | pass (cs : List Chunk)
  | fault (f : Flt)
  | miss (va : Nat)
  | hold (cs : List Chunk)
  deriving DecidableEq, Repr

/-- The bytes of an access cut at page boundaries. -/
def pageCuts : Nat → Nat → Nat → List (Nat × Nat)
  | 0, _, _ => []
  | fuel + 1, va, n =>
    if n = 0 then []
    else
      let k := min n (4096 - va % 4096)
      (va, k) :: pageCuts fuel (va + k) (n - k)

/-- R31: bytes in two windows, or in a window and elsewhere. -/
def crossesWindows (g : Nat) (cuts : List (Nat × Nat)) : Bool :=
  let spireOf (c : Nat × Nat) : Option Nat := match zoneOf g c.1 with
    | .keep k _ => some k
    | _ => none
  match cuts with
  | [] => false
  | c :: rest => rest.any (fun d => decide (spireOf d ≠ spireOf c))

/-- What translation gives one cut (R31, R368, R372). -/
inductive Xlat where
  | to (c : Chunk)
  | fault (f : Flt)
  | miss (va : Nat)
  deriving DecidableEq, Repr

/-- The permission of a kind in a translation. -/
def TlbEntry.allows (e : TlbEntry) (kind : AccKind) : Bool :=
  match kind with
  | .fetch => e.x
  | .read => e.r
  | .write => e.w
  | .readWrite => e.r && e.w

/-- One cut translated (R31, R368, R372). -/
def State.translate (s : State) (c : Ctx) (kind : AccKind) (va n : Nat) : Xlat :=
  if 281474976710656 ≤ va then .fault (fltAt kind.pageCause 1 va)
  else
    match zoneOf c.g va with
    | .hole => .fault (fltAt kind.pageCause 0 va)
    | .keep k o =>
      if kind = .fetch then .fault (fltAt .pageX 0 va)
      else if c.keepRight k kind then .to ⟨va, keepKey k o, n, true, true, false⟩
      else .fault (fltAt .prot 2 va)
    | .space =>
      match (s.spire c.g).tlbFind c.asid va with
      | none => .miss va
      | some e =>
        let pa := e.pa + va % 2 ^ e.log
        if s.home pa = .unbacked then .fault (fltAt kind.pageCause 2 va)
        else if c.prv = .user ∧ e.u = false then .fault (fltAt .prot 1 va)
        else if !e.allows kind then .fault (fltAt .prot 0 va)
        else .to ⟨va, pa, n, false, e.pres, e.once⟩

/-- Where the byte of a virtual address lies for an agent, if its translation allows the access (R31, R368, R372). -/
def State.placeOf (s : State) (c : Ctx) (kind : AccKind) (va : Nat) : Option Nat :=
  match s.translate c kind va 1 with
  | .to k => some k.key
  | .fault _ => none
  | .miss _ =>
    match (s.walk c va).2 with
    | .found e => some (e.pa + va % 2 ^ e.log)
    | .fails _ => none

/-- The cuts of an access translated from the lowest byte up: the first that faults or misses decides (R368). -/
def State.translateAll (s : State) (c : Ctx) (kind : AccKind) : List (Nat × Nat) → List Chunk → Verdict
  | [], cs => .pass cs.reverse
  | (va, n) :: rest, cs =>
    match s.translate c kind va n with
    | .to k => State.translateAll s c kind rest (k :: cs)
    | .fault f => .fault f
    | .miss v => .miss v

/-- A copy's span over its levels (R321), given the span so far. -/
def spanFrom (span : Int) : List Level → Int
  | [] => span
  | l :: rest => spanFrom (if 1 < l.cnt then ((l.cnt : Int) - 1) * l.dstr + span else span) rest

def CopyShape.span (sh : CopyShape) : Int := spanFrom (2 ^ sh.loge : Nat) sh.levels.toList

/-- A registered window (R326): its bytes from its watermark to its end, by key in a keep and by virtual address elsewhere. -/
structure Win where
  keep : Bool
  wm   : Nat
  stop : Nat
  asid : BitVec 12
  ch   : Nat
  seq  : Nat
  dead : Bool
  deriving DecidableEq, Repr

/-- The window of a copy of channel `ch` in spire `g`. -/
def CopyEntry.win (g ch : Nat) (e : CopyEntry) : Option Win :=
  match e.port with
  | some _ => none
  | none =>
    let size := e.shape.span.toNat
    -- a window that ends at 2^48 has a watermark of 0 once it has landed whole (R324)
    let done := if e.wm.toNat < e.dst.toNat then size else e.wm.toNat - e.dst.toNat
    match zoneOf g e.dst.toNat with
    | .keep k o => some ⟨true, keepKey k o + done, keepKey k o + size, e.asid, ch, e.seq, decide (e.st = .aborted)⟩
    | _ => some ⟨false, e.dst.toNat + done, e.dst.toNat + size, e.asid, ch, e.seq, decide (e.st = .aborted)⟩

/-- The registered windows of a spire's tongs, channel by channel (R326). -/
def Spire.wins (g : Nat) (sp : Spire) : List Win :=
  (List.range 16).flatMap (fun ch => (sp.channel ch).queue.filterMap (fun e => e.win g ch))

/-- The lowest virtual address of a chunk at or above a window's watermark, if there is one (R326). -/
def Win.meets (w : Win) (asid : BitVec 12) (k : Chunk) : Option Nat :=
  if w.keep != k.keep || (!w.keep && decide (w.asid ≠ asid)) then none
  else
    let x := if k.keep then k.key else k.va
    let lo := max x w.wm
    if lo < min (x + k.len) w.stop then some (k.va + (lo - x)) else none

/-- The lowest byte of an access that aborted windows hold, with its channel (R326, R332). -/
def abortedAt (ws : List Win) (asid : BitVec 12) (cs : List Chunk) : Option (Nat × Nat) :=
  (ws.filter Win.dead).foldl (fun best w =>
    cs.foldl (fun best k =>
      match w.meets asid k, best with
      | some a, some (b, ch) => if a < b then some (a, w.ch) else some (b, ch)
      | some a, none => some (a, w.ch)
      | none, best => best) best) none

/-- Whether a window that is not aborted holds a byte of the access (R326). -/
def heldBy (ws : List Win) (asid : BitVec 12) (cs : List Chunk) : Bool :=
  (ws.filter (fun w => !w.dead)).any (fun w => cs.any (fun k => (w.meets asid k).isSome))

/-- The watermark row of R169. -/
def watermarkRow (ws : List Win) (asid : BitVec 12) (cs : List Chunk) : Verdict :=
  match abortedAt ws asid cs with
  | some (a, ch) => .fault (fltAt .cpyAborted ch a)
  | none => if heldBy ws asid cs then .hold cs else .pass cs

/-- The first chunk that a test names, as a fault at its first byte. -/
def firstBad (p : Chunk → Bool) (c : Cause) (sub : Nat) (cs : List Chunk) : Option Flt :=
  (cs.find? p).map (fun k => fltAt c sub k.va)

/-- Which home holds a chunk. -/
def State.chunkHome (s : State) (k : Chunk) : Home := s.home k.key

def Home.isPeer : Home → Bool
  | .peer _ => true
  | _ => false

/-- Whether CZERO may target a home (R169). -/
def Home.zeroable : Home → Bool
  | .keep _ _ | .lpddr _ | .dome _ | .peer _ => true
  | .device | .host | .unbacked => false

/-- The natural alignment of an access (R169): its size, or 8 for a block of doublewords that is no power of two. -/
def Acc.unit (a : Acc) : Nat := if 2 ^ Nat.log2 a.n = a.n then a.n else 8

/-- The rows of R169 after translation and before the watermarks. (log 66: DEDUCED.) -/
def State.attrRow (s : State) (c : Ctx) (a : Acc) (cs : List Chunk) : Option Flt :=
  if cs.any Chunk.once && decide (a.va.toNat % a.unit ≠ 0) then some (fltAt .align 1 a.va.toNat)
  else
    ((if c.prv = .user then firstBad (fun k => decide (s.chunkHome k = .device)) .priv 1 cs else none).orElse fun _ =>
    (if a.sync then firstBad (fun k => !(k.pres || (s.chunkHome k).isPeer)) .prot 0x20 cs else none).orElse fun _ =>
    (if a.noHost then firstBad (fun k => decide (s.chunkHome k = .host)) .prot 0x21 cs else none).orElse fun _ =>
    (if a.zero then firstBad (fun k => !(s.chunkHome k).zeroable) .prot 0x21 cs else none).orElse fun _ =>
    (if a.noPeer then firstBad (fun k => (s.chunkHome k).isPeer) .prot 0x24 cs else none))

/-- The rows of R169 up to translation, for an access whose bytes are given in runs. -/
def State.checkRuns (s : State) (c : Ctx) (a : Acc) (cuts : List (Nat × Nat)) : Verdict :=
  let va := a.va.toNat
  if a.strict && decide (va % a.n ≠ 0) then .fault (fltAt .align 1 va)
  else if 281474976710656 ≤ va then .fault (fltAt a.kind.pageCause 1 va)
  else if crossesWindows c.g cuts then .fault (fltAt .xspace 0 va)
  else s.translateAll c a.kind cuts []

/-- The rows of R169 up to translation. (log 68: DEDUCED.) -/
def State.checkSpace (s : State) (c : Ctx) (a : Acc) : Verdict :=
  s.checkRuns c a (pageCuts (a.n / 4096 + 2) a.va.toNat a.n)

/-- The rows of R169 that follow a translation. -/
def State.thenAttr (s : State) (c : Ctx) (a : Acc) : Verdict → Verdict
  | .pass cs =>
    match s.attrRow c a cs with
    | some f => .fault f
    | none => .pass cs
  | v => v

/-- The watermark row of R169 after the others. -/
def State.thenMarks (s : State) (c : Ctx) : Verdict → Verdict
  | .pass cs => watermarkRow ((s.spire c.g).wins c.g) c.asid cs
  | v => v

/-- The checks of R169 but the watermark row. -/
def State.checkAttr (s : State) (c : Ctx) (a : Acc) : Verdict := s.thenAttr c a (s.checkSpace c a)

/-- The checks of R169 in their order. -/
def State.check (s : State) (c : Ctx) (a : Acc) : Verdict := s.thenMarks c (s.checkAttr c a)

/-- The lowest byte of a checked access that meets an uncorrectable error (R425), by virtual address. -/
def State.badByte (s : State) (cs : List Chunk) : Option Nat := cs.findSome? (fun k => (s.badIn k.key k.len).map (fun i => k.va + i))

/-- A checked access before it is performed: an uncorrectable error at one of its bytes is reported as its fault (R425). -/
def State.meetErrors (kind : AccKind) (cs : List Chunk) (s : State) : State × Option Flt :=
  match s.badByte cs with
  | some va => (cs.foldl (fun s k => s.heal k.key k.len) s, some (fltAt kind.pageCause 5 va))
  | none => (s, none)

/-- An access of the thread that executes: checked, then performed; a miss parks MEM for the walk (R370), a held byte parks
WMARK (R326), a fault traps (R169); one that reads meets uncorrectable errors (R425). -/
def State.access (a : Acc) (go : List Chunk → State → State) (s : State) : State :=
  match s.check s.ctx a with
  | .pass cs =>
    match (if a.kind.reads then s.meetErrors a.kind cs else (s, none)) with
    | (s, some f) => s.trapFlt f
    | (s, none) => go cs s
  | .fault f => s.trapFlt f
  | .miss va => s.park .mem (.walk va a.kind s.now)
  | .hold cs => s.park .wmark (.wait (.watermark (cs.map (fun k => (k.va, k.key, k.len)))))

/-- What an engine's miss comes to (R370): a walk of its own, or it waits for one that another agent's miss has begun, or, while
64 are in flight, for its turn. -/
inductive EngineMiss where
  | walks
  | shares
  | queues
  deriving DecidableEq, Repr

/-- An engine of a spire misses; the lantern, an agent of no spire, waits for none (log 40). -/
def State.engineMiss (s : State) (c : Ctx) (va : Nat) : EngineMiss :=
  if Config.spires ≤ c.g then .walks
  else if (s.missed c.g).contains (c.asid, va / 4096) then .shares
  else if Config.walks ≤ (s.missed c.g).length then .queues
  else .walks

/-- A verdict with its misses walked where `waits` allows no wait, and as R370 says where it does. A walk takes no time of its own
(log 10). -/
def State.settle (waits : Bool) (c : Ctx) (test : State → Verdict) : Nat → State → State × Verdict
  | 0, s => (s, test s)
  | fuel + 1, s =>
    match test s with
    | .miss va =>
      match (if waits then s.engineMiss c va else .walks) with
      | .shares => (s, .miss va)
      | .queues =>
        let sp := s.spire c.g
        (s.setSpire c.g { sp with misses := sp.misses ++ [⟨c.asid, c.ptbr, va, s.now⟩] }, .miss va)
      | .walks =>
        let (s', r) := s.walk c va
        match r with
        | .found _ => State.settle waits c test fuel s'
        | .fails sub => (s', .fault (fltAt .pageR sub va))
    | v => (s, v)

/-- A walk's fault takes the kind of the access (R368). -/
def Verdict.ofKind (kind : AccKind) : Verdict → Verdict
  | .fault f => if f.cause = .pageR then .fault { f with cause := kind.pageCause } else .fault f
  | v => v

/-- An agent of no spire leaves no cached line and no translation behind (log 40). -/
def State.leaveNo (g : Nat) (s : State) : State := if Config.spires ≤ g then { s with spires := tdel g s.spires } else s

/-- An engine's checked access meets uncorrectable errors (R425). -/
def State.engineMeets (kind : AccKind) (v : Verdict) (s : State) : State × Verdict :=
  match v with
  | .pass cs =>
    match s.meetErrors kind cs with
    | (s, some f) => (s, .fault f)
    | (s, none) => (s, .pass cs)
  | v => (s, v)

/-- The checks of an engine's access (R325, R263, R311, R353): `marks` when the watermark row applies; a miss waits as R370 says.
(log 10: DESIGN CHOICE.) -/
def State.engineCheck (c : Ctx) (a : Acc) (marks : Bool) (s : State) : State × Verdict :=
  let (s, v) := State.settle true c (fun s => if marks then s.check c a else s.checkAttr c a) (a.n / 4096 + 3) s
  (s.leaveNo c.g).engineMeets a.kind (v.ofKind a.kind)

/-- The checks of an access that waits for nothing: its misses are walked at once. (log 10: DESIGN CHOICE.) -/
def State.checkNow (c : Ctx) (a : Acc) (s : State) : State × Verdict :=
  let (s, v) := State.settle false c (fun s => s.checkAttr c a) (a.n / 4096 + 3) s
  (s.leaveNo c.g).engineMeets a.kind (v.ofKind a.kind)

/-! ## Pieces -/

/-- The cuts of R170 within an access: at every 32 bytes, and at every 8 when `fine` (misaligned, or device registers). -/
def cutsFrom (fine : Bool) (va n : Nat) : Nat → Nat → List (Nat × Nat)
  | 0, _ => []
  | fuel + 1, off =>
    if n ≤ off then []
    else
      let x := va + off
      let k := min (n - off) (if fine then 8 - x % 8 else 32 - x % 32)
      (off, k) :: cutsFrom fine va n fuel (off + k)

/-- The key of a byte of an access. -/
def keyAt (cs : List Chunk) (va : Nat) : Nat :=
  match cs.find? (fun k => decide (k.va ≤ va ∧ va < k.va + k.len)) with
  | some k => k.key + (va - k.va)
  | none => 0

/-- The pieces of an access (R170, R448). -/
def piecesOf (cs : List Chunk) (va n : Nat) : List Piece :=
  let dev := cs.any (fun k => decide (deviceBase ≤ k.key ∧ k.key < 0x30000000000))
  let fine := decide (va % n ≠ 0) || dev
  (cutsFrom fine va n (n + 1) 0).map (fun c => ⟨c.1, keyAt cs (va + c.1), c.2, va + c.1⟩)

/-- The pieces of a store with their bytes. -/
def storePieces (cs : List Chunk) (va n : Nat) (bs : List Byte) : List StorePiece :=
  (piecesOf cs va n).map (fun p => ⟨p.key, (bs.drop p.off).take p.len, cs.any Chunk.once, va + p.off⟩)

/-! ## Reads and writes at the homes -/

/-- Bytes that a peer would answer with: the spec gives no value (log 3). -/
def State.peerBytes : Nat → State → State × List Byte
  | 0, s => (s, [])
  | n + 1, s =>
    let (s, b) := s.freeByte
    let (s, bs) := State.peerBytes n s
    (s, b :: bs)

/-- A piece read by an agent of spire `g` (R163, R165). -/
def State.readPiece (g k n : Nat) (s : State) : State × List Byte :=
  match s.home k with
  | .lpddr _ | .dome _ => s.cachedRead g k n
  | .device => (s, s.devRead k n)
  | .peer _ => State.peerBytes n s
  | .keep _ _ | .host | .unbacked => (s, s.homeRead k n)

/-- The port through which traffic to a peer leaves (R404). (log 65: DEDUCED.) -/
def State.peerPort (s : State) (p : Nat) : Nat := (s.die0.peers[p % 32]'(Nat.mod_lt _ (by decide))).2

/-- What leaves to a peer (R404). -/
def State.sendPeer (p : Nat) (o : PeerOut) (s : State) : State :=
  { s with peerOut := s.peerOut ++ [{ o with port := s.peerPort p }] }

/-- The peer of a key of the peer range (R32). -/
def peerOf (k : Nat) : Nat := k / 2199023255552 % 32

/-- An operation that a peer has answered: what left to it earlier is performed before it (R186, R404). -/
def State.askPeer (p : Nat) (o : PeerOut) (s : State) : State :=
  State.sendPeer p o { s with peerOut := s.peerOut.filter (fun e => decide (peerOf e.key ≠ p)) }

/-- Whether every access on its way to a peer has been acknowledged (R181). -/
def State.peersAcked (s : State) : Bool := s.peerOut.all (fun o => !o.posted)

/-- A piece written by an agent of spire `g` (R163, R165). -/
def State.writePiece (g k : Nat) (bs : List Byte) (s : State) : State :=
  match s.home k with
  | .lpddr _ | .dome _ => s.cachedWrite g k bs
  | .device => s.devWrite k bs
  | .peer p => s.sendPeer p ⟨0, k, bs, none, none, true⟩
  | .keep _ _ | .host => s.homeWrite k bs
  | .unbacked => s

/-- Any dirty sector of the line is written back and the line dropped before an operation at the home (R166). -/
def State.toHome (g k : Nat) (s : State) : State := if (s.home k).cached then s.flushLine g k else s

/-- A piece written at its home on a ONCE page (R164, R172): its words become full. -/
def State.onceWrite (g : Nat) (p : StorePiece) (s : State) : State :=
  let s := (s.toHome g p.key).homeWrite p.key p.data
  (wordsOf p.key p.data.length).foldl (fun s k => s.turnBit k true) s

/-- Whether a write would change a byte of a full word (R172); the words' bytes are those of the home. -/
def State.clash (s : State) (p : StorePiece) : Option Nat :=
  let here := s.homeRead p.key p.data.length
  let bad (i : Nat) : Bool := s.isFull (p.key + i) && decide (here.getD i 0 ≠ p.data.getD i 0)
  match (List.range p.data.length).find? bad with
  | some i => some ((p.va + i) / 8 * 8)
  | none => none

/-- The word of the first piece on a ONCE page that clashes (R171, R172). -/
def State.secondWrite (g : Nat) (ps : List StorePiece) (s : State) : State × Option Nat :=
  let once := ps.filter StorePiece.once
  let s := once.foldl (fun s p => s.toHome g p.key) s
  (s, once.findSome? s.clash)

/-- The pieces of a checked write performed together (R171). -/
def State.writePieces (g : Nat) (ps : List StorePiece) (s : State) : State :=
  ps.foldl (fun s p => if p.once then s.onceWrite g p else s.writePiece g p.key p.data) s

/-- A checked write by an engine: SECOND_WRITE before any byte (R171, R172), otherwise performed. -/
def State.engineWrite (g : Nat) (ps : List StorePiece) (s : State) : Except Flt State :=
  let (s, r) := s.secondWrite g ps
  match r with
  | some va => .error (fltAt .secondWrite 0 va)
  | none => .ok (s.writePieces g ps)

/-- The pieces of a checked read gathered. -/
def State.readPieces (g : Nat) : List Piece → State → State × List Byte
  | [], s => (s, [])
  | p :: rest, s =>
    let (s, bs) := s.readPiece g p.key p.len
    let (s, more) := State.readPieces g rest s
    (s, bs ++ more)

/-- A read by an engine, checked without or with watermarks, all pieces at once (log 10). -/
def State.engineRead (c : Ctx) (va : Word) (n : Nat) (marks : Bool) (s : State) : State × Except Verdict (List Byte) :=
  let (s, v) := s.engineCheck c (.load va n) marks
  match v with
  | .pass cs =>
    let (s, bs) := State.readPieces c.g (piecesOf cs va.toNat n) s
    (s, .ok bs)
  | v => (s, .error v)

/-- A write by an engine, checked then performed. -/
def State.engineStore (c : Ctx) (va : Word) (bs : List Byte) (marks : Bool) (s : State) : State × Option Verdict :=
  let n := bs.length
  let (s, v) := s.engineCheck c (.store va n) marks
  match v with
  | .pass cs =>
    match s.engineWrite c.g (storePieces cs va.toNat n bs) with
    | .ok s => (s, none)
    | .error f => (s, some (.fault f))
  | v => (s, some v)

/-! ## Scopes -/

/-- A scope that reaches beyond the spire (R181). -/
def scopeWide : Scope → Bool
  | .core | .spire => false
  | .die | .package | .system => true

/-- The release side of a scope for an agent of spire `g` whose stores have reached the cache (R181). -/
def State.releaseAt (g : Nat) (sc : Scope) (s : State) : State := if scopeWide sc then s.writeBackAll g else s

/-- The acquire side of a scope for an agent of spire `g` (R181). -/
def State.acquireAt (g : Nat) (sc : Scope) (s : State) : State := if scopeWide sc then s.dropClean g else s

end Sys2Proof.Machine
end

