-- ==== Sys2Proof/Machine/Approx.lean ====
section
/-! DEFINITION. The five correctly rounded approximations (R117, R118). Each is computed in 320-bit fixed point and
rounded once; a value that is not exact is handed to the rounding with its last bit set. -/

namespace Sys2Proof.Machine

/-- The fixed point of the series: 320 fraction bits. -/
def fixBits : Nat := 320
def fixOne : Nat := 2 ^ fixBits

/-- `n` terms of 1/(2k+1) × z^(2k+1), from the power `p` = z^(2k+1) and the index k: the series of artanh. -/
def artanhFrom (z2 : Nat) : Nat → Nat → Nat → Nat
  | 0, _, _ => 0
  | n + 1, k, p => p / (2 * k + 1) + artanhFrom z2 n (k + 1) (p * z2 / fixOne)

/-- artanh z for a fixed-point z of at most 1/3. -/
def artanhFix (z : Nat) : Nat := artanhFrom (z * z / fixOne) 105 0 z

/-- ln 2 = 2 artanh (1/3). -/
def ln2Fix : Nat := 2 * artanhFix (fixOne / 3)

/-- `n` terms of y^k/k!, from the term `t` of index k. -/
def expFrom (y : Nat) : Nat → Nat → Nat → Nat
  | 0, _, _ => 0
  | n + 1, k, t => t + expFrom y n (k + 1) (t * y / fixOne / (k + 1))

/-- 2^f for a fixed-point f below 1. -/
def exp2Fix (f : Nat) : Nat := expFrom (f * ln2Fix / fixOne) 75 0 fixOne

/-- log2 of m × 2^e, m not 0, as a signed fixed-point number. -/
def log2Fix (m : Nat) (e : Int) : Int :=
  let l := Nat.log2 m
  let one := 2 ^ l
  -- m / 2^l lies in 1 to 2, so (x − 1)/(x + 1) is at most 1/3
  let z := (m - one) * fixOne / (m + one)
  let frac := 2 * artanhFix z * fixOne / ln2Fix
  (e + (l : Int)) * (fixOne : Int) + (frac : Int)

/-- A signed fixed-point value that is known to be inexact, delivered in FP32 with RNE. -/
def deliverFix (v : Int) : Nat × Flags :=
  fp32.deliver .rne (.fin (decide (v < 0)) (2 * v.natAbs + 1) (-(fixBits : Int) - 1))

/-- FRCP.S (R117, R118). -/
def fRcp (a : FVal) : Nat × Flags :=
  match a with
  | .nan s => (fp32.canonNaN, if s then flagNV else 0)
  | .inf s => (fp32.withSign s 0, 0)
  | .fin s m e =>
    if m = 0 then (fp32.withSign s fp32.infCode, flagDZ)
    else
      let (q, x) := quotient (fp32.mant + 1) 1 0 m e
      fp32.deliver .rne (.fin s q x)

/-- FRSQ.S (R117, R118): the root of 2^k ÷ m, its last bit set unless the root is exact. -/
def fRsq (a : FVal) : Nat × Flags :=
  match a with
  | .nan s => (fp32.canonNaN, if s then flagNV else 0)
  | .inf s => if s then (fp32.canonNaN, flagNV) else (0, 0)
  | .fin s m e =>
    if m = 0 then (fp32.withSign s fp32.infCode, flagDZ)
    else if s then (fp32.canonNaN, flagNV)
    else
      let e0 := e % 2
      let m1 := m * 2 ^ e0.toNat
      let k : Nat := 64
      let r := isqrt (2 ^ (2 * k) / m1)
      fp32.deliver .rne (.fin false (2 * r + (if r * r * m1 = 2 ^ (2 * k) then 0 else 1)) (-(e - e0) / 2 - (k : Int) - 1))

/-- 2^(n + f/2^320), with f below one, delivered as an inexact value. -/
def deliverPow (n : Int) (f : Nat) : Nat × Flags :=
  fp32.deliver .rne (.fin false (2 * exp2Fix f + 1) (n - (fixBits : Int) - 1))

/-- FEXP2.S (R117, R118). -/
def fExp2 (a : FVal) : Nat × Flags :=
  match a with
  | .nan s => (fp32.canonNaN, if s then flagNV else 0)
  | .inf s => if s then (0, 0) else (fp32.infCode, 0)
  | .fin s m e =>
    if m = 0 then fp32.deliver .rne (.fin false 1 0)
    else
      -- a in fixed point; an FP32 value has no bit below 2^(−149)
      let mag : Nat := if 0 ≤ e then m * 2 ^ e.toNat * fixOne else m * 2 ^ (fixBits - (-e).toNat)
      let v : Int := if s then -(mag : Int) else (mag : Int)
      if 128 * (fixOne : Int) ≤ v then (fp32.infCode, flagOF ||| flagNX)
      else if v ≤ -(150 * (fixOne : Int)) then (0, flagUF ||| flagNX)
      else
        let n := v / (fixOne : Int)
        let f := (v % (fixOne : Int)).toNat
        if f = 0 then fp32.deliver .rne (.fin false 1 n) else deliverPow n f

/-- FLOG2.S (R117, R118); of 1.0 it is +0. (log 95: DESIGN CHOICE.) -/
def fLog2 (a : FVal) : Nat × Flags :=
  match a with
  | .nan s => (fp32.canonNaN, if s then flagNV else 0)
  | .inf s => if s then (fp32.canonNaN, flagNV) else (fp32.infCode, 0)
  | .fin s m e =>
    if m = 0 then (fp32.withSign true fp32.infCode, flagDZ)
    else if s then (fp32.canonNaN, flagNV)
    else if m = 2 ^ Nat.log2 m then fp32.deliver .rne (FVal.ofInt (e + (Nat.log2 m : Int)))
    else deliverFix (log2Fix m e)

/-- FTANH.S (R117, R118); a zero keeps its sign (log 95: DESIGN CHOICE). Below 2^(−12) the exact value lies just under |a|, closer than any rounding boundary. -/
def fTanh (a : FVal) : Nat × Flags :=
  match a with
  | .nan s => (fp32.canonNaN, if s then flagNV else 0)
  | .inf s => (fp32.withSign s 0x3F800000, 0)
  | .fin s m e =>
    if m = 0 then (fp32.withSign s 0, 0)
    else if 4 < e + (bitLen m : Int) then (fp32.withSign s 0x3F800000, flagNX)
    else if e + (bitLen m : Int) ≤ -12 then
      fp32.deliver .rne (.fin s (m * 2 ^ 64 - 1) (e - 64))
    else
      -- e^(2|a|) = 2^t with t = 2|a| / ln 2; tanh = (E − 1)/(E + 1)
      let twoA := m * 2 ^ (fixBits + 1 + e.toNat) / 2 ^ (-e).toNat
      let t := twoA * fixOne / ln2Fix
      let big := exp2Fix (t % fixOne) * 2 ^ (t / fixOne)
      let v := (big - fixOne) * fixOne / (big + fixOne)
      deliverFix (if s then -(v : Int) else (v : Int))

end Sys2Proof.Machine
end

