-- ==== Sys2Proof/Machine/Flags.lean ====
section
/-! DEFINITION. FCSR and the flags of scalar floating point (R83, R84, R110). -/

namespace Sys2Proof.Machine

/-- The code of a rounding mode (R77). -/
def RMode.code : RMode → Nat
  | .rne => 0 | .rtz => 1 | .rup => 2 | .rdn => 3 | .rna => 4

/-- The mode of a code; 5, 6 and 7 name none (R83). -/
def RMode.ofCode : Nat → Option RMode
  | 0 => some .rne | 1 => some .rtz | 2 => some .rup | 3 => some .rdn | 4 => some .rna | _ => none

/-- FCSR as a word (R83). -/
def Slot.fcsr (v : Slot) : Word :=
  BitVec.ofNat 64 (v.rm.code * 65536 + v.en.toNat * 256 + v.fl.toNat)

/-- FCSR written (R83): a reserved rounding mode leaves RM. -/
def Slot.setFcsr (w : Word) (v : Slot) : Slot :=
  { v with rm := (RMode.ofCode (fld w 16 3)).getD v.rm, en := w.extractLsb' 8 6, fl := w.extractLsb' 0 6 }

/-- The number of the lowest set flag; 0 when none is set. -/
def lowestFlag (f : Flags) : Nat :=
  if f.getLsbD 0 then 0 else if f.getLsbD 1 then 1 else if f.getLsbD 2 then 2 else if f.getLsbD 3 then 3
  else if f.getLsbD 4 then 4 else if f.getLsbD 5 then 5 else 0

/-- R84, R110: the raised flags are ORed into FCSR; an enabled one traps FPE with the destination unwritten, otherwise the
instruction goes on. -/
def State.raise (fl : Flags) (go : State → State) (s : State) : State :=
  let v := s.thr
  let s' := s.setThr { v with fl := v.fl ||| fl }
  if fl &&& v.en ≠ 0 then s'.trap .fpe (lowestFlag (fl &&& v.en)) (fl.setWidth 64)
  else go s'

end Sys2Proof.Machine
end

