-- ==== Sys2Proof/Machine/Operands.lean ====
section
/-! DEFINITION. The operand forms: immediates and effective addresses (R40, R42), the conditions of compares (R102), and the
arithmetic of the integer classes (R94 to R101). -/

namespace Sys2Proof.Machine

/-- sext(imm 9:0) (R40). -/
def imm10 (i : BitVec 10) : Word := i.signExtend 64

/-- JALR's offset: sext(imm 9:0) × 4 (R40). -/
def immJump (i : BitVec 10) : Word := imm10 i <<< 2

/-- The B-format offset: sext(offset) × 4 (R40). -/
def immBranch (o : BitVec 22) : Word := o.signExtend 64 <<< 2

/-- LUI's value: sext(imm << 16) (R40, R100). -/
def immUpper (i : BitVec 16) : Word := ((i.setWidth 32) <<< 16).signExtend 64

/-- The M-format address: X[base] + sext(imm) × s (R40, R167). -/
def memAddr (base : Word) (i : BitVec 10) (size : Nat) : Word := base + imm10 i * BitVec.ofNat 64 size

/-- The conditions of R102. -/
inductive CmpCond where
  | eq | ne | lt | ltu | le | leu | tst
  deriving DecidableEq, Repr

/-- cond(x, y) of R102. -/
def CmpCond.holds (c : CmpCond) (x y : Word) : Bool :=
  match c with
  | .eq => decide (x = y)
  | .ne => decide (x ≠ y)
  | .lt => BitVec.slt x y
  | .ltu => BitVec.ult x y
  | .le => BitVec.sle x y
  | .leu => BitVec.ule x y
  | .tst => decide (x &&& y ≠ 0)

/-- Bits 127:64 of the signed product (R94). -/
def mulHigh (a b : Word) : Word := ((a.signExtend 128 * b.signExtend 128).extractLsb' 64 64)

/-- Bits 127:64 of the unsigned product (R94). -/
def mulHighU (a b : Word) : Word := ((a.setWidth 128 * b.setWidth 128).extractLsb' 64 64)

/-- DIV (R94, R95): truncated towards zero; the most negative number over −1 wraps to itself. -/
def divS (a b : Word) : Word := if b = 0 then BitVec.allOnes 64 else BitVec.sdiv a b

/-- DIVU (R95). -/
def divU (a b : Word) : Word := if b = 0 then BitVec.allOnes 64 else BitVec.udiv a b

/-- REM (R95): the sign of the dividend. -/
def remS (a b : Word) : Word := if b = 0 then a else BitVec.srem a b

/-- REMU (R95). -/
def remU (a b : Word) : Word := if b = 0 then a else BitVec.umod a b

/-- The shift amount: bits 5:0 (R94). -/
def shAmt (b : Word) : Nat := b.toNat % 64

/-- The W forms' shift amount: bits 4:0 (R96). -/
def shAmtW (b : Word) : Nat := b.toNat % 32

/-- A 32-bit result sign-extended from bit 31 (R96). -/
def sext32 (w : BitVec 32) : Word := w.signExtend 64

/-- Bits 31:0 of a word. -/
def low32 (a : Word) : BitVec 32 := a.setWidth 32

/-- The number of zero bits above the highest set bit; 64 for zero (R97). -/
def countLeading (a : Word) : Word := BitVec.ofNat 64 (64 - bitLen a.toNat)

/-- The number of zero bits below bit `i` + `n` from bit `i` up, stopping at the first set bit. -/
def trailingFrom (a : Word) : Nat → Nat → Nat
  | 0, _ => 0
  | n + 1, i => if a.getLsbD i then 0 else 1 + trailingFrom a n (i + 1)

/-- The number of zero bits below the lowest set bit; 64 for zero (R97). -/
def countTrailing (a : Word) : Word := BitVec.ofNat 64 (trailingFrom a 64 0)

/-- The number of set bits among the lowest `n`. -/
def popFrom (a : Word) : Nat → Nat
  | 0 => 0
  | n + 1 => (if a.getLsbD n then 1 else 0) + popFrom a n

/-- The number of set bits (R97). -/
def popCount (a : Word) : Word := BitVec.ofNat 64 (popFrom a 64)

/-- Bit i of the result is bit 63 − i (R97). -/
def bitReverse (a : Word) : Word := a.reverse

/-- Byte i of the result is byte 7 − i (R97). -/
def byteSwap (a : Word) : Word :=
  a.extractLsb' 0 8 ++ a.extractLsb' 8 8 ++ a.extractLsb' 16 8 ++ a.extractLsb' 24 8
    ++ a.extractLsb' 32 8 ++ a.extractLsb' 40 8 ++ a.extractLsb' 48 8 ++ a.extractLsb' 56 8

/-- The smaller and greater of two words, signed and unsigned (R97). -/
def minS (a b : Word) : Word := if BitVec.sle a b then a else b
def maxS (a b : Word) : Word := if BitVec.sle a b then b else a
def minU (a b : Word) : Word := if BitVec.ule a b then a else b
def maxU (a b : Word) : Word := if BitVec.ule a b then b else a

/-- |sa|; the most negative number gives itself (R97). -/
def absS (a : Word) : Word := if a.msb then -a else a

/-- PGET's word (R105): p7 … p1 in bits 7:1, 1 in bit 0. -/
def Slot.predWord (v : Slot) : Word :=
  BitVec.ofNat 64 (1 + ((List.range 7).map (fun i => if v.getP (Fin.ofNat 8 (i + 1)) then 2 ^ (i + 1) else 0)).sum)

/-- PSET (R105): p1 to p7 from bits 1 to 7. -/
def Slot.setPreds (w : Word) (v : Slot) : Slot := { v with p := Vector.ofFn (fun i => w.getLsbD i.val) }

end Sys2Proof.Machine
end

