-- ==== Sys2Proof/Machine/LoadStore.lean ====
section
/-! DEFINITION. Loads, stores, ordered accesses, sync words, atomics, fences and cache operations, and the machine's own
steps that perform them (R163 to R187). -/

namespace Sys2Proof.Machine

/-! ## Loads -/

/-- The byte of a key that a slot's store queue holds, the youngest store's (R164). -/
def queueByte (k : Nat) : List QEntry → Option Byte
  | [] => none
  | .amo _ _ :: rest => queueByte k rest
  | .store _ ps :: rest =>
    match queueByte k rest with
    | some b => some b
    | none =>
      match ps.find? (fun p => decide (p.key ≤ k ∧ k < p.key + p.data.length)) with
      | some p => p.data[k - p.key]?
      | none => none

/-- Bytes read at a home with the slot's own queued bytes over them (R164). -/
def forward (q : List QEntry) (k : Nat) (bs : List Byte) : List Byte :=
  (List.range bs.length).map (fun i => (queueByte (k + i) q).getD (bs.getD i 0))

/-- The bytes an atomic names. -/
def AmoReq.size (r : AmoReq) : Nat := if r.wide then 8 else 4

/-- Whether two runs of bytes overlap. -/
def overlaps (k n j m : Nat) : Bool := decide (k < j + m ∧ j < k + n)

/-- Whether a queued atomic touches a run of bytes: a load waits for it (R182). -/
def amoQueued (k n : Nat) (q : List QEntry) : Bool :=
  q.any (fun e => match e with
    | .amo _ r => overlaps k n r.key r.size
    | .store _ _ => false)

/-- Whether a queue entry touches a run of bytes. -/
def QEntry.touches (k n : Nat) : QEntry → Bool
  | .amo _ r => overlaps k n r.key r.size
  | .store _ ps => ps.any (fun p => overlaps k n p.key p.data.length)

/-- A loaded value extended to a register (R167). -/
def extend (ext : LoadExt) (size : Nat) (w : Nat) : Word :=
  match ext with
  | .sext => (BitVec.ofNat (8 * size) w).signExtend 64
  | .zext | .pair => BitVec.ofNat 64 w

/-- A load's bytes written to its register or pair (R42, R167). -/
def Slot.loaded (d : Reg) (ext : LoadExt) (size : Nat) (bs : List Byte) (v : Slot) : Slot :=
  match ext with
  | .pair => v.setPair d (wordOf (leNat (bs.take 8))) (wordOf (leNat (bs.drop 8)))
  | _ => v.setX d (extend ext size (leNat bs))

/-- Whether a run of bytes lies in near banks of a core (R168, R200). -/
def nearRun (g core k n : Nat) : Bool :=
  let base := keepKey g 0
  decide (base ≤ k ∧ k + n ≤ base + 3145728 ∧ nearCore (k - base) = core ∧ nearCore (k + n - 1 - base) = core)

/-- The bank of a keep offset (R200). -/
def keepBank (o : Nat) : Nat :=
  let w := o % 196608 / 4
  192 * nearCore o + ((w % 192) ^^^ (w / 192 % 16))

/-- The most pieces of a load that one bank holds (R203). -/
def bankTurns (g : Nat) (ps : List Piece) : Nat :=
  let bank (p : Piece) : Nat := keepBank (p.key - keepKey g 0)
  (ps.map (fun p => (ps.filter (fun q => decide (bank q = bank p))).length)).foldl max 0

/-- R203: a fragment load whose elements all lie in near banks, one of which holds `k > 1` of them, is ready at the `k`-th turn
after its issue, not before. -/
def State.bankBusy (s : State) (t since : Nat) (r : LoadReq) : Bool :=
  let g := tidSpire t
  decide (1 < r.todo.length) && r.todo.all (fun p => nearRun g (tidCore t) p.key p.len)
    && decide (s.turnOf g < since + bankTurns g r.todo)

/-- The bytes of a load gathered by place. -/
def gather (n : Nat) (got : List (Nat × Byte)) : List Byte :=
  (List.range n).map (fun i => ((got.find? (fun e => decide (e.1 = i))).map Prod.snd).getD 0)

/-- A load that has passed its checks (R168): at once from near banks, otherwise the thread parks MEM. (log 9: DESIGN CHOICE.) -/
def State.startLoad (ps : List Piece) (size : Nat) (ext : LoadExt) (d : Reg) (acq : Option Scope) (s : State) : State :=
  let v := s.thr
  let g := tidSpire s.tid
  if acq.isNone && ps.all (fun p => nearRun g (tidCore s.tid) p.key p.len && !amoQueued p.key p.len v.queue) then
    let bs := ps.flatMap (fun p => forward v.queue p.key (s.homeRead p.key p.len))
    s.setThr (v.loaded d ext size bs).step
  else s.park .mem (.load ⟨ps, [], size, ext, d, acq⟩)

/-- A load or ordered load at an address. -/
def State.loadAt (va : Word) (strict : Bool) (size : Nat) (ext : LoadExt) (d : Reg) (acq : Option Scope) (s : State) : State :=
  s.access { Acc.load va size with strict := strict } (fun cs s => s.startLoad (piecesOf cs va.toNat size) size ext d acq)

/-- The loads of R167. -/
def loadOp (g : Guard) (d a : Reg) (i : BitVec 10) (size : Nat) (ext : LoadExt) (s : State) :
    Host.Outcome State Fault Refusal :=
  guarded g (fun s => s.loadAt (memAddr (s.getX a) i size) false size ext d none) s

/-- LB (R167). -/
def execLb (g : Guard) (d a : Reg) (i : BitVec 10) (s : State) : Host.Outcome State Fault Refusal := loadOp g d a i 1 .sext s
/-- LBU (R167). -/
def execLbu (g : Guard) (d a : Reg) (i : BitVec 10) (s : State) : Host.Outcome State Fault Refusal := loadOp g d a i 1 .zext s
/-- LH (R167). -/
def execLh (g : Guard) (d a : Reg) (i : BitVec 10) (s : State) : Host.Outcome State Fault Refusal := loadOp g d a i 2 .sext s
/-- LHU (R167). -/
def execLhu (g : Guard) (d a : Reg) (i : BitVec 10) (s : State) : Host.Outcome State Fault Refusal := loadOp g d a i 2 .zext s
/-- LW (R167). -/
def execLw (g : Guard) (d a : Reg) (i : BitVec 10) (s : State) : Host.Outcome State Fault Refusal := loadOp g d a i 4 .sext s
/-- LWU (R167). -/
def execLwu (g : Guard) (d a : Reg) (i : BitVec 10) (s : State) : Host.Outcome State Fault Refusal := loadOp g d a i 4 .zext s
/-- LD (R167). -/
def execLd (g : Guard) (d a : Reg) (i : BitVec 10) (s : State) : Host.Outcome State Fault Refusal := loadOp g d a i 8 .zext s
/-- LQ (R167). -/
def execLq (g : Guard) (d a : Reg) (i : BitVec 10) (s : State) : Host.Outcome State Fault Refusal := loadOp g d a i 16 .pair s

/-- A thread's fault that is decided away from its core (R169): taken at its parked instruction. -/
def State.faultAt (t : Nat) (f : Flt) (s : State) : State := s.trapAt t f.cause (wordOf f.sub) f.val 0

/-- The lowest byte of a load's missing pieces that meets an uncorrectable error (R425), by virtual address. -/
def State.badPiece (s : State) (ps : List Piece) : Option Nat :=
  (ps.filterMap (fun p => (s.badIn p.key p.len).map (fun i => p.va + i))).min?

/-- A load's piece that has arrived (R168, R170): read now, under the slot's queued bytes; the last one ends the park. A
killed thread's load is discarded when it arrives (R151), and one that meets an uncorrectable error faults at the lowest (R425). -/
def State.respond (t k : Nat) (s : State) : State :=
  let v := s.slot t
  match v.park with
  | some ⟨_, .load r, since, _, _⟩ =>
    match r.todo[k]? with
    | none => s
    | some p =>
      if s.bankBusy t since r || amoQueued p.key p.len v.queue then s
      else if v.st ≠ .drain ∧ (s.badIn p.key p.len).isSome = true then
        (r.todo.foldl (fun s q => s.heal q.key q.len) s).faultAt t (fltAt .pageR 5 ((s.badPiece r.todo).getD 0))
      else
        let (s, bs) := s.readPiece (tidSpire t) p.key p.len
        let bs := forward v.queue p.key bs
        let r := { r with todo := ldel r.todo k, got := r.got ++ (List.range bs.length).map (fun i => (p.off + i, bs.getD i 0)) }
        if r.todo.isEmpty then
          if v.st = .drain then s.setSlot t { v with park := none }
          else
            let s := s.setSlot t (v.loaded r.d r.ext r.size (gather r.size r.got)).resume
            match r.acq with
            | some sc => s.acquireAt (tidSpire t) sc
            | none => s
        else s.reparkAt t (.load r)
  | some ⟨_, .reply d w, _, _, _⟩ =>
    if v.st = .drain then s.setSlot t { v with park := none } else s.setSlot t (v.setX d w).resume
  | _ => s

/-- LOAD_RESPONSE: piece `k` of the load of a slot, or a value on its way back, arrives (R168, R170, R178). -/
def execEvLoadResponse (tid k : Nat) (s : State) : Host.Outcome State Fault Refusal := .next (s.respond tid k)

/-! ## Stores -/

/-- A store that has passed its checks enters the queue (R164); on a ONCE page it parks until performed. -/
def State.startStore (ps : List StorePiece) (s : State) : State :=
  let v := s.thr
  if ps.any StorePiece.once then s.park .mem (.once ps)
  else if Config.storeQueueEntries ≤ v.queue.length then s.park .mem (.wait .storeRoom)
  else
    let (s, n) := s.tick
    s.setThr ({ v with queue := v.queue ++ [.store n ps] } : Slot).step

/-- A store of bytes at an address. -/
def State.storeAt (va : Word) (strict : Bool) (bs : List Byte) (s : State) : State :=
  let n := bs.length
  s.access { Acc.store va n with strict := strict } (fun cs s => s.startStore (storePieces cs va.toNat n bs))

/-- The low bytes of a register, or a pair's sixteen (R167). -/
def State.storeData (s : State) (d : Reg) (size : Nat) : List Byte :=
  if size = 16 then leBytes 8 (s.getX d).toNat ++ leBytes 8 (s.getX (d + 1)).toNat else leBytes size (s.getX d).toNat

/-- The stores of R167. -/
def storeOp (g : Guard) (d a : Reg) (i : BitVec 10) (size : Nat) (s : State) : Host.Outcome State Fault Refusal :=
  guarded g (fun s => s.storeAt (memAddr (s.getX a) i size) false (s.storeData d size)) s

/-- SB (R167). -/
def execSb (g : Guard) (d a : Reg) (i : BitVec 10) (s : State) : Host.Outcome State Fault Refusal := storeOp g d a i 1 s
/-- SH (R167). -/
def execSh (g : Guard) (d a : Reg) (i : BitVec 10) (s : State) : Host.Outcome State Fault Refusal := storeOp g d a i 2 s
/-- SW (R167). -/
def execSw (g : Guard) (d a : Reg) (i : BitVec 10) (s : State) : Host.Outcome State Fault Refusal := storeOp g d a i 4 s
/-- SD (R167). -/
def execSd (g : Guard) (d a : Reg) (i : BitVec 10) (s : State) : Host.Outcome State Fault Refusal := storeOp g d a i 8 s
/-- SQ (R167). -/
def execSq (g : Guard) (d a : Reg) (i : BitVec 10) (s : State) : Host.Outcome State Fault Refusal := storeOp g d a i 16 s

/-- Whether an older entry of the queue touches a run of bytes: overlapping stores leave in program order (R164). -/
def blockedBy (older : List QEntry) (k n : Nat) : Bool := older.any (fun e => e.touches k n)

/-- A store waits for the thread's own earlier accesses to its bytes. -/
def State.performQueued (t q k : Nat) (s : State) : State :=
  let v := s.slot t
  match v.queue[q]? with
  | some (.store n ps) =>
    match ps[k]? with
    | none => s
    | some p =>
      if blockedBy (v.queue.take q) p.key p.data.length then s
      else
        let rest := ldel ps k
        let queue := if rest.isEmpty then ldel v.queue q else lset v.queue q (.store n rest)
        (s.setSlot t { v with queue := queue }).writePiece (tidSpire t) p.key p.data
  | _ => s

/-- STORE_PERFORMED: piece `k` of entry `q` of a slot's store queue is performed (R164, R170); `q` = 8 is the store to a ONCE
page that parks the thread, checked and performed whole (R171, R172). -/
def execEvStorePerformed (tid q k : Nat) (s : State) : Host.Outcome State Fault Refusal :=
  if q < 8 then .next (s.performQueued tid q k)
  else
    let v := s.slot tid
    match v.park with
    | some ⟨_, .once ps, _, _, _⟩ =>
      if ps.any (fun p => blockedBy v.queue p.key p.data.length) then .next s
      else
        match s.engineWrite (tidSpire tid) ps with
        | .error f => if v.st = .drain then .next (s.setSlot tid { v with park := none }) else .next (s.faultAt tid f)
        | .ok s =>
          let v := s.slot tid
          .next (s.setSlot tid (if v.st = .drain then { v with park := none } else v.resume))
    | _ => .next s

/-! ## Ordered loads and stores -/

/-- The bytes of a size code (R45). -/
def ordBytes : OrdSize → Nat
  | .b => 1 | .h => 2 | .w => 4 | .d => 8 | .q => 16

/-- LACQ (R173). -/
def execLacq (g : Guard) (d a : Reg) (sc : Scope) (z : OrdSize) (s : State) : Host.Outcome State Fault Refusal :=
  guarded g (fun s => s.loadAt (s.getX a) true (ordBytes z) (if z = .q then .pair else .zext) d (some sc)) s

/-- A thread's earlier accesses are performed: its store queue is empty (R173, R179). Otherwise it parks until they are. -/
def State.drained (why : Reason) (go : State → State) (s : State) : State :=
  if s.thr.queue.isEmpty then go s else s.park why (.wait .drained)

/-- The accesses of the thread that executes are performed at a scope before it goes on, those of the package to its peers
acknowledged for SYSTEM (R181). (log 86: DEDUCED.) -/
def State.release (why : Reason) (sc : Scope) (go : State → State) (s : State) : State :=
  s.drained why (fun s =>
    if sc = .system ∧ s.peersAcked = false then s.park why (.wait .acked) else go (s.releaseAt (tidSpire s.tid) sc))

/-- SREL (R173): checked, then its earlier accesses are performed at the scope, then queued as a store. -/
def execSrel (g : Guard) (d a : Reg) (sc : Scope) (z : OrdSize) (s : State) : Host.Outcome State Fault Refusal :=
  guarded g (fun s =>
    let va := s.getX a
    let bs := s.storeData d (ordBytes z)
    s.access { Acc.store va bs.length with strict := true }
      (fun cs s => s.release .mem sc (fun s => s.startStore (storePieces cs va.toNat bs.length bs)))) s

/-! ## Sync words -/

/-- The kind of a sync-word operation's access (R368). -/
def SyncOp.kind : SyncOp → AccKind
  | .ldf | .peekf => .read
  | .ldfe | .arrive | .expect => .readWrite
  | .stef | .stf | .sto | .sete => .write

/-- Whether the member is a release, and whether it is an acquire (R174). -/
def SyncOp.releases : SyncOp → Bool
  | .ldf | .peekf => false
  | _ => true

def SyncOp.acquires : SyncOp → Bool
  | .ldf | .ldfe | .peekf | .arrive | .expect => true
  | _ => false

/-- The members that the peer range refuses (R403). -/
def SyncOp.notToPeer : SyncOp → Bool
  | .ldf | .ldfe | .stef | .peekf => true
  | _ => false

/-- A count-barrier word's fields (R175). -/
def cbGen (w : Word) : Nat := fld w 48 16
def cbArrived (w : Word) : Nat := fld w 24 24
def cbPending (w : Word) : Nat := fld w 0 24

/-- A count-barrier word of its fields (R175). -/
def cbWord (gen arrived pending : Nat) : Word := wordOf (atBit (gen % 65536) 48 + atBit (arrived % 16777216) 24 + pending % 16777216)

/-- The completion rule of R176: the new word and whether it completed. -/
def cbSettle (gen arrived pending : Nat) : Word × Bool :=
  if pending ≠ 0 ∧ arrived = pending then (cbWord (gen + 1) 0 0, true) else (cbWord gen arrived pending, false)

/-- EXPECT (R176): the overflow fault's TSUB, or the new word and completion. -/
def cbExpect (w v : Word) : Except Nat (Word × Bool) :=
  if v.toNat ≥ 16777216 ∨ cbPending w + v.toNat ≥ 16777216 then .error 0
  else .ok (cbSettle (cbGen w) (cbArrived w) (cbPending w + v.toNat))

/-- ARRIVE (R176). -/
def cbArrive (w : Word) : Except Nat (Word × Bool) :=
  if cbArrived w = 16777215 then .error 1 else .ok (cbSettle (cbGen w) (cbArrived w + 1) (cbPending w))

/-- What a sync-word operation does to its word (R174, R176). -/
inductive SyncOutcome where
  | waits
  | fault (f : Flt)
  /-- The new word and bit, when written, and the value returned. -/
  | done (write : Option Word) (full : Bool) (value : Word)
  deriving DecidableEq, Repr

/-- A sync-word operation on a word and its bit (R174, R176). -/
def SyncReq.apply (r : SyncReq) (w : Word) (full : Bool) : SyncOutcome :=
  let clash (x : Word) (o : SyncOutcome) : SyncOutcome :=
    if r.once && full && decide (x ≠ w) then .fault (fltAt .secondWrite 0 r.va) else o
  match r.op with
  | .ldf => if full then .done none true w else .waits
  | .ldfe => if full then .done none false w else .waits
  | .stef => if full then .waits else .done (some r.v) true 0
  | .stf => clash r.v (.done (some r.v) true 0)
  | .sto => if full then .fault (fltAt .secondWrite 0 r.va) else .done (some r.v) true 0
  | .sete => .done none false 0
  | .peekf => .done none full (boolWord full)
  | .expect =>
    match cbExpect w r.v with
    | .error sub => .fault (fltAt .expectOvf sub r.va)
    | .ok (x, done) => clash x (.done (some x) done 0)
  | .arrive =>
    match cbArrive w with
    | .error sub => .fault (fltAt .expectOvf sub r.va)
    | .ok (x, done) => clash x (.done (some x) done w)

/-- The doubleword at a home. -/
def State.homeWord (s : State) (k : Nat) : Word := wordOf (leNat (s.homeRead k 8))

/-- A sync-word operation performed at its home by an agent of spire `g` (R166, R174): its outcome, and the state after. -/
def State.syncHome (g : Nat) (r : SyncReq) (s : State) : State × SyncOutcome :=
  let s := s.toHome g r.key
  let o := r.apply (s.homeWord r.key) (s.isFull r.key)
  match o with
  | .done write full _ =>
    let s := match write with
      | some x => s.homeWrite r.key (leBytes 8 x.toNat)
      | none => s
    (if r.op = .peekf then s else s.turnBit r.key full, o)
  | _ => (s, o)

/-- A peer's answer to an operation (R404, R405): the spec fixes neither the value nor whether the peer refuses (log 3). -/
def peerFault (w : Word) (own : Option Cause) (va : Nat) : Option Flt :=
  match fld w 0 2 with
  | 1 => some (fltAt .prot 0x25 va)
  | 2 => own.map (fun c => fltAt c 0 va)
  | _ => none

/-- The fault that the operation itself can meet at its home. -/
def SyncOp.ownFault : SyncOp → Option Cause
  | .sto => some .secondWrite
  | .arrive | .expect => some .expectOvf
  | _ => none

/-- A result of a sync-word operation given to its thread: the register or predicate, and the acquire (R174). -/
def State.syncDone (t : Nat) (r : SyncReq) (w : Word) (s : State) : State :=
  let v := s.slot t
  let v := match r.op with
    | .ldf | .ldfe | .arrive => v.setX r.d w
    | .peekf => v.setP r.p (decide (w ≠ 0))
    | _ => v
  let s := (s.setSlot t v.resume)
  let s := { s with waits := s.waits.filter (fun e => decide (e.2 ≠ t)) }
  if r.op.acquires && (decide (r.op ≠ .peekf) || decide (w ≠ 0)) then s.acquireAt (tidSpire t) r.scope else s

/-- A sync-word operation of a slot is tried at its home (R132, R174), where one that reads meets uncorrectable errors (R425). A waiter that found its list full joins it at the first retry
that finds room. (log 98: DESIGN CHOICE.) Its way to the home, with its reason MEM, and its wait are one park for the watchdog (R135).
(log 102: DESIGN CHOICE.) -/
def State.trySync (t : Nat) (s : State) : State :=
  let v := s.slot t
  match v.park with
  | some ⟨_, .sync r _ listed, since, raised, n⟩ =>
    if blockedBy v.queue r.key 8 then s
    else
      match s.home r.key with
      | .peer p =>
        let s := s.askPeer p ⟨0, r.key, [], none, some r, false⟩
        let (s, c) := s.freeWord
        let (s, w) := s.freeWord
        if v.st = .drain then s.setSlot t { v with park := none }
        else
          match peerFault c r.op.ownFault r.va with
          | some f => s.faultAt t f
          | none => s.syncDone t r w
      | _ =>
        let bad := if r.op.kind.reads then s.badIn r.key 8 else none
        let (s, o) : State × SyncOutcome := match bad with
          | some i => (s.heal r.key 8, .fault (fltAt r.op.kind.pageCause 5 (r.va + i)))
          | none => s.syncHome (tidSpire t) r
        if v.st = .drain then s.setSlot t { v with park := none }
        else
          match o with
          | .fault f => { s.faultAt t f with waits := s.waits.filter (fun e => decide (e.2 ≠ t)) }
          | .done _ _ w => s.syncDone t r w
          | .waits =>
            if listed then s
            else
              let l := waitList r.key
              let join := decide ((s.waits.filter (fun e => decide (e.1 = l))).length < Config.waitListEntries)
              let s := s.setSlot t { v with park := some ⟨.sync, .sync r true join, since, raised, n⟩ }
              if join then { s with waits := s.waits ++ [(l, t)] } else s
  | _ => s

/-- SYNC_WORD_AT_HOME: a slot's operation reaches its home, or an unlisted waiter retries (R132, R174). -/
def execEvSyncWordAtHome (tid : Nat) (s : State) : Host.Outcome State Fault Refusal := .next (s.trySync tid)

/-- WAITLIST_RETRY: the waiters of a list retry in the order they joined (R132). -/
def execEvWaitlistRetry (list : Nat) (s : State) : Host.Outcome State Fault Refusal :=
  .next (((s.waits.filter (fun e => decide (e.1 = list))).map Prod.snd).foldl (fun s t => s.trySync t) s)

/-- The sync-word instructions (R169, R174): checked; a release drains first; then to the home. -/
def syncOp (g : Guard) (op : SyncOp) (d : Reg) (p : PReg) (a : Reg) (sc : Scope) (s : State) :
    Host.Outcome State Fault Refusal :=
  guarded g (fun s =>
    let va := s.getX a
    let v := s.getX d
    s.access ⟨op.kind, va, 8, true, true, false, false, op.notToPeer⟩ (fun cs s =>
      let r : SyncReq := ⟨op, keyAt cs va.toNat, va.toNat, cs.any Chunk.once, sc, d, p, v⟩
      let go (s : State) : State := s.park .mem (.sync r false false)
      if op.releases then s.release .mem sc go else go s)) s

/-- LDF (R174). -/
def execLdf (g : Guard) (d a : Reg) (sc : Scope) (s : State) : Host.Outcome State Fault Refusal := syncOp g .ldf d 0 a sc s
/-- LDFE (R174). -/
def execLdfe (g : Guard) (d a : Reg) (sc : Scope) (s : State) : Host.Outcome State Fault Refusal := syncOp g .ldfe d 0 a sc s
/-- STEF (R174). -/
def execStef (g : Guard) (d a : Reg) (sc : Scope) (s : State) : Host.Outcome State Fault Refusal := syncOp g .stef d 0 a sc s
/-- STF (R174). -/
def execStf (g : Guard) (d a : Reg) (sc : Scope) (s : State) : Host.Outcome State Fault Refusal := syncOp g .stf d 0 a sc s
/-- STO (R174). -/
def execSto (g : Guard) (d a : Reg) (sc : Scope) (s : State) : Host.Outcome State Fault Refusal := syncOp g .sto d 0 a sc s
/-- SETE (R174). -/
def execSete (g : Guard) (a : Reg) (sc : Scope) (s : State) : Host.Outcome State Fault Refusal := syncOp g .sete 0 0 a sc s
/-- PEEKF (R174). -/
def execPeekf (g : Guard) (p : PReg) (a : Reg) (sc : Scope) (s : State) : Host.Outcome State Fault Refusal := syncOp g .peekf 0 p a sc s
/-- ARRIVE (R174, R176). -/
def execArrive (g : Guard) (d a : Reg) (sc : Scope) (s : State) : Host.Outcome State Fault Refusal := syncOp g .arrive d 0 a sc s
/-- EXPECT (R174, R176). -/
def execExpect (g : Guard) (d a : Reg) (sc : Scope) (s : State) : Host.Outcome State Fault Refusal := syncOp g .expect d 0 a sc s

/-! ## Atomics -/

/-- The smaller or larger of two numbers of a width. -/
def amoPick (w : Nat) (signed greater : Bool) (m b : BitVec w) : BitVec w :=
  let le := if signed then BitVec.sle m b else BitVec.ule m b
  if le != greater then m else b

/-- The new word of an atomic, none where it writes nothing (R177): `f` is the format that AFADD adds in. -/
def amoNew (w : Nat) (f : Fmt) (op : AmoOp) (m b c : BitVec w) : Option (BitVec w) :=
  match op with
  | .add => some (m + b)
  | .and => some (m &&& b)
  | .or => some (m ||| b)
  | .xor => some (m ^^^ b)
  | .min => some (amoPick w true false m b)
  | .max => some (amoPick w true true m b)
  | .minu => some (amoPick w false false m b)
  | .maxu => some (amoPick w false true m b)
  | .swp => some b
  | .cas => if m = c then some b else none
  | .fadd => some (BitVec.ofNat w (fAdd f .rne (f.decode m.toNat) (f.decode b.toNat)).1)

/-- The new low bits of an atomic on a word's old bits. -/
def AmoReq.apply (r : AmoReq) (m : Nat) : Option Nat :=
  if r.wide then (amoNew 64 fp64 r.op (BitVec.ofNat 64 m) r.b r.c).map BitVec.toNat
  else (amoNew 32 fp32 r.op (BitVec.ofNat 32 m) (r.b.setWidth 32) (r.c.setWidth 32)).map BitVec.toNat

/-- The old value as returned (R177). -/
def AmoReq.result (r : AmoReq) (m : Nat) : Word :=
  if r.wide ∨ r.op = .fadd then BitVec.ofNat 64 m else (BitVec.ofNat 32 m).signExtend 64

/-- An atomic performed at its home by an agent of spire `g` (R163, R166, R172, R177): the old value, or its fault. -/
def State.amoHome (g : Nat) (r : AmoReq) (s : State) : State × Except Flt Word :=
  if (s.badIn r.key r.size).isSome then (s.heal r.key r.size, .error (fltAt .pageW 5 (r.va + (s.badIn r.key r.size).getD 0)))
  else
  match s.home r.key with
  | .device =>
    let m := leNat (s.devRead r.key r.size)
    match r.apply m with
    | some x => (s.devWrite r.key (leBytes r.size x), .ok (r.result m))
    | none => (s, .ok (r.result m))
  | .peer p =>
    let s := s.askPeer p ⟨0, r.key, [], some r, none, false⟩
    let (s, c) := s.freeWord
    let (s, w) := s.freeWord
    match peerFault c none r.va with
    | some f => (s, .error f)
    | none => (s, .ok (if r.wide then w else r.result (w.toNat % 2 ^ 32)))
  | _ =>
    let s := s.toHome g r.key
    let m := leNat (s.homeRead r.key r.size)
    match r.apply m with
    | none => (s, .ok (r.result m))
    | some x =>
      if r.once then
        let p : StorePiece := ⟨r.key, leBytes r.size x, true, r.va⟩
        match s.clash p with
        | some va => (s, .error (fltAt .secondWrite 0 va))
        | none => ((s.homeWrite r.key p.data).turnBit r.key true, .ok (r.result m))
      else (s.homeWrite r.key (leBytes r.size x), .ok (r.result m))

/-- The fault of a posted atomic, whose thread has gone on: an event of the thread (R425). (log 92: DEDUCED.) -/
def State.postedFault (t : Nat) (f : Flt) (s : State) : State :=
  let v := s.slot t
  if v.st = .run ∨ v.st = .park then s.setSlot t { v with events := v.events ++ [⟨f.cause, wordOf f.sub, f.val⟩] } else s

/-- The whole store queue of a slot performed in order: before a message or a SPAWN carries what came before it to another
thread (R147, R161), and when a launched thread exits (R393); the spec lets a store be performed at any time (R164). -/
def State.flushQueue (t : Nat) (s : State) : State :=
  let v := s.slot t
  v.queue.foldl (fun s e => match e with
    | .store _ ps => ps.foldl (fun s p => s.writePiece (tidSpire t) p.key p.data) s
    | .amo _ r => match s.amoHome (tidSpire t) r with
      | (s, .error f) => s.postedFault t f
      | (s, .ok _) => s) (s.setSlot t { v with queue := [] })

/-- The access to ONCE memory, or the atomic, that a slot's thread has issued and waits for is performed, its answer dropped (R164,
R177). -/
def State.performFlight (t : Nat) (s : State) : State :=
  match (s.slot t).park with
  | some ⟨_, .once ps, _, _, _⟩ => match s.engineWrite (tidSpire t) ps with
    | .ok s => s
    | .error _ => s
  | some ⟨_, .atomic r _, _, _, _⟩ => (s.amoHome (tidSpire t) r).1
  | _ => s

/-- ATOMIC_AT_HOME: the atomic in entry `q` of a slot's queue, or (`q` = 8) the one its thread parks on, is performed (R177,
R178); its old value then travels back. -/
def execEvAtomicAtHome (tid q : Nat) (s : State) : Host.Outcome State Fault Refusal :=
  let v := s.slot tid
  let g := tidSpire tid
  if q < 8 then
    match v.queue[q]? with
    | some (.amo _ r) =>
      if blockedBy (v.queue.take q) r.key r.size then .next s
      else
        match (s.setSlot tid { v with queue := ldel v.queue q }).amoHome g r with
        | (s, .error f) => .next (s.postedFault tid f)
        | (s, .ok _) => .next s
    | _ => .next s
  else
    match v.park with
    | some ⟨_, .atomic r d, _, _, _⟩ =>
      if blockedBy v.queue r.key r.size then .next s
      else
        match s.amoHome g r with
        | (s, .ok w) => .next (s.reparkAt tid (.reply d w))
        | (s, .error f) =>
          if v.st = .drain then .next (s.setSlot tid { s.slot tid with park := none }) else .next (s.faultAt tid f)
    | _ => .next s

/-- Whether host memory refuses the atomic (R169). -/
def AmoOp.noHost : AmoOp → Bool
  | .add | .swp | .cas => false
  | _ => true

/-- The atomics (R169, R177, R178): with d = x0 posted into the store queue, otherwise the thread parks MEM. -/
def amoInstr (g : Guard) (op : AmoOp) (wide : Bool) (d a b : Reg) (s : State) : Host.Outcome State Fault Refusal :=
  guarded g (fun s =>
    let va := s.getX a
    s.access ⟨.readWrite, va, if wide then 8 else 4, true, false, op.noHost, false, false⟩ (fun cs s =>
      let r : AmoReq := ⟨op, wide, keyAt cs va.toNat, va.toNat, cs.any Chunk.once, s.getX b, s.getX d⟩
      if d ≠ 0 || r.once then s.park .mem (.atomic r d)
      else
        let v := s.thr
        if Config.storeQueueEntries ≤ v.queue.length then s.park .mem (.wait .storeRoom)
        else
          let (s, n) := s.tick
          s.setThr ({ v with queue := v.queue ++ [.amo n r] } : Slot).step)) s

/-- AADD.D (R177). -/
def execAaddD (g : Guard) (d a b : Reg) (s : State) : Host.Outcome State Fault Refusal := amoInstr g .add true d a b s
/-- AAND.D (R177). -/
def execAandD (g : Guard) (d a b : Reg) (s : State) : Host.Outcome State Fault Refusal := amoInstr g .and true d a b s
/-- AOR.D (R177). -/
def execAorD (g : Guard) (d a b : Reg) (s : State) : Host.Outcome State Fault Refusal := amoInstr g .or true d a b s
/-- AXOR.D (R177). -/
def execAxorD (g : Guard) (d a b : Reg) (s : State) : Host.Outcome State Fault Refusal := amoInstr g .xor true d a b s
/-- AMIN.D (R177). -/
def execAminD (g : Guard) (d a b : Reg) (s : State) : Host.Outcome State Fault Refusal := amoInstr g .min true d a b s
/-- AMAX.D (R177). -/
def execAmaxD (g : Guard) (d a b : Reg) (s : State) : Host.Outcome State Fault Refusal := amoInstr g .max true d a b s
/-- AMINU.D (R177). -/
def execAminuD (g : Guard) (d a b : Reg) (s : State) : Host.Outcome State Fault Refusal := amoInstr g .minu true d a b s
/-- AMAXU.D (R177). -/
def execAmaxuD (g : Guard) (d a b : Reg) (s : State) : Host.Outcome State Fault Refusal := amoInstr g .maxu true d a b s
/-- ASWP.D (R177). -/
def execAswpD (g : Guard) (d a b : Reg) (s : State) : Host.Outcome State Fault Refusal := amoInstr g .swp true d a b s
/-- ACAS.D (R177). -/
def execAcasD (g : Guard) (d a b : Reg) (s : State) : Host.Outcome State Fault Refusal := amoInstr g .cas true d a b s
/-- AFADD.D (R177). -/
def execAfaddD (g : Guard) (d a b : Reg) (s : State) : Host.Outcome State Fault Refusal := amoInstr g .fadd true d a b s
/-- AADD.W (R177). -/
def execAaddW (g : Guard) (d a b : Reg) (s : State) : Host.Outcome State Fault Refusal := amoInstr g .add false d a b s
/-- AAND.W (R177). -/
def execAandW (g : Guard) (d a b : Reg) (s : State) : Host.Outcome State Fault Refusal := amoInstr g .and false d a b s
/-- AOR.W (R177). -/
def execAorW (g : Guard) (d a b : Reg) (s : State) : Host.Outcome State Fault Refusal := amoInstr g .or false d a b s
/-- AXOR.W (R177). -/
def execAxorW (g : Guard) (d a b : Reg) (s : State) : Host.Outcome State Fault Refusal := amoInstr g .xor false d a b s
/-- AMIN.W (R177). -/
def execAminW (g : Guard) (d a b : Reg) (s : State) : Host.Outcome State Fault Refusal := amoInstr g .min false d a b s
/-- AMAX.W (R177). -/
def execAmaxW (g : Guard) (d a b : Reg) (s : State) : Host.Outcome State Fault Refusal := amoInstr g .max false d a b s
/-- AMINU.W (R177). -/
def execAminuW (g : Guard) (d a b : Reg) (s : State) : Host.Outcome State Fault Refusal := amoInstr g .minu false d a b s
/-- AMAXU.W (R177). -/
def execAmaxuW (g : Guard) (d a b : Reg) (s : State) : Host.Outcome State Fault Refusal := amoInstr g .maxu false d a b s
/-- ASWP.W (R177). -/
def execAswpW (g : Guard) (d a b : Reg) (s : State) : Host.Outcome State Fault Refusal := amoInstr g .swp false d a b s
/-- ACAS.W (R177). -/
def execAcasW (g : Guard) (d a b : Reg) (s : State) : Host.Outcome State Fault Refusal := amoInstr g .cas false d a b s
/-- AFADD.W (R177). -/
def execAfaddW (g : Guard) (d a b : Reg) (s : State) : Host.Outcome State Fault Refusal := amoInstr g .fadd false d a b s

/-! ## Fences -/

/-- FENCE.ACQ (R179): earlier loads are complete; earlier atomics are performed; then the acquire. -/
def execFenceAcq (g : Guard) (sc : Scope) (s : State) : Host.Outcome State Fault Refusal :=
  guarded g (fun s =>
    if s.thr.queue.any (fun e => match e with
        | .amo _ _ => true
        | .store _ _ => false) then s.park .mem (.wait .drained)
    else (s.acquireAt (tidSpire s.tid) sc).advance) s

/-- FENCE.REL (R179). -/
def execFenceRel (g : Guard) (sc : Scope) (s : State) : Host.Outcome State Fault Refusal :=
  guarded g (fun s => s.release .mem sc State.advance) s

/-- FENCE.AR (R179). -/
def execFenceAr (g : Guard) (sc : Scope) (s : State) : Host.Outcome State Fault Refusal :=
  guarded g (fun s => s.release .mem sc (fun s => (s.acquireAt (tidSpire s.tid) sc).advance)) s

/-- Whether a copy has still to land: its signal comes after that, and so does a freeze at it (R318, R328). -/
def Channel.toLand (c : Channel) (e : CopyEntry) : Bool :=
  decide (e.st = .queued ∨ e.st = .landing) || (decide (e.st = .frozen) && decide (c.side ≠ 2))

/-- Whether a copy the thread issued has neither landed nor been aborted (R179). -/
def Spire.copiesOut (sp : Spire) (h : BitVec 24) : Bool :=
  (List.range 16).any (fun ch => (sp.channel ch).queue.any (fun e =>
    decide (e.issuer = .thread h) && (sp.channel ch).toLand e))

/-- Whether a record the thread sent has not returned (R179). -/
def Spire.recordsOut (sp : Spire) (t : Nat) : Bool :=
  sp.regions.any (fun r => r.2.flights.any (fun f => decide (f.tid = t)))

/-- FENCE.CPY (R179): as AR, and every copy the thread issued has landed or been aborted. -/
def execFenceCpy (g : Guard) (sc : Scope) (s : State) : Host.Outcome State Fault Refusal :=
  guarded g (fun s => s.release .engine sc (fun s =>
    if (s.spire (tidSpire s.tid)).copiesOut (s.thr.handle s.tid) then s.park .engine (.wait (.copiesLanded sc))
    else (s.acquireAt (tidSpire s.tid) sc).advance)) s

/-- FENCE.SRV (R179): as AR, and every record the thread sent has returned. -/
def execFenceSrv (g : Guard) (sc : Scope) (s : State) : Host.Outcome State Fault Refusal :=
  guarded g (fun s => s.release .engine sc (fun s =>
    if (s.spire (tidSpire s.tid)).recordsOut s.tid then s.park .engine (.wait .recordsBack)
    else (s.acquireAt (tidSpire s.tid) sc).advance)) s

/-! ## Cache operations -/

/-- The line of a key that a cache operation acts on: only where the spire cache holds its home (R180). -/
def State.onLine (k : Nat) (f : State → State) (s : State) : State := if (s.home k).cached then f s else s

/-- A cache operation checked as a load (R180), which parks MEM until it completes. -/
def cacheOp (g : Guard) (a : Reg) (f : Nat → State → State) (s : State) : Host.Outcome State Fault Refusal :=
  guarded g (fun s =>
    s.access ⟨.read, s.getX a, 1, false, false, false, false, false⟩ (fun cs s =>
      let k := keyAt cs (s.getX a).toNat
      (s.onLine k (f k)).park .mem (.finish .now 0 0))) s

/-- The line's clean sectors leave the cache (R180). -/
def State.dropCleanLine (g k : Nat) (s : State) : State :=
  let sp := s.spire g
  s.setSpire g { sp with cache := sp.cache.filter (fun e => decide (e.1 / 8 ≠ k / 256) || decide (e.2.dirty ≠ 0)) }

/-- The instruction lines of a 256-byte line leave a core's instruction cache (R180). -/
def State.dropCode (core k : Nat) (s : State) : State :=
  let c := s.core core
  s.setCore core { c with icache := c.icache.filter (fun e => decide (e.1 / 4 ≠ k / 256)) }

/-- CFLUSH (R180). -/
def execCflush (g : Guard) (a : Reg) (s : State) : Host.Outcome State Fault Refusal :=
  cacheOp g a (fun k s => s.flushLine (tidSpire s.tid) k) s

/-- CINV (R180). -/
def execCinv (g : Guard) (a : Reg) (s : State) : Host.Outcome State Fault Refusal :=
  cacheOp g a (fun k s => (s.dropCleanLine (tidSpire s.tid) k).dropCode (tidCoreKey s.tid) k) s

/-- CCLEAN (R180). -/
def execCclean (g : Guard) (a : Reg) (s : State) : Host.Outcome State Fault Refusal :=
  cacheOp g a (fun k s =>
    let g := tidSpire s.tid
    s.writeBackList g ((lineSectors k).filter (fun sec => (tget sec (s.spire g).cache).isSome))) s

/-- CPREF (R180): the line's sectors are fetched; a failed check drops the request. -/
def execCpref (g : Guard) (a : Reg) (s : State) : Host.Outcome State Fault Refusal :=
  guarded g (fun s =>
    let va := s.getX a
    let (s, v) := s.checkNow s.ctx ⟨.read, va, 1, false, false, false, false, false⟩
    let s := match v with
      | .pass cs =>
        let k := keyAt cs va.toNat
        s.onLine k (fun s => (lineSectors k).foldl (fun s sec => s.fetchSector (tidSpire s.tid) (sec * 32) 32) s)
      | _ => s
    s.advance) s

/-- CZERO (R180): zero to all 256 bytes of the line as one store. -/
def execCzero (g : Guard) (a : Reg) (s : State) : Host.Outcome State Fault Refusal :=
  guarded g (fun s =>
    let x := s.getX a
    let va : Word := x - wordOf (x.toNat % 256)
    s.access ⟨.write, va, 256, false, false, false, true, false⟩ (fun cs s =>
      s.startStore (storePieces cs va.toNat 256 (List.replicate 256 0)))) s

end Sys2Proof.Machine
end

