-- ==== Sys2Proof/Machine/Groups.lean ====
section
/-! DEFINITION. Groups, collectives and the fragment loads (R188 to R204). -/

namespace Sys2Proof.Machine

def Spire.group (sp : Spire) (n : Nat) : Option Group := tget n sp.groups

def State.setGroup (g n : Nat) (v : Group) (s : State) : State :=
  let sp := s.spire g
  s.setSpire g { sp with groups := tset n v sp.groups }

def State.dropGroup (g n : Nat) (s : State) : State :=
  let sp := s.spire g
  s.setSpire g { sp with groups := tdel n sp.groups }

/-- A member's index. -/
def Group.indexOf (v : Group) (h : BitVec 24) : Option Nat := (v.members.find? (fun m => decide (m.1 = h))).map Prod.snd

/-- The lowest free member index (R189). -/
def Group.freeIndex (v : Group) : Option Nat :=
  (List.range 32).find? (fun i => !v.members.any (fun m => decide (m.2 = i)))

/-! ## Results -/

/-- The participants in ascending member index (R192), each with its index. -/
def Group.inOrder (v : Group) (c : Collective) : List (Nat × Part) :=
  (List.range 32).filterMap (fun i => (c.parts.find? (fun p => decide (v.indexOf p.who = some i))).map (fun p => (i, p)))

/-- The value of the participant of an index, if it is one. -/
def valueAt (ps : List (Nat × Part)) (i : Nat) : Option Word := (ps.find? (fun p => decide (p.1 = i))).map (fun p => p.2.v)

/-- A mask of the participants that a test names (R192). -/
def maskOf (ps : List (Nat × Part)) (f : Part → Bool) : Word :=
  wordOf ((ps.map (fun p => if f p.2 then 2 ^ p.1 else 0)).sum)

/-- FP32 operands of a reduction (R197). -/
def fpOperands (ps : List (Nat × Part)) : List Nat := ps.map (fun p => p.2.v.toNat % 2 ^ 32)

/-- GRED.FMAX (R197): NaN operands are ignored. -/
def fmaxAll (xs : List Nat) : Nat := xs.foldl (fun m x => (fMinMax fp32 true m x).1) fp32.canonNaN

/-- GRED.FADD (R86, R197): the tree's sum, a NaN of a lone participant being made canonical too (R68). -/
def faddAll (xs : List Nat) : Nat :=
  let r := (treeSum xs).1
  if (fp32.decode r).isNaN then fp32.canonNaN else r

/-- A participant's result (R195 to R197); `k` is the funct of the kind, `i` its own member index. -/
def collectiveResult (k : Nat) (ps : List (Nat × Part)) (i : Nat) (p : Part) : Word :=
  let from_ (j : Nat) : Word := (valueAt ps j).getD p.v
  let src := p.dv.toNat % 32
  match k with
  | 3 => from_ src
  | 4 => from_ (i ^^^ src)
  | 5 => from_ src
  | 6 => boolWord (ps.any (fun q => decide (q.2.v ≠ 0)))
  | 7 => boolWord (ps.all (fun q => decide (q.2.v ≠ 0)))
  | 8 => maskOf ps (fun q => decide (q.v ≠ 0))
  | 9 => maskOf ps (fun q => decide (q.v = p.v))
  | 10 => ps.foldl (fun a q => a + q.2.v) 0
  | 11 => ps.foldl (fun a q => minS a q.2.v) p.v
  | 12 => ps.foldl (fun a q => maxS a q.2.v) p.v
  | 13 => wordOf (faddAll (fpOperands ps))
  | 14 => wordOf (fmaxAll (fpOperands ps))
  | 15 => ps.foldl (fun a q => if q.1 ≤ i then a + q.2.v else a) 0
  | _ => 0

/-- The flags that a reduction raises (R198): NV for a signalling NaN operand, and, as R83 has it, for an addition of opposite
infinities. (log 103: DEDUCED.) -/
def collectiveFlags (k : Nat) (ps : List (Nat × Part)) : Flags :=
  let sig := sigFlags ((fpOperands ps).map fp32.decode)
  match k with
  | 13 => (treeSum (fpOperands ps)).2 ||| sig
  | 14 => sig
  | _ => 0

/-- A participant's outcome (R192, R198): FPE at its reduction, or its result and the end of its park. -/
def State.givePart (k : Nat) (ps : List (Nat × Part)) (fl : Flags) (s : State) (q : Nat × Part) : State :=
  let t := handleTid q.2.who
  let v := s.slot t
  let v := { v with fl := v.fl ||| fl }
  if fl &&& v.en ≠ 0 then
    (s.setSlot t v).faultAt t ⟨.fpe, lowestFlag (fl &&& v.en), fl.setWidth 64⟩
  else if k = 2 then s.setSlot t v.resume
  else s.setSlot t (v.setX q.2.d (collectiveResult k ps q.1 q.2)).resume

/-! ## Instances -/

/-- An instance begun by held issues (R191): the earliest gives the kind, and the others of that kind are counted. -/
def Group.fromHeld (v : Group) : Group × List Part :=
  match v.held with
  | [] => ({ v with inst := none }, [])
  | p :: _ =>
    let same := v.held.filter (fun q => decide (q.kind = p.kind))
    ({ v with inst := some ⟨p.kind, v.members.map Prod.fst, same⟩, held := [] },
      v.held.filter (fun q => decide (q.kind ≠ p.kind)))

/-- The group after an instance has ended: the next begins with the held issues; those of another kind trap (R191). -/
def State.nextInstance (g n : Nat) (v : Group) (s : State) : State :=
  let (v, bad) := v.fromHeld
  bad.foldl (fun s p => s.faultAt (handleTid p.who) ⟨.group, 2, 0⟩) (s.setGroup g n v)

/-- Whether every member of the wait set has issued, with its earlier accesses performed (R191, R199). -/
def State.instanceReady (s : State) (v : Group) : Bool :=
  match v.inst with
  | none => false
  | some c => !c.wait.isEmpty && c.wait.all (fun h => c.parts.any (fun p => decide (p.who = h)) && (s.slot (handleTid h)).queue.isEmpty)

/-- The completion of a pending instance (R191, R192, R198). -/
def State.completeGroup (g n : Nat) (s : State) : State :=
  match (s.spire g).group n with
  | none => s
  | some v =>
    match v.inst with
    | none => s
    | some c =>
      if s.instanceReady v then
        let ps := v.inOrder c
        let fl := collectiveFlags c.kind ps
        (ps.foldl (fun s q => s.givePart c.kind ps fl q) s).nextInstance g n { v with inst := none }
      else s

/-- COLLECTIVE_COMPLETE (R191, R192). -/
def execEvCollectiveComplete (spire n : Nat) (s : State) : Host.Outcome State Fault Refusal := .next (s.completeGroup spire n)

/-- The participants' earlier accesses performed, where every member of the wait set has issued: the leave that leaves only such
members completes the instance in its own cycle (R194, R199). -/
def State.flushParts (c : Collective) (s : State) : State :=
  if c.wait.all (fun h => c.parts.any (fun p => decide (p.who = h))) then c.wait.foldl (fun s h => s.flushQueue (handleTid h)) s
  else s

/-- A thread leaves a group (R189 to R191): out of the wait set, its issue withdrawn; an instance that this completes or
empties ends at once; the last member's leaving empties the entry. -/
def State.leaveGroup (g n : Nat) (h : BitVec 24) (s : State) : State :=
  match (s.spire g).group n with
  | none => s
  | some v =>
    let keep (p : Part) : Bool := decide (p.who ≠ h)
    let v : Group := { v with
      members := v.members.filter (fun m => decide (m.1 ≠ h)),
      inst := v.inst.map (fun c => { c with wait := c.wait.filter (fun u => decide (u ≠ h)), parts := c.parts.filter keep }),
      held := v.held.filter keep }
    if v.members.isEmpty then s.dropGroup g n
    else
      match v.inst with
      | some c =>
        if c.wait.isEmpty then s.nextInstance g n { v with inst := none } else ((s.setGroup g n v).flushParts c).completeGroup g n
      | none => s.setGroup g n v

/-- A thread leaves every group it belongs to (R146, R190). -/
def State.leaveGroups (t : Nat) (s : State) : State :=
  let g := tidSpire t
  let h := (s.slot t).handle t
  (((s.spire g).groups.filter (fun e => (e.2.indexOf h).isSome)).map Prod.fst).foldl (fun s n => s.leaveGroup g n h) s

/-- A parked issue is withdrawn, its thread staying a member (R191, R376). -/
def State.withdrawPart (t : Nat) (s : State) : State :=
  let g := tidSpire t
  let h := (s.slot t).handle t
  let keep (p : Part) : Bool := decide (p.who ≠ h)
  let sp := s.spire g
  s.setSpire g { sp with groups := sp.groups.map (fun e =>
    (e.1, { e.2 with inst := e.2.inst.map (fun c => { c with parts := c.parts.filter keep }), held := e.2.held.filter keep })) }

/-- GJOIN (R189, R194). -/
def execGjoin (g : Guard) (d : Reg) (n : BitVec 6) (s : State) : Host.Outcome State Fault Refusal :=
  guarded g (fun s =>
    let sp := tidSpire s.tid
    let h := s.thr.handle s.tid
    match (s.spire sp).group n.toNat with
    | none => (s.setGroup sp n.toNat ⟨s.thr.asid, [(h, 0)], none, []⟩).retX d 0
    | some v =>
      match v.indexOf h with
      | some i => s.retX d (wordOf i)
      | none =>
        if v.asid ≠ s.thr.asid ∧ s.thr.prv = .user then s.retX d (negWord 2)
        else
          match v.freeIndex with
          | none => s.retX d (negWord 1)
          | some i => (s.setGroup sp n.toNat { v with members := v.members ++ [(h, i)] }).retX d (wordOf i)) s

/-- GLEAVE (R194). -/
def execGleave (g : Guard) (d : Reg) (n : BitVec 6) (s : State) : Host.Outcome State Fault Refusal :=
  guarded g (fun s =>
    let sp := tidSpire s.tid
    match (s.spire sp).group n.toNat with
    | none => s.retX d 1
    | some v => if (v.indexOf (s.thr.handle s.tid)).isSome then (s.leaveGroup sp n.toNat (s.thr.handle s.tid)).retX d 0 else s.retX d 1) s

/-- A collective issued by the thread that executes (R191): its operands are read now (R192). -/
def State.joinInstance (n k : Nat) (d a : Reg) (s : State) : State :=
  let g := tidSpire s.tid
  let h := s.thr.handle s.tid
  let p : Part := ⟨h, k, s.getX a, s.getX d, d⟩
  match (s.spire g).group n with
  | none => s.trap .group 1 0
  | some v =>
    if (v.indexOf h).isNone then s.trap .group 1 0
    else
      match v.inst with
      | none =>
        (s.setGroup g n { v with inst := some ⟨k, v.members.map Prod.fst, [p]⟩ }).park .group (.group n)
      | some c =>
        if c.wait.contains h then
          if c.kind = k then
            (s.setGroup g n { v with inst := some { c with parts := c.parts ++ [p] } }).park .group (.group n)
          else s.trap .group 2 0
        else (s.setGroup g n { v with held := v.held ++ [p] }).park .group (.group n)

/-- The collectives (R191, R193). -/
def collective (g : Guard) (k : Nat) (d a : Reg) (n : BitVec 6) (s : State) : Host.Outcome State Fault Refusal :=
  guarded g (fun s => s.joinInstance n.toNat k d a) s

/-- GSYNC (R195). -/
def execGsync (g : Guard) (n : BitVec 6) (s : State) : Host.Outcome State Fault Refusal := collective g 2 0 0 n s
/-- GSHFL (R195). -/
def execGshfl (g : Guard) (d a : Reg) (n : BitVec 6) (s : State) : Host.Outcome State Fault Refusal := collective g 3 d a n s
/-- GSHFLX (R195). -/
def execGshflx (g : Guard) (d a : Reg) (n : BitVec 6) (s : State) : Host.Outcome State Fault Refusal := collective g 4 d a n s
/-- GBCAST (R195). -/
def execGbcast (g : Guard) (d a : Reg) (n : BitVec 6) (s : State) : Host.Outcome State Fault Refusal := collective g 5 d a n s
/-- GVOTE.ANY (R195). -/
def execGvoteAny (g : Guard) (d a : Reg) (n : BitVec 6) (s : State) : Host.Outcome State Fault Refusal := collective g 6 d a n s
/-- GVOTE.ALL (R195). -/
def execGvoteAll (g : Guard) (d a : Reg) (n : BitVec 6) (s : State) : Host.Outcome State Fault Refusal := collective g 7 d a n s
/-- GVOTE.BAL (R195). -/
def execGvoteBal (g : Guard) (d a : Reg) (n : BitVec 6) (s : State) : Host.Outcome State Fault Refusal := collective g 8 d a n s
/-- GMATCH (R195). -/
def execGmatch (g : Guard) (d a : Reg) (n : BitVec 6) (s : State) : Host.Outcome State Fault Refusal := collective g 9 d a n s
/-- GRED.ADD (R196). -/
def execGredAdd (g : Guard) (d a : Reg) (n : BitVec 6) (s : State) : Host.Outcome State Fault Refusal := collective g 10 d a n s
/-- GRED.MIN (R196). -/
def execGredMin (g : Guard) (d a : Reg) (n : BitVec 6) (s : State) : Host.Outcome State Fault Refusal := collective g 11 d a n s
/-- GRED.MAX (R196). -/
def execGredMax (g : Guard) (d a : Reg) (n : BitVec 6) (s : State) : Host.Outcome State Fault Refusal := collective g 12 d a n s
/-- GRED.FADD (R197, R198). -/
def execGredFadd (g : Guard) (d a : Reg) (n : BitVec 6) (s : State) : Host.Outcome State Fault Refusal := collective g 13 d a n s
/-- GRED.FMAX (R197, R198). -/
def execGredFmax (g : Guard) (d a : Reg) (n : BitVec 6) (s : State) : Host.Outcome State Fault Refusal := collective g 14 d a n s
/-- GSCAN.ADD (R196). -/
def execGscanAdd (g : Guard) (d a : Reg) (n : BitVec 6) (s : State) : Host.Outcome State Fault Refusal := collective g 15 d a n s

/-! ## Fragment loads -/

/-- The lowest address of a list that a test names. -/
def lowest (p : Nat → Bool) (xs : List Nat) : Option Nat :=
  (xs.filter p).foldl (fun m x => match m with
    | some y => some (min x y)
    | none => some x) none

/-- The addresses of the elements (R201). -/
def fragAddrs (a p : Word) (m : Nat) : List Nat := (List.range m).map (fun i => (a + wordOf i * p).toNat)

/-- Whether an address translates into the peer range (R32, R403). -/
def State.atPeer (s : State) (c : Ctx) (va : Nat) : Bool :=
  (s.placeOf c .read va).any (fun k => (s.home k).isPeer)

/-- The checks of R202 over all elements of `n` bytes; an element in the peer range is refused as R403 says. (log 87: DEDUCED.) -/
def State.fragCheck (s : State) (c : Ctx) (n : Nat) (es : List Nat) : Verdict :=
  let zones := es.map (fun e => zoneOf c.g e)
  let isKeep (z : Zone) : Option Nat := match z with
    | .keep k _ => some k
    | _ => none
  let mixed := match zones with
    | [] => false
    | z :: rest => rest.any (fun y => decide (isKeep y ≠ isKeep z))
  let outside (e : Nat) : Bool := match zoneOf c.g e with
    | .keep k _ => decide (k ≠ c.g)
    | _ => true
  match lowest (fun e => decide (e % n ≠ 0)) es, lowest (fun e => decide (281474976710656 ≤ e)) es, lowest outside es with
  | some e, _, _ => .fault (fltAt .align 1 e)
  | none, some e, _ => .fault (fltAt .pageR 1 e)
  | none, none, o =>
    if mixed then .fault (fltAt .xspace 0 ((lowest (fun _ => true) es).getD 0))
    else
      match o with
      | some e => .fault (fltAt .prot (if s.atPeer c e then 0x24 else 0x22) e)
      | none =>
        if !c.keepRight c.g .read then .fault (fltAt .prot 2 ((lowest (fun _ => true) es).getD 0))
        else
          let chunk (e : Nat) : Chunk := match zoneOf c.g e with
            | .keep k o => ⟨e, keepKey k o, n, true, true, false⟩
            | _ => ⟨e, 0, n, true, true, false⟩
          watermarkRow ((s.spire c.g).wins c.g) c.asid (es.map chunk)

/-- Whether the elements take one access of near banks (R203). -/
def fragNear (g core : Nat) (cs : List Chunk) : Bool :=
  let banks := cs.map (fun k => keepBank (k.key - keepKey g 0))
  cs.all (fun k => nearRun g core k.key k.len) && decide banks.Nodup

/-- The fragment loads (R201 to R203): at once from distinct near banks, otherwise the thread parks MEM; uncorrectable errors fault (R425)
(`State.bankBusy` says how long near banks keep it). -/
def fragLoad (g : Guard) (d a b : Reg) (n : Nat) (s : State) : Host.Outcome State Fault Refusal :=
  guarded g (fun s =>
    let es := fragAddrs (s.getX a) (s.getX b) (16 / n)
    match s.fragCheck s.ctx n es with
    | .fault f => s.trapFlt f
    | .miss va => s.park .mem (.walk va .read s.now)
    | .hold cs => s.park .wmark (.wait (.watermark (cs.map (fun k => (k.va, k.key, k.len)))))
    | .pass cs =>
      let ps := (List.range cs.length).zip cs |>.map (fun e => (⟨e.1 * n, e.2.key, n, e.2.va⟩ : Piece))
      match s.meetErrors .read (lsort Chunk.va cs) with
      | (s, some f) => s.trapFlt f
      | (s, none) =>
        if fragNear (tidSpire s.tid) (tidCore s.tid) cs then s.startLoad ps 16 .pair d none
        else s.park .mem (.load ⟨ps, [], 16, .pair, d, none⟩)) s

/-- LDXT.B (R201). -/
def execLdxtB (g : Guard) (d a b : Reg) (s : State) : Host.Outcome State Fault Refusal := fragLoad g d a b 1 s
/-- LDXT.H (R201). -/
def execLdxtH (g : Guard) (d a b : Reg) (s : State) : Host.Outcome State Fault Refusal := fragLoad g d a b 2 s

end Sys2Proof.Machine
end

