-- ==== Sys2Proof/Machine/Threads.lean ====
section
/-! DEFINITION. Counters and identity, branches and calls, traps by instruction, the beginning and end of threads, messages,
and the watchdog (R124 to R162, R364, R365). -/

namespace Sys2Proof.Machine

/-! ## MISC -/

/-- NOP (R140). -/
def execNop (g : Guard) (s : State) : Host.Outcome State Fault Refusal := guarded g State.advance s

/-- EBRK (R364). -/
def execEbrk (g : Guard) (s : State) : Host.Outcome State Fault Refusal := guarded g (fun s => s.trap .ebrk 0 0) s

/-- ECALL (R364). -/
def execEcall (g : Guard) (s : State) : Host.Outcome State Fault Refusal := guarded g (fun s => s.trap .ecall 0 0) s

/-- TRET (R358, R365). -/
def execTret (g : Guard) (s : State) : Host.Outcome State Fault Refusal := kernelOnly (packR g 0x00 0 0 0 3) g State.trapReturn s

/-- RDCYC (R140, R141). -/
def execRdcyc (g : Guard) (d : Reg) (s : State) : Host.Outcome State Fault Refusal :=
  guarded g (fun s => s.retX d (s.cycleOf s.tid)) s

/-- RDTIME (R140, R141). -/
def execRdtime (g : Guard) (d : Reg) (s : State) : Host.Outcome State Fault Refusal :=
  guarded g (fun s => s.retX d s.time) s

/-- TID (R125, R140). -/
def execTid (g : Guard) (d : Reg) (s : State) : Host.Outcome State Fault Refusal :=
  guarded g (fun s => s.retX d ((s.thr.handle s.tid).setWidth 64)) s

/-- GTID (R126, R140). -/
def execGtid (g : Guard) (d : Reg) (s : State) : Host.Outcome State Fault Refusal :=
  guarded g (fun s => s.retX d (s.thr.work.setWidth 64)) s

/-! ## Branches and calls -/

/-- The pc of the thread that executes set (R142). -/
def State.jump (target : Word) (s : State) : State := s.setThr { s.thr with pc := target }

/-- BR (R142). -/
def execBr (g : Guard) (o : BitVec 22) (s : State) : Host.Outcome State Fault Refusal :=
  guarded g (fun s => s.jump (s.thr.pc + immBranch o)) s

/-- CALL (R142): the link goes to x63. -/
def execCall (g : Guard) (o : BitVec 22) (s : State) : Host.Outcome State Fault Refusal :=
  guarded g (fun s => (s.wx 63 (s.thr.pc + 4)).jump (s.thr.pc + immBranch o)) s

/-- JALR (R142): a target that is no multiple of 4 traps ALIGN with X[d] unchanged. -/
def execJalr (g : Guard) (d a : Reg) (i : BitVec 10) (s : State) : Host.Outcome State Fault Refusal :=
  guarded g (fun s =>
    let target := s.getX a + immJump i
    if target.toNat % 4 ≠ 0 then s.trap .align 1 target
    else (s.wx d (s.thr.pc + 4)).jump target) s

/-! ## Claiming a slot -/

/-- The next generation of a slot that the absent-thread table does not hold for it (R125). -/
def nextGen (absent : List Absent) (t : Nat) : Nat → BitVec 8 → BitVec 8
  | 0, gen => gen
  | fuel + 1, gen => if absent.any (fun e => decide (e.handle = handleOf t gen)) then nextGen absent t fuel (gen + 1) else gen

/-- A slot claimed for a new thread (R125, R138): what belongs to the slot stays, all else is as `fill` makes a fresh slot. The
claim arrives in cycle `at_`; its core grants it then, or later where it grants other claims before this one, one a cycle (R139); the
thread may issue from there on, but not before cycle `first`. -/
def State.claim (t at_ first : Nat) (fill : Slot → Slot) (s : State) : State :=
  let v := s.slot t
  let gen := nextGen (s.die (tidDie t)).absent t 256 (v.gen + 1)
  let c := s.core (tidCoreKey t)
  let grant := max at_ c.claim
  (s.setCore (tidCoreKey t) { c with claim := grant + 1 }).setSlot t (fill { Slot.reset with
    st := .run, gen := gen, wSlp := v.wSlp, wFired := v.wFired, wLimit := v.wLimit, queue := v.queue, wake := max first grant })

/-- The lowest FREE slot of a core (R138, R147), as an identity. -/
def State.freeSlot (s : State) (g c : Nat) : Option Nat :=
  ((List.range 16).map (fun sl => mkTid g c sl)).find? (fun t => decide ((s.slot t).st = .free))

/-- Argument registers x1 upward (R138). -/
def Slot.setArgs (ws : List Word) (v : Slot) : Slot :=
  { v with x := Vector.ofFn (fun i => if i.val = 0 then 0 else ws.getD (i.val - 1) 0) }

/-- The x1 to x8 of a thread. -/
def Slot.args (v : Slot) : List Word := (List.range 8).map (fun i => v.getX (Fin.ofNat 64 (i + 1)))

/-! ## Messages -/

/-- The thread identity of the thread and port forms (R152): bits 15:0, with the slot's place cleared for a port. -/
def dstTid (w : Word) : Nat := fld w 0 16

/-- Whether a destination word has the port form (R152). -/
def isPort (w : Word) : Bool := decide (fld w 62 2 = 1)

/-- Whether a destination word breaks R152 or names no thread. -/
def dstBad (w : Word) : Bool :=
  if isPort w then decide (fld w 24 38 ≠ 0) || decide (fld w 16 8 ≠ 0) || decide (fld w 2 2 ≠ 0) || !tidValid (dstTid w)
  else decide (fld w 24 40 ≠ 0) || !tidValid (dstTid w)

/-- The core that a message goes to. -/
def Msg.core (m : Msg) : Nat := tidCoreKey (dstTid m.dst)

/-- The number of messages that occupy a core's outbound queue (R153): those whose status is not decided. -/
def State.outbound (s : State) (core : Nat) : Nat :=
  let from_ (m : Msg) : Bool := decide (tidCoreKey (handleTid m.src) = core)
  (s.net.filter from_).length + ((s.cores.map (fun c => (c.2.waiting.filter from_).length)).sum)

/-- The drops of stale messages are counted at the destination spire (R155), saturating (R416). -/
def State.countStale (g : Nat) (s : State) : State :=
  let sp := s.spire g
  let d := sp.dbg
  s.setSpire g { sp with dbg := { d with msgstale := if d.msgstale = 0xFFFFFFFF#32 then d.msgstale else d.msgstale + 1 } }

/-- A status recorded in SENDST (R156). -/
def Slot.sendStatus (st : Nat) (v : Slot) : Slot :=
  if st = 1 ∨ st = 2 ∨ st = 3 then
    { v with
      drops := if v.drops = 0xFF#8 then v.drops else v.drops + 1
      sStale := v.sStale || decide (st = 1)
      sRef := v.sRef || decide (st = 2)
      sBad := v.sBad || decide (st = 3) }
  else v

/-- Whether a handle's thread is in its slot: claimed, not draining, not ended, with the handle's generation (R125, R145, R155). -/
def State.lives (s : State) (h : BitVec 24) : Bool :=
  let v := s.slot (handleTid h)
  decide (v.st ≠ .free) && decide (v.st ≠ .drain) && decide (v.st ≠ .ended) && decide (v.gen = handleGen h)

/-- Whether the absent-thread table of the handle's die holds it (R159). -/
def State.isAbsent (s : State) (h : BitVec 24) : Bool := (s.die (tidDie (handleTid h))).absent.any (fun a => decide (a.handle = h))

/-- A handle's entry of the absent-thread table removed (R159). -/
def State.unreserve (h : BitVec 24) (s : State) : State :=
  let d := s.die (tidDie (handleTid h))
  s.setDie (tidDie (handleTid h)) { d with absent := d.absent.filter (fun e => decide (e.handle ≠ h)) }

/-- A status for the SENDST of a swapped-out thread, which only its exit discards (R156). -/
def State.keepSend (h : BitVec 24) (st : Nat) (s : State) : State :=
  let d := s.die (tidDie (handleTid h))
  s.setDie (tidDie (handleTid h)) { d with
    absent := d.absent.map (fun (e : Absent) => if e.handle = h then { e with sends := e.sends ++ [st] } else e) }

/-- The status of a message is decided (R155, R156): a SENDW's answer sets out, a SEND's status is recorded. -/
def State.decided (m : Msg) (st : Nat) (s : State) : State :=
  let t := handleTid m.src
  let s := if st = 1 then s.countStale (tidSpire (dstTid m.dst)) else s
  if m.wait then { s with answers := s.answers ++ [⟨t, handleGen m.src, wordOf st⟩] }
  else if s.lives m.src then s.setSlot t ((s.slot t).sendStatus st)
  else s.keepSend m.src st

/-- The smallest scope that contains both ends (R161). -/
def scopeBetween (g h : Nat) : Scope :=
  if g = h then .spire else if g / 80 = h / 80 then .die else .package

/-- A handler thread started by a port message (R138, R158). -/
def State.startHandler (t : Nat) (b : Binding) (m : Msg) (s : State) : State :=
  let s := s.claim t s.now s.now (fun v =>
    { v.setArgs m.data with
      pc := b.entry, work := m.src.setWidth 32, asid := b.asid, ptbr := b.ptbr, kwin := b.kwin, tvec := b.tvec, prv := b.prv })
  s.acquireAt (tidSpire t) (scopeBetween (tidSpire (handleTid m.src)) (tidSpire t))

/-- Whether the lantern still holds a message for a thread (R159). -/
def State.holds (s : State) (h : BitVec 24) : Bool :=
  (s.die (tidDie (handleTid h))).holding.any (fun e => match e with
    | .msg k _ => decide (k = h)
    | .answer _ _ => false)

/-- What becomes of a message at its destination (R154, R155, R159): none while it must wait. One for a restored thread waits
behind those that are still held for it, so that a sender's messages keep their order. (log 100: DEDUCED.) -/
def State.offer (m : Msg) (s : State) : Option State :=
  let t := dstTid m.dst
  if isPort m.dst then
    let c := s.core m.core
    match c.ports[t % 4]'(Nat.mod_lt _ (by decide)) with
    | none => some (s.decided m 2)
    | some b =>
      if b.asid ≠ m.asid then some (s.decided m 2)
      else
        match s.freeSlot (tidSpire t) (tidCore t) with
        | some u => some ((s.startHandler u b m).decided m 0)
        | none => none
  else
    let h : BitVec 24 := m.dst.setWidth 24
    if s.isAbsent h then
      let d := s.die (tidDie t)
      if d.holding.length < Config.heldMessages then
        some ((s.setDie (tidDie t) { d with holding := d.holding ++ [.msg h (m.data.getD 0 0)] }).decided m 4)
      else none
    else if s.lives h then
      let v := s.slot t
      if v.inbox.isSome || s.holds h then none
      else some ((s.setSlot t { v with inbox := some (m.data.getD 0 0) }).decided m 0)
    else some (s.decided m 1)

/-- Messages that wait at a core are offered in their order (R154); one that must still wait holds back later ones of its
destination (R160). -/
def offerFrom : List Msg → List Msg → State → List Msg × State
  | [], kept, s => (kept, s)
  | m :: rest, kept, s =>
    if kept.any (fun k => decide (k.dst = m.dst)) then offerFrom rest (kept ++ [m]) s
    else
      match s.offer m with
      | some s' => offerFrom rest kept s'
      | none => offerFrom rest (kept ++ [m]) s

def State.deliverWaiting (core : Nat) (s : State) : State :=
  let c := s.core core
  let (kept, s) := offerFrom c.waiting [] s
  s.setCore core { s.core core with waiting := kept }

/-- MESSAGE_ARRIVAL: message `n` of those on their way reaches its destination core (R154, R160). -/
def execEvMessageArrival (n : Nat) (s : State) : Host.Outcome State Fault Refusal :=
  match s.net[n]? with
  | none => .next s
  | some m =>
    if (s.net.take n).any (fun k => decide (k.src = m.src ∧ k.dst = m.dst)) then .next s
    else
      let c := s.core m.core
      let gone (s : State) : State := { s with net := ldel s.net n }
      let behind := c.waiting.any (fun k => decide (k.dst = m.dst))
      match (if behind then none else s.offer m) with
      | some s' => .next (gone s')
      | none =>
        if c.waiting.length < Config.waitingMessages then
          .next (gone (s.setCore m.core { c with waiting := c.waiting ++ [m] }))
        else .next s

/-- A message sent by the thread that executes (R153, R161): what it did before is performed at the scope that reaches the
destination; then the message takes its entry. `after` says how the instruction goes on. (log 52: DEDUCED.) -/
def State.send (dst ctl : Word) (wait : Bool) (bad after : State → State) (s : State) : State :=
  let n := fld ctl 0 4
  let illegal := dstBad dst || decide (fld ctl 4 60 ≠ 0)
    || (if isPort dst then decide (n < 1 ∨ 8 < n) else decide (n ≠ 1))
  if illegal then bad s
  else if Config.outboundMessages ≤ s.outbound (tidCoreKey s.tid) then s.park .send (.wait .outRoom)
  else
    let g := tidSpire s.tid
    let s := (s.flushQueue s.tid).releaseAt g (scopeBetween g (tidSpire (dstTid dst)))
    let v := s.thr
    after { s with net := s.net ++ [⟨v.handle s.tid, v.asid, dst, v.args.take n, wait⟩] }

/-- SEND (R153, R156). -/
def execSend (g : Guard) (a b : Reg) (s : State) : Host.Outcome State Fault Refusal :=
  guarded g (fun s => s.send (s.getX a) (s.getX b) false
    (fun s => (s.setThr (s.thr.sendStatus 3)).advance) State.advance) s

/-- SENDW (R153, R155). -/
def execSendw (g : Guard) (d a b : Reg) (s : State) : Host.Outcome State Fault Refusal :=
  guarded g (fun s => s.send (s.getX a) (s.getX b) true
    (fun s => s.retX d 3) (fun s => s.park .send (.answer d))) s

/-- ANSWER_ARRIVAL: the answer to a slot's SENDW or KILL arrives (R155, R156); for a swapped-out thread it is held (R376);
for an ended one it is dropped. -/
def execEvAnswerArrival (tid : Nat) (s : State) : Host.Outcome State Fault Refusal :=
  match s.answers.find? (fun a => decide (a.tid = tid)) with
  | none => .next s
  | some a =>
    let h := handleOf tid a.gen
    let gone (s : State) : State := { s with answers := ldel s.answers ((lfind (fun b => decide (b = a)) s.answers).getD 0) }
    if s.lives h then
      let v := s.slot tid
      match v.park with
      | some ⟨_, .answer d, _, _, _⟩ => .next (gone (s.setSlot tid (v.setX d a.status).resume))
      | _ => .next (gone s)
    else if s.isAbsent h then
      let d := s.die (tidDie tid)
      if d.holding.length < Config.heldMessages then
        .next (gone (s.setDie (tidDie tid) { d with holding := d.holding ++ [.answer h a.status] }))
      else .next s
    else .next (gone s)

/-- HELD_REDELIVERY: the `n`-th held entry of a die, a message for a restored thread, enters its inbox (R159). -/
def execEvHeldRedelivery (die n : Nat) (s : State) : Host.Outcome State Fault Refusal :=
  let d := s.die die
  match d.holding[n]? with
  | some (.msg h w) =>
    let t := handleTid h
    let v := s.slot t
    let earlier := (d.holding.take n).any (fun e => match e with
      | .msg k _ => decide (k = h)
      | .answer _ _ => false)
    if s.lives h && !s.isAbsent h && v.inbox.isNone && !earlier then
      .next ((s.setDie die { d with holding := ldel d.holding n }).setSlot t { v with inbox := some w })
    else .next s
  | _ => .next s

/-- A binding's port (R157). -/
def Core.port (c : Core) (p : Nat) : Option Binding := c.ports[p % 4]'(Nat.mod_lt _ (by decide))

def Core.setPort (p : Nat) (b : Option Binding) (c : Core) : Core :=
  { c with ports := c.ports.set (p % 4) b (Nat.mod_lt _ (by decide)) }

/-- HBIND (R157). Messages that already wait at the port are offered under the new binding, and refused if it is of another address
space. (log 99: DESIGN CHOICE.) -/
def execHbind (g : Guard) (d a b : Reg) (s : State) : Host.Outcome State Fault Refusal :=
  guarded g (fun s =>
    let entry := s.getX a
    let p := s.getX b
    let v := s.thr
    let k := tidCoreKey s.tid
    if 3 < p.toNat ∨ entry.toNat % 4 ≠ 0 then s.retX d 3
    else
      let foreign : Bool := match (s.core k).port p.toNat with
        | some b => decide (b.asid ≠ v.asid)
        | none => false
      if foreign = true ∧ v.prv = .user then s.retX d 2
      else
        let s := s.setCore k ((s.core k).setPort p.toNat (some ⟨entry, v.asid, v.ptbr, v.kwin, v.tvec, v.prv⟩))
        (s.retX d 0).deliverWaiting k) s

/-- HUNBIND (R157): messages that wait for the port are refused. -/
def execHunbind (g : Guard) (d a : Reg) (s : State) : Host.Outcome State Fault Refusal :=
  guarded g (fun s =>
    let p := s.getX a
    let v := s.thr
    let k := tidCoreKey s.tid
    if 3 < p.toNat then s.retX d 3
    else
      match (s.core k).port p.toNat with
      | none => s.retX d 1
      | some b =>
        if b.asid ≠ v.asid ∧ v.prv = .user then s.retX d 2
        else ((s.setCore k ((s.core k).setPort p.toNat none)).retX d 0).deliverWaiting k) s

/-! ## The end of a thread -/

/-- The matrix side of a region after CLOSE (R305): FROW stays (R309). -/
def Matrix.closed (m : Matrix) : Matrix := { Matrix.reset with frow := m.frow }

/-- A matrix region whose owner ends (R315): the running operation finishes, the queue is discarded, then CLOSE. -/
def Region.ownerEnds (h : BitVec 24) (r : Region) : Region :=
  if r.kind = 2 ∧ r.matrix.owner = some h then
    match r.matrix.run with
    | none => { r with st := .empty, quiet := false, matrix := r.matrix.closed }
    | some _ => { r with matrix := { r.matrix with queue := r.matrix.queue.take 1, closing := true } }
  else r

/-- A context whose owner ends is released (R338). -/
def Context.ownerEnds (h : BitVec 24) (c : Context) : Context := if c.owner = some h then Context.reset else c

/-- A staging shape whose owner ends returns to its default (R319). -/
def Channel.ownerEnds (h : BitVec 24) (c : Channel) : Channel :=
  if c.owner = some h then { c with shape := CopyShape.reset, owner := none } else c

/-- What a spire's engines held of a thread that has ended (R146, R315). -/
def Spire.ownerEnds (h : BitVec 24) (sp : Spire) : Spire :=
  { sp with
    channels := sp.channels.map (Channel.ownerEnds h)
    ctxs := sp.ctxs.map (Context.ownerEnds h)
    regions := sp.regions.map (fun r => (r.1, r.2.ownerEnds h)) }

/-- An exit counts towards the LAUNCH that placed the thread (R393). -/
def Queue.exited (idx : Nat) (q : Queue) : Queue :=
  { q with cmds := q.cmds.map (fun c =>
      match c.work with
      | .launch placed n args => if c.idx.toNat = idx then { c with work := .launch placed (n + 1) args } else c
      | _ => c) }

/-- Messages that wait for an ended thread's inbox are refused as stale (R146, R155). -/
def State.refuseWaiting (h : BitVec 24) (s : State) : State :=
  let k := tidCoreKey (handleTid h)
  let mine (m : Msg) : Bool := !isPort m.dst && decide (m.dst.setWidth 24 = h)
  let c := s.core k
  let s := s.setCore k { c with waiting := c.waiting.filter (fun m => !mine m) }
  (c.waiting.filter mine).foldl (fun s m => s.decided m 1) s

/-- A slot whose thread is over (R145, R146, R375): its registers stand as they were, but for what the end discards.
(log 78: DEDUCED.) -/
def Slot.over (st : SlotState) (v : Slot) : Slot :=
  { v with
    st := st, held := false, park := none, inbox := none, events := [], poison := none, trapDue := none, launch := none
    drops := 0, sBad := false, sRef := false, sStale := false }

/-- What the lantern still held for a thread that is over is dropped (R159). -/
def State.dropHeld (h : BitVec 24) (s : State) : State :=
  let d := s.die (tidDie (handleTid h))
  s.setDie (tidDie (handleTid h)) { d with holding := d.holding.filter (fun e => match e with
    | .msg k _ | .answer k _ => decide (k ≠ h)) }

/-- A thread ends (R145, R146): it leaves its groups, what it holds is released, its exit is counted; its slot is FREE, or for
one that exits will be at the turn's end. -/
def State.endThread (st : SlotState) (t : Nat) (s : State) : State :=
  let v := s.slot t
  let h := v.handle t
  let g := tidSpire t
  let s := s.leaveGroups t
  let s := s.setSpire g ((s.spire g).ownerEnds h)
  let s := match v.launch with
    | some (q, idx) => (s.flushQueue t).setQueue q (((s.flushQueue t).queue q).exited idx)
    | none => s
  let s := s.setSlot t ((s.slot t).over st)
  (s.refuseWaiting h).dropHeld h

/-- EXIT (R145, R146). -/
def execExit (g : Guard) (s : State) : Host.Outcome State Fault Refusal := guarded g (fun s => s.endThread .ended s.tid) s

/-- Whether a parked instruction has something in flight that a killed thread waits for (R151). (log 16: DEDUCED.) -/
def ParkOp.inFlight : ParkOp → Bool
  | .load _ | .once _ | .atomic _ _ | .reply _ _ | .flight _ _ => true
  | _ => false

/-- A call that has not entered a region is withdrawn from its entry port (R151, R376). -/
def Region.withdraw (t : Nat) (r : Region) : Region :=
  { r with
    waiting := r.waiting.filter (fun u => decide (u ≠ t))
    reserved := if r.reserved = some t then none else r.reserved }

/-- A thread is killed (R133, R151): DRAIN; its parked instruction does not finish; it leaves wait lists, groups and queues of
calls that have not entered a fabric. -/
def State.killThread (t : Nat) (s : State) : State :=
  let s := s.leaveGroups t
  let s := { s with waits := s.waits.filter (fun e => decide (e.2 ≠ t)) }
  let g := tidSpire t
  let sp := s.spire g
  let s := s.setSpire g { sp with
    places := sp.places.filter (fun p => decide (p.tid ≠ some t)),
    regions := sp.regions.map (fun r => (r.1, r.2.withdraw t)) }
  let v := s.slot t
  let s := match v.park with
    | some ⟨_, .save h _ _ _ _, _, _, _⟩ => s.unreserve h
    | _ => s
  s.setSlot t { v with
    st := .drain, held := false, trapDue := none
    park := match v.park with
      | some k => if k.op.inFlight then some k else none
      | none => none }

/-- KILL (R150): itself as by EXIT; otherwise the killer parks until the target's spire answers. -/
def execKill (g : Guard) (d a : Reg) (s : State) : Host.Outcome State Fault Refusal :=
  guarded g (fun s =>
    let x := s.getX a
    let h : BitVec 24 := x.setWidth 24
    let v := s.thr
    if fld x 24 40 ≠ 0 ∨ tidValid (handleTid h) = false then s.retX d 3
    else if h = v.handle s.tid then s.endThread .ended s.tid
    else { s.park .send (.answer d) with kills := s.kills ++ [⟨s.tid, v.gen, v.asid, v.prv, h⟩] }) s

/-- KILL_ARRIVAL: the kill that slot `tid` issued reaches its target's spire (R150). -/
def execEvKillArrival (tid : Nat) (s : State) : Host.Outcome State Fault Refusal :=
  match s.kills.find? (fun k => decide (k.killer = tid)) with
  | none => .next s
  | some k =>
    let s := { s with kills := ldel s.kills ((lfind (fun j => decide (j = k)) s.kills).getD 0) }
    let answer (st : Nat) (s : State) : State := { s with answers := s.answers ++ [⟨tid, k.gen, wordOf st⟩] }
    let t := handleTid k.target
    if s.lives k.target then
      if (s.slot t).asid ≠ k.asid ∧ k.prv = .user then .next (answer 2 s)
      else .next (answer 0 (s.killThread t))
    else if s.isAbsent k.target then .next (answer 4 s)
    else .next (answer 1 s)

/-- DRAIN_COMPLETE: nothing of a killed thread remains outstanding (R151). -/
def execEvDrainComplete (tid : Nat) (s : State) : Host.Outcome State Fault Refusal :=
  let v := s.slot tid
  if v.st = .drain ∧ v.park = none ∧ v.queue = [] then .next (s.endThread .free tid) else .next s

/-! ## SPAWN and SLEEP -/

/-- The cores that SPAWN tries (R147). -/
def spawnCores (mode own given : Nat) : List Nat :=
  if mode = 0 then [own] else if mode = 1 then List.range 16 else [given]

/-- SPAWN (R138, R147, R161): the child issues no earlier than the next turn. -/
def execSpawn (g : Guard) (d a b : Reg) (s : State) : Host.Outcome State Fault Refusal :=
  guarded g (fun s =>
    let entry := s.getX a
    let ctl := s.getX b
    let mode := fld ctl 4 2
    if entry.toNat % 4 ≠ 0 then s.trap .align 1 entry
    else if fld ctl 6 26 ≠ 0 ∨ mode = 3 then s.retX d (negWord 2)
    else
      let sp := tidSpire s.tid
      match (spawnCores mode (tidCore s.tid) (fld ctl 0 4)).findSome? (s.freeSlot sp) with
      | none => s.retX d (negWord 1)
      | some t =>
        let s := s.flushQueue s.tid
        let p := s.thr
        let s := s.claim t s.now ((s.now / 16 + 1) * 16) (fun v =>
          { v.setArgs p.args with
            pc := entry, rm := p.rm, en := p.en, work := ctl.extractLsb' 32 32,
            asid := p.asid, ptbr := p.ptbr, kwin := p.kwin, tvec := p.tvec, prv := p.prv })
        s.retX d (((s.slot t).handle t).setWidth 64)) s

/-- A word taken from the inbox of a slot (R148), an acquire (R161); messages that wait for it follow (R154). -/
def State.takeInbox (t : Nat) (d : Reg) (p : PReg) (w : Word) (s : State) : State :=
  let v := s.slot t
  let s := s.setSlot t (({ v with inbox := none }.setX d w).setP p true).resume
  (s.acquireAt (tidSpire t) .package).deliverWaiting (tidCoreKey t)

/-- SLEEP (R148). -/
def execSleep (g : Guard) (d a : Reg) (p : PReg) (s : State) : Host.Outcome State Fault Refusal :=
  guarded g (fun s =>
    match s.thr.inbox with
    | some w => s.takeInbox s.tid d p w
    | none =>
      let n := (s.getX a).toNat
      s.park .sleep (.sleep d p (if n = 0 then none else some (s.turnOf (tidSpire s.tid) + n)))) s

/-- SLEEP_TIMEOUT: the time limit of a slot's SLEEP expires with no word in its inbox (R148): as the turn begins that is X[a] turns
after the turn of issue. (log 101: DESIGN CHOICE.) -/
def execEvSleepTimeout (tid : Nat) (s : State) : Host.Outcome State Fault Refusal :=
  let v := s.slot tid
  match v.park, v.inbox with
  | some ⟨_, .sleep _ p (some limit), _, _, _⟩, none =>
    if limit ≤ s.turnOf (tidSpire tid) then .next (s.setSlot tid (v.setP p false).resume) else .next s
  | _, _ => .next s

/-! ## The watchdog -/

/-- Whether a slot's park has reached its limit (R134, R135). -/
def State.longPark (s : State) (t : Nat) : Bool :=
  let v := s.slot t
  match v.park with
  | some k =>
    decide (v.st = .park) && decide (v.wLimit ≠ 0) && !k.raised && (v.wSlp || decide (k.reason ≠ .sleep))
      && decide (k.since + v.wLimit.toNat ≤ s.turnOf (tidSpire t))
  | none => false

/-- LONG_PARK: a park reaches the watchdog's limit and raises its event (R135). -/
def execEvLongPark (tid : Nat) (s : State) : Host.Outcome State Fault Refusal :=
  let v := s.slot tid
  match v.park with
  | some k =>
    if s.longPark tid then
      .next ((s.setSlot tid { v with wFired := true, park := some { k with raised := true } }).postDie (tidDie tid) 4
        k.reason.code ((v.handle tid).setWidth 64) v.pc (v.wLimit.setWidth 64))
    else .next s
  | none => .next s

/-! ## Events for threads -/

/-- EVENT_TAKEN: a waiting event is taken at an instruction boundary of a slot (R130, R362); the trap of its own instruction that a
hold kept waiting goes first, or the poison recorded for its SRV (R226, R378). -/
def execEvEventTaken (tid : Nat) (s : State) : Host.Outcome State Fault Refusal :=
  let v := s.slot tid
  if v.st ≠ .run ∨ v.held then .next s
  else
    match v.trapDue, v.poison, v.events with
    | some (c, sub, val, node), _, _ => .next ((s.setSlot tid { v with trapDue := none }).trapAt tid c sub val node)
    | none, some (_, sub, val, node), _ => .next ((s.setSlot tid { v with poison := none }).trapAt tid .srvPoison sub val node)
    | none, none, [] => .next s
    | none, none, e :: rest =>
      if v.nest then .next s else .next ((s.setSlot tid { v with events := rest }).trapAt tid e.cause e.sub e.val 0)

end Sys2Proof.Machine
end

