-- ==== Sys2Proof/Machine/Queues.lean ====
section
/-! DEFINITION. The token queues of a region's ports and the lantern's notes about started commands, shared by the fabric, the
tongs and the lantern (R218, R220, R232, R235, R236, R267, R288, R396, R401, R423). -/

namespace Sys2Proof.Machine

/-- The tokens of a port, oldest first. -/
def queueOf (p : PortId) : List (PortId × List Token) → List Token
  | [] => []
  | (q, ts) :: rest => if q = p then ts else queueOf p rest

/-- The tokens of a port replaced; a port with none is not listed. -/
def setQueueOf (p : PortId) (ts : List Token) : List (PortId × List Token) → List (PortId × List Token)
  | [] => if ts.isEmpty then [] else [(p, ts)]
  | (q, us) :: rest => if q = p then (if ts.isEmpty then rest.filter (fun e => decide (e.1 ≠ p)) else (p, ts) :: rest) else (q, us) :: setQueueOf p ts rest

/-- The tokens a port queue holds at most (R236). -/
def portDepth : Nat := 8

/-- The clock at which a place fired its end-of-stream noted (R287). -/
def Region.endFired (st : Site) (r : Region) : Region := { r with sentEnd := (st, r.clock) :: r.sentEnd.filter (fun e => decide (e.1 ≠ st)) }

/-- The port number under which a RETURN of a stream configuration holds what its outbound port has still to take (R265). -/
def outboundPort : Nat := 4

/-- The tokens at a port for the plane that its place serves (R288). -/
def Region.tokens (r : Region) (p : PortId) : List Token := queueOf p (if r.inShadow p.site then r.squeues else r.queues)

/-- Tokens of a port replaced, of the shadow plane or of the active one. -/
def Region.setTokensIn (sh : Bool) (p : PortId) (ts : List Token) (r : Region) : Region :=
  if sh then { r with squeues := setQueueOf p ts r.squeues } else { r with queues := setQueueOf p ts r.queues }

def Region.setTokens (p : PortId) (ts : List Token) (r : Region) : Region := r.setTokensIn (r.inShadow p.site) p ts

/-- Whether a port has a credit to give (R236). -/
def Region.hasRoom (r : Region) (p : PortId) : Bool := decide ((r.tokens p).length < portDepth)

/-- The spire, among all of the package, whose anvil holds a site of a region of spire `g` (R267). -/
def Region.siteSpire (g : Nat) (r : Region) (row col : Nat) : Nat :=
  g / 80 * 80 + (r.orow + row) / 32 * 10 + (r.ocol + col) / 80

/-- A site's counter block within its spire (R407): anvil, row and column. -/
def Region.siteKey (r : Region) (row col : Nat) : Nat :=
  let pr := r.orow + row
  let pc := r.ocol + col
  (2 * (pr / 16 % 2) + pc / 40 % 2) * 640 + pr % 16 * 40 + pc % 40

/-! ## Corrected errors -/

/-- The die of a structure (R423). -/
def structDie (cls id : Nat) : Nat :=
  if cls = 1 then id / 32 / 80 else if cls = 2 then id / 4096 / 80 else if cls = 3 then id / 256 / 80
  else if cls = 4 then id / 128 else if cls = 5 then id / 64 else id / 8 / 6

/-- The island of a structure (R34, R423); a spire site's is no one island. -/
def structIsland (cls id : Nat) : Option Nat :=
  if cls = 1 then some (3 * (id / 32))
  else if cls = 2 then some (3 * (id / 4096) + 2)
  else if cls = 3 then some (3 * (id / 256) + 1)
  else if cls = 5 then some (480 + 16 * (id / 64) + 2 + id % 64 / 8)
  else if cls = 6 then some (480 + 16 * (id / 8 / 6) + 13 + id / 8 % 6 / 2)
  else none

/-- Spares of a class in a unit (R35): the cores of a spire, the banks of a keep, the columns of an anvil, the sites of a die. -/
def spareCount (cls : Nat) : Nat := if cls = 1 then 1 else if cls = 2 then 96 else if cls = 3 then 1 else if cls = 4 then 4 else 0

/-- The unit whose spares a structure uses (R35, R423). -/
def spareUnit (cls id : Nat) : Nat :=
  if cls = 1 then id / 32 else if cls = 2 then id / 4096 else if cls = 3 then id / 64 else if cls = 4 then id / 128 else id

/-- Whether a spare of a structure's class remains (R424). -/
def spareLeft (cls id : Nat) (es : List Ecc) : Bool :=
  decide ((es.filter (fun e => decide (e.cls = cls ∧ spareUnit cls e.id = spareUnit cls id) && e.spared)).length < spareCount cls)

/-- The window in which a structure counts now: of 2^32 cycles of its island's clock, from its power-up (R423); of the package's
cycles for a spire site. (log 74: DESIGN CHOICE.) -/
def State.window (s : State) (cls id : Nat) : Nat :=
  (match structIsland cls id with
    | some i => if (s.island i).st = 1 then s.islandCycles i else 0
    | none => s.now) / 4294967296

/-- A structure's window ends (R423, R424): 16 or more corrected errors mark it lasting and raise a RAS event. -/
def State.closeWindow (cls id : Nat) (s : State) : State :=
  match s.ecc.find? (fun e => decide (e.cls = cls ∧ e.id = id)) with
  | none => s
  | some e =>
    let bad := decide (16 ≤ e.count)
    let win := s.window cls id
    let es := s.ecc.map (fun x =>
      if x.cls = cls ∧ x.id = id then { x with count := 0, lasting := x.lasting || bad, win := win } else x)
    let s' := { s with ecc := es }
    if bad then s'.postDie (structDie cls id) 10 cls (wordOf id) (wordOf e.count) (boolWord (!spareLeft cls id es)) else s'

/-- Whether the window that a structure last counted in has ended. -/
def State.windowOver (s : State) (e : Ecc) : Bool := decide (e.win < s.window e.cls e.id)

/-- A corrected error counted against a structure in a window (R423). -/
def countEcc (cls id win : Nat) : List Ecc → List Ecc
  | [] => [⟨cls, id, 1, false, false, win⟩]
  | e :: rest => if e.cls = cls ∧ e.id = id then { e with count := e.count + 1 } :: rest else e :: countEcc cls id win rest

/-- A structure corrects an error (R423): one that has counted in an earlier window ends it first. -/
def State.correct (cls id : Nat) (s : State) : State :=
  let s := if s.ecc.any (fun e => decide (e.cls = cls ∧ e.id = id) && s.windowOver e) then s.closeWindow cls id else s
  { s with ecc := countEcc cls id (s.window cls id) s.ecc }

/-- The physical number of a logical part: the spare's, which follows the others, once it has replaced the part (R35, R423).
(log 93: DEDUCED.) -/
def State.physical (s : State) (cls base n spare : Nat) : Nat :=
  if s.ecc.any (fun e => decide (e.cls = cls ∧ e.id = base + n) && e.spared) then base + spare else base + n

/-- A core as a structure of class 1 (R423). -/
def State.coreId (s : State) (t : Nat) : Nat := s.physical 1 (tidSpire t * 32) (tidCore t) 16

/-- The anvil column of a site as a structure of class 3 (R423). -/
def State.columnId (s : State) (g : Nat) (r : Region) (row col : Nat) : Nat :=
  s.physical 3 (r.siteSpire g row col * 256 + r.siteKey row col / 640 * 64) (r.siteKey row col % 40) 40

/-! ## Tokens and commands -/

/-- TNODE (R220). -/
def tnodeWord (region row col arm node block : Nat) : Word :=
  wordOf (atBit region 40 + atBit row 32 + atBit col 22 + atBit arm 21 + atBit node 15 + atBit block 7)

/-- TNODE of a placed node. -/
def PNode.tnode (n : PNode) (region : Nat) : Word := tnodeWord region n.site.row n.site.col n.arm n.idx n.block

/-- A fault recorded for a tag (R218): the first stands, later ones are counted. -/
def Region.fault (tag : BitVec 8) (c : Cause) (sub : Nat) (val node : Word) (r : Region) : Region :=
  if r.faults.any (fun f => decide (f.tag = tag)) then { r with faultCount := r.faultCount + 1 }
  else { r with faults := r.faults ++ [⟨tag, c, sub, val, node⟩] }

/-- The node that a plane has at a place, arm 0 first. -/
def Plane.nodeAt (p : Plane) (st : Site) : Option PNode := p.nodes.find? (fun n => decide (n.site = st))

/-- A token enters a port's queue (R235, R236, R288): a token that fails its parity check is poisoned, recorded and counted. -/
def State.enter (g n : Nat) (sh : Bool) (p : PortId) (t : Token) (s : State) : State :=
  match s.region g n with
  | none => s
  | some r =>
    let sh := sh || r.inShadow p.site
    let bad := r.parity.contains p
    let plane := if sh then r.shadow else r.active
    let node := match plane.bind (fun q => q.nodeAt p.site) with
      | some m => m.tnode n
      | none => tnodeWord n p.site.row p.site.col 0 0 0
    let r := if bad then ({ r with parity := r.parity.filter (fun q => decide (q ≠ p)) }).fault t.tag .illegal 0x42 0 node else r
    let t : Token := if bad then { t with poison := true } else t
    let ts := queueOf p (if sh then r.squeues else r.queues) ++ [t]
    let s := s.setRegion g n (r.setTokensIn sh p ts)
    if bad then s.correct 3 (s.columnId g r p.site.row p.site.col) else s

/-- A token sent from outside to an entry port or passed to an outbound port (R211, R265, R394). -/
def State.enterPort (g n : Nat) (p : PortId) (t : Token) (s : State) : State := s.enter g n false p t

/-- The port through which an ENTRY or a RETURN node meets the outside (R231): the node's own place, port a. -/
def PNode.outside (n : PNode) : PortId := ⟨n.site, 0⟩

/-- A started command changed, found by its packet index. -/
def State.updateCmd (q : Nat) (idx : Nat) (f : Cmd → Cmd) (s : State) : State :=
  let v := s.queue q
  s.setQueue q { v with cmds := v.cmds.map (fun c => if c.idx.toNat = idx then f c else c) }

/-- A command stalls on a fault (R396): the fault is kept, CODE takes the cause, a STALL event is written. -/
def State.stallCmd (q idx : Nat) (f : Flt) (s : State) : State :=
  let v := s.queue q
  match v.cmds.find? (fun c => decide (c.idx.toNat = idx)) with
  | none => s
  | some c =>
    let s := s.setQueue q { v with code := BitVec.ofNat 8 f.cause.code }
    let s := s.updateCmd q idx (fun c => { c with stalled := some f })
    State.post ⟨2, q, q / 32, f.cause.code, wordOf idx, f.val, packetTag c.words, 0⟩ s

/-- A command ends with a CMD_ERROR event (R401); its completion follows. (log 59: DESIGN CHOICE.) -/
def State.failCmd (q idx code : Nat) (info : Word) (s : State) : State :=
  match (s.queue q).cmds.find? (fun c => decide (c.idx.toNat = idx)) with
  | none => s
  | some c => (s.cmdError q c.idx c.words code info).updateCmd q idx (fun c => { c with done := true, stalled := none })

/-- An event raised for a thread by an engine (R329, R354): delivered at its boundary; `ends` tells which parks it clears.
For any other park it also goes to the lantern (`tell`); for a thread that is gone it goes there only. -/
def State.threadEvent (h : BitVec 24) (c : Cause) (sub val : Word) (ends : Park → Bool) (tell : Bool) (s : State) : State :=
  let t := handleTid h
  let lantern (s : State) : State := s.postDie (tidDie t) 6 c.code (h.setWidth 64) sub val
  if s.lives h then
    let v := s.slot t
    let v : Slot := { v with events := v.events ++ [⟨c, sub, val⟩] }
    match v.park with
    | some k =>
      if ends k then { s.setSlot t v.unpark with waits := s.waits.filter (fun e => decide (e.2 ≠ t)) }
      else if tell then lantern (s.setSlot t v) else s.setSlot t v
    | none => s.setSlot t v
  else lantern s

end Sys2Proof.Machine
end

