-- ==== Sys2Proof/Machine/Copy.lean ====
section
/-! DEFINITION. The tongs: shapes, copies, watermarks, freezing and channel registers (R317 to R337). -/

namespace Sys2Proof.Machine

/-! ## Shapes -/

/-- The counts of a shape's levels, innermost first. -/
def CopyShape.counts (sh : CopyShape) : List Nat := sh.levels.toList.map Level.cnt

/-- The elements of a copy (R321). -/
def CopyShape.total (sh : CopyShape) : Nat := sh.counts.foldl (fun a c => a * c) 1

/-- The offset of element `n` over a list of levels (R321): `stride` chooses the side. -/
def offsetFrom (stride : Level → Int) (n : Nat) : List Level → Int
  | [] => 0
  | l :: rest => ((n % l.cnt : Nat) : Int) * stride l + offsetFrom stride (n / l.cnt) rest

/-- The element's source address (R321), modulo 2^64, and its destination address. -/
def CopyEntry.source (e : CopyEntry) (n : Nat) : Word := e.src + BitVec.ofInt 64 (offsetFrom Level.sstr n e.shape.levels.toList)
def CopyEntry.target (e : CopyEntry) (n : Nat) : Word := e.dst + BitVec.ofInt 64 (offsetFrom Level.dstr n e.shape.levels.toList)

/-- The monotone rule (R321), level by level from the span so far. -/
def monotoneFrom (span : Int) : List Level → Bool
  | [] => true
  | l :: rest =>
    if 1 < l.cnt then decide (span ≤ l.dstr) && monotoneFrom (((l.cnt : Int) - 1) * l.dstr + span) rest
    else monotoneFrom span rest

def CopyShape.monotone (sh : CopyShape) : Bool := monotoneFrom (2 ^ sh.loge : Nat) sh.levels.toList

/-- A level written from the pair of R320: the new shape, or none where the pair breaks its limits. -/
def CopyShape.write (lo hi : Word) (sh : CopyShape) : Option CopyShape :=
  let cnt := fld hi 40 1 * 16777216 + fld lo 40 24
  let loge := fld hi 44 4
  if fld hi 48 16 ≠ 0 ∨ 8 < loge ∨ 16777216 < cnt then none
  else
    let lev : Level := ⟨cnt, (lo.setWidth 40).toInt, (hi.setWidth 40).toInt⟩
    some ⟨sh.levels.set (fld hi 41 3 % 8) lev (Nat.mod_lt _ (by decide)), loge⟩

/-! ## Channels -/

/-- The copy that lands, waits for its signal or is frozen (R318). -/
def Channel.activeCopy (c : Channel) : Option CopyEntry := c.queue.find? (fun e => e.st.active)

/-- The active copy changed. -/
def Channel.updateActive (f : CopyEntry → CopyEntry) (c : Channel) : Channel :=
  { c with queue := c.queue.map (fun e => if e.st.active then f e else e) }

/-- The active copy has completed: its entry goes and its window is deregistered (R326); the next starts. -/
def Channel.complete (c : Channel) : Channel :=
  ({ c with queue := c.queue.filter (fun e => !e.st.active) } : Channel).startNext

def State.setChannel (g ch : Nat) (v : Channel) (s : State) : State := s.setSpire g ((s.spire g).setChannel ch v)

/-- Whether an active copy has landed and its signal is still to be performed (R333): SIGP. -/
def CopyEntry.signalDue (e : CopyEntry) : Bool :=
  decide (e.st = .signal) || (decide (e.st = .frozen) && decide (e.next = e.shape.total))

/-- CSTAT (R333). -/
def Channel.cstat (c : Channel) : Word :=
  let act := c.activeCopy
  let is (st : CopyState) : Bool := act.any (fun e => decide (e.st = st))
  wordOf (atBit c.fcause 32 + atBit (c.ftsub % 256) 24 + atBit c.side 16
    + atBit (bit (c.queue.any (fun e => decide (e.st = .aborted)))) 15 + atBit (bit (act.any CopyEntry.signalDue)) 14
    + atBit c.queue.length 8 + atBit (bit (act.any (fun e => e.port.isSome))) 7
    + (if is .frozen then 2 else if act.isSome then 1 else 0))

/-- The window of a copy as addresses; none for a port copy (R323). -/
def CopyEntry.base (e : CopyEntry) : Word := if e.port.isSome then 0 else e.dst
def CopyEntry.stop (e : CopyEntry) : Word :=
  if e.port.isSome then 0 else ((e.dst + BitVec.ofInt 64 e.shape.span).setWidth 48).setWidth 64

/-- The issuer's handle; the lantern's copies have none. -/
def CopyEntry.handle (e : CopyEntry) : Word :=
  match e.issuer with
  | .thread h => h.setWidth 64
  | .command _ _ => 0

/-- A channel register (R333). -/
def Channel.reg (c : Channel) (sel : Nat) : Word :=
  let act (f : CopyEntry → Word) : Word := (c.activeCopy.map f).getD 0
  let old (f : CopyEntry → Word) : Word := ((c.queue.find? (fun e => decide (e.st = .aborted))).map f).getD 0
  match sel with
  | 0 => c.cstat
  | 1 => c.faddr
  | 2 => act CopyEntry.base
  | 3 => act CopyEntry.stop
  | 4 => act CopyEntry.handle
  | 5 => old CopyEntry.base
  | 6 => old CopyEntry.stop
  | _ => old (fun e => e.wm.setWidth 64)

/-! ## Issue -/

/-- Whether a window's bytes lie in two keep windows, or in one and elsewhere (R31, R322). -/
def windowCrosses (g lo n : Nat) : Bool :=
  match zoneOf g lo with
  | .keep _ o => decide (3145728 < o + n)
  | _ =>
    let meets (b : Nat) : Bool := decide (lo < b + 3145728 ∧ b < lo + n)
    meets 0x7F1000000000 || (List.range 160).any (fun k => meets (0x7F0000000000 + k * 0x400000))

/-- The traps of R322 at issue, in their order. -/
def copyFault (g : Nat) (sh : CopyShape) (dst sig : Word) (toPort : Bool) : Option Flt :=
  if sig.toNat % 8 ≠ 0 then some ⟨.align, 1, sig⟩
  else if sh.counts.any (fun c => decide (c = 0)) then some ⟨.shape, 1, 0⟩
  else if toPort then none
  else if !sh.monotone then some ⟨.shape, 2, 0⟩
  else if 281474976710656 < dst.toNat + sh.span.toNat then some ⟨.shape, 3, 0⟩
  else if windowCrosses g dst.toNat sh.span.toNat then some ⟨.xspace, 0, dst⟩
  else none

/-- The inbound port that a word names (R323), when a copy may go to it. -/
def Spire.copyPort (sp : Spire) (w : Word) : Option CopyPort :=
  let p : CopyPort := ⟨fld w 16 6, fld w 8 8, fld w 0 6⟩
  if fld w 22 42 ≠ 0 ∨ fld w 6 2 ≠ 0 then none
  else
    match sp.region p.region with
    | none => none
    | some r =>
      if r.kind ≠ 1 ∨ r.st ≠ .placed then none
      else
        match r.active.bind (fun a => a.find p.block p.node) with
        | none => none
        | some n =>
          let fed := r.binds.any (fun b => b.ports.any (fun q =>
            (r.entries[q.entry]?).any (fun e => decide (e.site = n.site)) && !q.descs.isEmpty))
          if nodeOp n.word = 62 ∧ !fed then some p else none

/-- A copy issues: the next number of its spire's issue sequence (R318). -/
def State.numberCopy (g : Nat) (s : State) : State :=
  let sp := s.spire g
  s.setSpire g { sp with copySeq := sp.copySeq + 1 }

/-- The number of the CPY with which a slot waits to enter a channel (R318, R322). -/
def Slot.copyWait (v : Slot) (ch : Nat) : Option Nat :=
  match v.park with
  | some ⟨_, .copy r, _, _, _⟩ => if r.ch = ch then some r.seq else none
  | _ => none

/-- Whether a channel takes the copy of a number (R318, R322): it holds fewer than four, and no CPY that issued earlier still waits
to enter it, so that they land in the order of issue. (log 105: DEDUCED.) -/
def State.copyRoom (s : State) (g ch seq : Nat) : Bool :=
  decide (((s.spire g).channel ch).queue.length < 4)
    && !s.slots.any (fun e => decide (tidSpire e.1 = g) && (e.2.copyWait ch).any (fun n => decide (n < seq)))

/-- A copy of a number enters its channel's queue (R318, R322). -/
def State.enqueueCopy (g ch : Nat) (sh : CopyShape) (src dst sig : Word) (issuer : Issuer) (c : Ctx) (port : Option CopyPort)
    (seq : Nat) (s : State) : State :=
  let sp := s.spire g
  let e : CopyEntry := {
    shape := sh, src := src, dst := dst, sig := sig, issuer := issuer, asid := c.asid, ptbr := c.ptbr, kwin := c.kwin,
    prv := c.prv, port := port, st := .queued, next := 0, wm := if port.isSome then 0 else dst.setWidth 48,
    seq := seq, hold := [], serial := s.serial, far := false }
  let k := sp.channel ch
  let k := ({ k with queue := k.queue ++ [e] } : Channel).startNext
  { s.setSpire g (sp.setChannel ch k) with serial := s.serial + 1 }

/-- The CPY of a slot enters its channel's queue: the staging shape is at its default again, and the status is 0 (R322). -/
def State.copyIn (t : Nat) (r : CopyReq) (s : State) : State :=
  let g := tidSpire t
  let v := s.slot t
  let s := s.enqueueCopy g r.ch r.shape r.src r.dst r.sig (.thread (v.handle t)) (v.ctx g) r.port r.seq
  let u := (s.spire g).channel r.ch
  (s.setChannel g r.ch { u with shape := CopyShape.reset, owner := none }).setSlot t (v.setX r.d 0).resume

/-- A CPY that waits (R322): MEM until its thread's earlier accesses are performed, then CPYQ until its channel takes it. -/
def State.copyEnters (t : Nat) (r : CopyReq) (s : State) : State :=
  let v := s.slot t
  if !v.queue.isEmpty then s
  else if s.copyRoom (tidSpire t) r.ch r.seq then s.copyIn t r
  else if v.park.any (fun k => decide (k.reason = .cpyq)) then s
  else s.parkAt t .cpyq (.copy r)

/-- CPY (R322, R323). -/
def execCpy (g : Guard) (d a : Reg) (p : BitVec 1) (c : BitVec 4) (s : State) : Host.Outcome State Fault Refusal :=
  guarded g (fun s =>
    let sp := s.spire (tidSpire s.tid)
    let k := sp.channel c.toNat
    let sig := s.getX d
    let src := s.getX a
    let dst := s.getX (a + 1)
    let h := s.thr.handle s.tid
    let port := if p = 1 then sp.copyPort dst else none
    if k.owner ≠ none ∧ k.owner ≠ some h then s.retX d 2
    else if p = 1 ∧ port = none then s.retX d 3
    else
      match copyFault (tidSpire s.tid) k.shape dst sig (decide (p = 1)) with
      | some f => s.trapFlt f
      | none =>
        let r : CopyReq := ⟨c.toNat, k.shape, src, dst, sig, port, sp.copySeq, d⟩
        let s := s.numberCopy (tidSpire s.tid)
        if !s.thr.queue.isEmpty then s.park .mem (.copy r)
        else if s.copyRoom (tidSpire s.tid) c.toNat r.seq then s.copyIn s.tid r
        else s.park .cpyq (.copy r)) s

/-- CSHP (R320). -/
def execCshp (g : Guard) (d a : Reg) (c : BitVec 4) (s : State) : Host.Outcome State Fault Refusal :=
  guarded g (fun s =>
    let sp := tidSpire s.tid
    let k := (s.spire sp).channel c.toNat
    let h := s.thr.handle s.tid
    let foreign : Bool := decide (k.owner ≠ none ∧ k.owner ≠ some h)
    match (if foreign then CopyShape.reset else k.shape).write (s.getX a) (s.getX (a + 1)) with
    | none => s.retX d 3
    | some sh => (s.setChannel sp c.toNat { k with shape := sh, owner := some h }).retX d (boolWord foreign)) s

/-- CPYQ (R333). -/
def execCpyq (g : Guard) (d a : Reg) (c : BitVec 4) (s : State) : Host.Outcome State Fault Refusal :=
  guarded g (fun s => s.retX d (((s.spire (tidSpire s.tid)).channel c.toNat).reg (fld (s.getX a) 0 3))) s

/-- Whether a user thread may act on a copy (R330, R331). -/
def Slot.mayAct (v : Slot) (e : CopyEntry) : Bool := decide (v.prv ≠ .user) || decide (e.asid = v.asid)

/-- CPYRES (R330). -/
def execCpyres (g : Guard) (d a : Reg) (c : BitVec 4) (s : State) : Host.Outcome State Fault Refusal :=
  guarded g (fun s =>
    let sp := tidSpire s.tid
    let k := (s.spire sp).channel c.toNat
    let x := s.getX a
    let v := s.thr
    if fld x 1 63 ≠ 0 then s.retX d 3
    else
      let target (e : CopyEntry) : Bool := if x = 0 then decide (e.st = .frozen) else decide (e.st = .aborted)
      let es := k.queue.filter target
      if es.isEmpty then s.retX d 1
      else if es.any (fun e => !v.mayAct e) then s.retX d 2
      else if x = 0 then (s.setChannel sp c.toNat k.resume).retX d 0
      else (s.setChannel sp c.toNat { k with queue := k.queue.filter (fun e => !target e) }).retX d 0) s

/-- A copy's end noted for the command that issued it (R400). (log 54: DEDUCED.) -/
def State.copyEnds (e : CopyEntry) (aborted signalled : Bool) (s : State) : State :=
  match e.issuer with
  | .thread _ => s
  | .command q idx =>
    if aborted then s.failCmd q idx 0x45 0
    else s.updateCmd q idx (fun c => { c with done := true, stalled := none, sigDone := signalled })

/-- CPYABT (R331). -/
def execCpyabt (g : Guard) (d : Reg) (l : BitVec 1) (c : BitVec 4) (s : State) : Host.Outcome State Fault Refusal :=
  guarded g (fun s =>
    let sp := tidSpire s.tid
    let k := (s.spire sp).channel c.toNat
    let v := s.thr
    let target (e : CopyEntry) : Bool := e.st.active || (decide (l = 1) && decide (e.st = .queued))
    let es := k.queue.filter target
    if es.isEmpty then s.retX d 1
    else if es.any (fun e => !v.mayAct e) then s.retX d 2
    else
      let k := { k with
        fcause := 0, ftsub := 0, side := 0, faddr := 0,
        queue := k.queue.map (fun e => if target e then { e with st := .aborted } else e) }
      let s := s.setChannel sp c.toNat (Channel.startNext k)
      (es.foldl (fun s e => s.copyEnds e true false) s).retX d 0) s

/-- WMRD (R334). -/
def execWmrd (g : Guard) (d : Reg) (c : BitVec 4) (s : State) : Host.Outcome State Fault Refusal :=
  guarded g (fun s => s.retX d (((s.spire (tidSpire s.tid)).channel c.toNat).wm.setWidth 64)) s

/-- Whether WMWAIT must still wait (R335): an aborted window does not hold it. -/
def State.wmHolds (s : State) (c : Ctx) (ch : Nat) (x : Word) : Bool :=
  let k := (s.spire c.g).channel ch
  if x = BitVec.allOnes 64 then k.queue.any (fun e => decide (e.st ≠ .aborted))
  else
    let chunk : Chunk := match zoneOf c.g x.toNat with
      | .keep g o => ⟨x.toNat, keepKey g o, 1, true, true, false⟩
      | _ => ⟨x.toNat, 0, 1, false, false, false⟩
    heldBy (k.queue.filterMap (fun e => e.win c.g ch)) c.asid [chunk]

/-- WMWAIT (R335). -/
def execWmwait (g : Guard) (d a : Reg) (c : BitVec 4) (s : State) : Host.Outcome State Fault Refusal :=
  guarded g (fun s =>
    let x := s.getX a
    if s.wmHolds s.ctx c.toNat x then s.park .wmark (.wait (.channelMark c.toNat x))
    else s.retX d ((s.spire (tidSpire s.tid)).channel c.toNat).cstat) s

/-! ## Landing -/

/-- The rights of a copy (R317). -/
def CopyEntry.ctx (e : CopyEntry) (g : Nat) : Ctx := ⟨g, e.asid, e.ptbr, e.kwin, e.prv⟩

/-- A copy freezes (R328): the fault is recorded, its issuer is told (R329), a command's COPY stalls (R400). -/
def State.freeze (g ch : Nat) (e : CopyEntry) (side : Nat) (f : Flt) (s : State) : State :=
  let k := (s.spire g).channel ch
  let k := { k.updateActive (fun e => { e with st := .frozen }) with
    fcause := f.cause.code, ftsub := f.sub, side := side, faddr := f.val }
  let s := s.setChannel g ch k
  match e.issuer with
  | .thread h =>
    s.threadEvent h .cpyFrozen (wordOf ch) f.val (fun p => decide (p.reason = .wmark) || decide (p.reason = .cpyq)) true
  | .command q idx => s.stallCmd q idx f

/-- The active copy goes on with new data; wm.n follows it (R324). -/
def State.progress (g ch : Nat) (e : CopyEntry) (s : State) : State :=
  let k := (s.spire g).channel ch
  s.setChannel g ch { k.updateActive (fun _ => e) with wm := e.wm }

/-- The copy has landed whole: its signal is due, or it completes (R328, R336). -/
def State.landed (g ch : Nat) (e : CopyEntry) (s : State) : State :=
  if e.sig = 0 then
    let s := s.setChannel g ch ((s.spire g).channel ch).complete
    s.copyEnds e false false
  else s.progress g ch { e with st := .signal }

/-- What an element's source meets: the earlier windows (R325). -/
def State.sourceRow (s : State) (g : Nat) (e : CopyEntry) (cs : List Chunk) : Verdict :=
  watermarkRow (((s.spire g).wins g).filter (fun w => decide (w.seq < e.seq))) e.asid cs

/-- Whether a home is host or peer memory (R336). -/
def Home.far : Home → Bool
  | .host | .peer _ => true
  | _ => false

/-- Element `n` of a memory copy lands, or freezes the copy, or waits (R325). -/
def State.landElement (g ch : Nat) (e : CopyEntry) (s : State) : State :=
  let size := 2 ^ e.shape.loge
  let c := e.ctx g
  let src := e.source e.next
  let dst := e.target e.next
  let (s, v) := s.engineCheck c (.load src size) false
  match v with
  | .fault f => s.freeze g ch e 0 f
  | .miss _ | .hold _ => s
  | .pass cs =>
    let (s, v) := s.engineCheck c (.store dst size) false
    match v with
    | .fault f => s.freeze g ch e 1 f
    | .miss _ | .hold _ => s
    | .pass ds =>
      match s.sourceRow g e cs with
      | .fault f => s.freeze g ch e 0 f
      | .miss _ | .hold _ => s
      | .pass _ =>
        let (s, bs) := State.readPieces g (piecesOf cs src.toNat size) s
        match s.engineWrite g (storePieces ds dst.toNat size bs) with
        | .error f => s.freeze g ch e 1 f
        | .ok s =>
          let n := e.next + 1
          let wm := if n = e.shape.total then e.stop else e.target n
          let e := { e with next := n, wm := wm.setWidth 48, far := e.far || ds.any (fun k => (s.chunkHome k).far) }
          let s := s.progress g ch e
          if n = e.shape.total then s.landed g ch e else s

/-- The highest level that the first `n` elements complete (R323), from level `l` of `k` elements. -/
def completedFrom (n : Nat) : Nat → Nat → List Nat → Nat
  | l, _, [] => l
  | l, k, c :: rest => if n % (k * c) = 0 then completedFrom n (l + 1) (k * c) rest else l

/-- The token's DIM at the end of a level-0 run (R323): min(L + 1, 7) for the highest completed level L. (log 70: DEDUCED.) -/
def runDim (sh : CopyShape) (n : Nat) : Nat := min (completedFrom n 0 1 sh.counts) 7

/-- A data token of up to eight bytes (R323). -/
def bytesToken (tag : BitVec 8) (dim : Nat) (bs : List Byte) : Token :=
  ⟨false, tag, dim, .data, BitVec.ofNat 8 (2 ^ bs.length - 1), wordOf (leNat bs), 0⟩

/-- Whether an element just read ends a level-0 run (R323). -/
def CopyEntry.runEnds (e : CopyEntry) : Bool := decide (0 < e.next) && decide (e.next % e.shape.counts.getD 0 1 = 0)

/-- Whether the bytes at hand close a token (R323): eight of them, or the last of a level-0 run. -/
def CopyEntry.closes (e : CopyEntry) : Bool := decide (8 ≤ e.hold.length) || (e.runEnds && !e.hold.isEmpty)

/-- The next token of a port copy (R323). -/
def CopyEntry.token (e : CopyEntry) : Token :=
  let dim := if e.runEnds && (e.hold.drop 8).isEmpty then runDim e.shape e.next else 0
  let tag : BitVec 8 := match e.issuer with
    | .thread h => tidTag (handleTid h)
    | .command _ _ => 0
  bytesToken tag dim (e.hold.take 8)

/-- The closed tokens of a port copy enter its port while that has room (R323): `n` bounds them. -/
def State.emitPort (g : Nat) (p : CopyPort) : Nat → CopyEntry → State → State × CopyEntry
  | 0, e, s => (s, e)
  | n + 1, e, s =>
    if !e.closes then (s, e)
    else
      match (s.region g p.region).bind (fun r => (r.active.bind (fun a => a.find p.block p.node)).map (fun m => (r, m))) with
      | none => (s, e)
      | some (r, m) =>
        if r.hasRoom m.outside && !r.halt then
          State.emitPort g p n { e with hold := e.hold.drop 8, wm := e.wm + BitVec.ofNat 48 (e.hold.take 8).length }
            (s.enterPort g p.region m.outside e.token)
        else (s, e)

/-- The tokens that one element of at most 256 bytes closes (R320, R323). -/
def elementTokens : Nat := 33

/-- A port copy goes on after its tokens: it has landed whole with its last one. -/
def State.portProgress (g ch : Nat) (e : CopyEntry) (s : State) : State :=
  if e.hold.isEmpty ∧ e.next = e.shape.total then (s.progress g ch e).landed g ch e else s.progress g ch e

/-- An element of a port copy (R323): the tokens that an earlier one left enter the port, then the element is read and its own
follow, as far as the port gives credit. -/
def State.landPort (g ch : Nat) (e : CopyEntry) (p : CopyPort) (s : State) : State :=
  let (s, e) := State.emitPort g p elementTokens e s
  if e.closes ∨ e.next = e.shape.total then s.portProgress g ch e
  else
    let s := s.progress g ch e
    let size := 2 ^ e.shape.loge
    let src := e.source e.next
    let (s, v) := s.engineCheck (e.ctx g) (.load src size) false
    match v with
    | .fault f => s.freeze g ch e 0 f
    | .miss _ | .hold _ => s
    | .pass cs =>
      match s.sourceRow g e cs with
      | .fault f => s.freeze g ch e 0 f
      | .miss _ | .hold _ => s
      | .pass _ =>
        let (s, bs) := State.readPieces g (piecesOf cs src.toNat size) s
        let (s, e) := State.emitPort g p elementTokens { e with next := e.next + 1, hold := e.hold ++ bs } s
        s.portProgress g ch e

/-- The element of a channel's copy that is next lands, if it is ready (R323, R325). -/
def State.landNext (g ch : Nat) (s : State) : State :=
  match ((s.spire g).channel ch).activeCopy with
  | none => s
  | some e =>
    if e.st ≠ .landing then s
    else
      match e.port with
      | none => s.landElement g ch e
      | some p => s.landPort g ch e p

/-- Whether a channel has an element ready (R337): one that waits on a source hold or its port's credit is not. -/
def State.elementReady (g ch : Nat) (s : State) : Bool :=
  decide (((s.landNext g ch).spire g).channel ch ≠ (s.spire g).channel ch)

/-- The channels whose turn comes before that of `ch`, which `last` landed before (R337). -/
def channelsBefore (last ch : Nat) : List Nat :=
  ((List.range 15).map (fun i => (last + 1 + i) % 16)).takeWhile (fun c => decide (c ≠ ch))

/-- ELEMENT_LAND: the tongs land one element of a channel's copy, when the channel's turn has come (R323, R325, R337).
(log 81: DEDUCED.) -/
def execEvElementLand (spire ch : Nat) (s : State) : Host.Outcome State Fault Refusal :=
  let sp := s.spire spire
  if (channelsBefore sp.lastCh ch).any (fun c => (sp.channel c).activeCopy.isSome && s.elementReady spire c) then .next s
  else
    let s := s.landNext spire ch
    .next (s.setSpire spire { s.spire spire with lastCh := ch })

/-- How a signal ends: performed, still held back, or refused. -/
inductive SignalEnd where
  | made
  | waits
  | fault (f : Flt)
  deriving DecidableEq, Repr

/-- An atomic add of one at a word, as a signal to host memory makes it (R397, R400): `marks` when the tongs of a spire make it
(R326). -/
def State.signalAdd (c : Ctx) (va v : Word) (marks : Bool) (s : State) : State × SignalEnd :=
  let (s, r) := s.engineCheck c ⟨.readWrite, va, 8, true, false, false, false, false⟩ marks
  match r with
  | .fault f => (s, .fault f)
  | .miss _ | .hold _ => (s, .waits)
  | .pass cs =>
    let (s, o) := s.amoHome c.g ⟨.add, true, keyAt cs va.toNat, va.toNat, cs.any Chunk.once, v, 0⟩
    (s.leaveNo c.g, match o with
      | .ok _ => .made
      | .error f => .fault f)

/-- A sync-word operation by the tongs or the lantern at a word (R326, R336, R397). -/
def State.signalSync (c : Ctx) (op : SyncOp) (va v : Word) (sc : Scope) (marks : Bool) (s : State) : State × SignalEnd :=
  let (s, r) := s.engineCheck c ⟨op.kind, va, 8, true, true, false, false, op.notToPeer⟩ marks
  match r with
  | .fault f => (s, .fault f)
  | .miss _ | .hold _ => (s, .waits)
  | .pass cs =>
    let q : SyncReq := ⟨op, keyAt cs va.toNat, va.toNat, cs.any Chunk.once, sc, 0, 0, v⟩
    match s.home q.key with
    | .peer p =>
      let s := s.askPeer p ⟨0, q.key, [], none, some q, false⟩
      let (s, w) := s.freeWord
      (s, match peerFault w op.ownFault q.va with
        | some f => .fault f
        | none => .made)
    | _ =>
      let (s, o) := s.syncHome c.g q
      (s.leaveNo c.g, match o with
        | .fault f => .fault f
        | .waits => .waits
        | .done _ _ _ => .made)

/-- Whether a word lies in host memory, for a signal's choice of operation (R397, R400). -/
def State.inHost (c : Ctx) (va : Word) (s : State) : State × Bool :=
  let (s, r) := s.checkNow c ⟨.readWrite, va, 8, false, false, false, false, false⟩
  match r with
  | .pass cs => (s, cs.any (fun k => decide (s.home k.key = .host)))
  | _ => (s, false)

/-- The completion signal of a landed copy (R328, R336): an access of the spire, which its windows hold (R326); a lantern's COPY
adds 1 when the word lies in host memory (R400). -/
def State.copySignal (g : Nat) (e : CopyEntry) (s : State) : State × SignalEnd :=
  let c := e.ctx g
  match e.issuer with
  | .thread _ => s.signalSync c .arrive e.sig 0 .package true
  | .command _ _ =>
    let (s, host) := s.inHost c e.sig
    if host then s.signalAdd c e.sig 1 true else s.signalSync c .arrive e.sig 0 .package true

/-- Whether some byte of a copy's window, the gaps among them, lies in host or peer memory (R321, R336). -/
def State.windowFar (s : State) (g : Nat) (e : CopyEntry) : Bool :=
  e.far || (e.port.isNone && (pageCuts (e.shape.span.toNat / 4096 + 2) e.dst.toNat e.shape.span.toNat).any (fun c =>
    ((s.placeOf (e.ctx g) .write c.1).orElse (fun _ => s.placeOf (e.ctx g) .read c.1)).any (fun k => (s.home k).far)))

/-- COPY_SIGNAL: the completion signal of a landed copy is performed, a release of its landing writes at PACKAGE, or at SYSTEM
where its window has bytes in host or peer memory (R336). (log 86: DEDUCED.) -/
def execEvCopySignal (spire ch : Nat) (s : State) : Host.Outcome State Fault Refusal :=
  match ((s.spire spire).channel ch).activeCopy with
  | none => .next s
  | some e =>
    if e.st ≠ .signal ∨ (s.windowFar spire e && !s.peersAcked) = true then .next s
    else
      match (s.writeBackAll spire).copySignal spire e with
      | (s, .fault f) => .next (s.freeze spire ch e 2 f)
      | (s, .waits) => .next s
      | (s, .made) =>
        let s := s.setChannel spire ch ((s.spire spire).channel ch).complete
        .next (s.copyEnds e false true)

end Sys2Proof.Machine
end

