-- ==== Sys2Proof/Machine/Merge.lean ====
section
/-! DEFINITION. The crucible: contexts, streams, spills, finishing, set operations and MERGE_STOP (R87, R88, R338 to R357). -/

namespace Sys2Proof.Machine

/-! ## Values -/

/-- The floating-point accumulator format of a value format; INT32 has none (R87). -/
def accFmt (vf : Nat) : Option Fmt := if vf = 3 then none else if vf = 1 then some fp64 else some fp32

/-- The VFMT code of the accumulator format (R348). -/
def accCode (vf : Nat) : Nat := if vf = 2 then 0 else vf

/-- The bytes of a value (R339). -/
def valBytes (vf : Nat) : Nat := if vf = 1 then 8 else if vf = 2 then 2 else 4

/-- A value with any NaN made canonical (R68, R87). -/
def Fmt.canonical (f : Fmt) (n : Nat) : Nat :=
  let m := n % 2 ^ f.width
  if (f.decode m).isNaN then f.canonNaN else m

/-- A value that is already in the accumulator format (R88). -/
def ofAcc (vf n : Nat) : Nat :=
  match accFmt vf with
  | none => n % 2 ^ 32
  | some f => f.canonical n

/-- An input value converted exactly to the accumulator format (R87). -/
def toAcc (vf n : Nat) : Nat := if vf = 2 then (fp32.widen (bf16.decode (n % 65536))).1 else ofAcc vf n

/-- Two sums combined (R87). -/
def accAdd (vf a b : Nat) : Nat :=
  match accFmt vf with
  | none => (a + b) % 2 ^ 32
  | some f => (fAdd f .rne (f.decode a) (f.decode b)).1

/-- The fold of a list of (key, value) by key, each key's values in the list's order (R87, R88), in rising key order. -/
def foldSums (vf : Nat) (xs : List (Nat × Nat)) : List (Nat × Nat) :=
  xs.foldl (fun t x =>
    match tget x.1 t with
    | none => tset x.1 x.2 t
    | some a => tset x.1 (accAdd vf a x.2) t) []

/-! ## Contexts -/

def Spire.context (sp : Spire) (c : Nat) : Context := sp.ctxs[c % 2]'(Nat.mod_lt _ (by decide))

def State.context (s : State) (g c : Nat) : Context := (s.spire g).context c

def State.setContext (g c : Nat) (v : Context) (s : State) : State :=
  let sp := s.spire g
  s.setSpire g { sp with ctxs := sp.ctxs.set (c % 2) v (Nat.mod_lt _ (by decide)) }

/-- The rights of a context's accesses: its owner's at OPEN (R338). -/
def Context.rights (v : Context) (g : Nat) : Ctx := ⟨g, v.asid, v.ptbr, v.kwin, v.prv⟩

def Context.stream (v : Context) (k : Nat) : Option Stream := v.streams[k % 16]'(Nat.mod_lt _ (by decide))

def Context.setStream (k : Nat) (x : Stream) (v : Context) : Context :=
  { v with streams := v.streams.set (k % 16) (some x) (Nat.mod_lt _ (by decide)) }

/-- Whether a stream still has an element to read; a run's header comes first (R344). -/
def Stream.unread (x : Stream) : Bool := (x.run && !x.hdr) || decide (x.pos < x.count)

/-- Whether a stream of a sort-accumulate context has an element that the buffer has not taken. -/
def Stream.busy (x : Stream) : Bool := x.unread || !x.items.isEmpty

/-- Whether a stream of a context has elements that the buffer has not taken. -/
def Context.streamBusy (v : Context) (k : Nat) : Bool := (v.stream k).any Stream.busy

/-- Whether every attached stream is wholly read (R350). -/
def Context.allRead (v : Context) : Bool := v.streams.toList.all (fun x => !x.any Stream.unread)

/-- Whether an element waits in a reader of a sort-accumulate context (R347). -/
def Context.waiting (v : Context) : Bool := v.mode && v.streams.toList.any (fun x => x.any (fun y => !y.items.isEmpty))

/-- Whether the buffer is full (R347). -/
def Context.isFull (v : Context) : Bool := decide (v.cap ≤ v.buffer.length)

/-- Whether the owner's MPUSH waits for the buffer (R345, R347). -/
def State.pushWaits (s : State) (c : Nat) (v : Context) : Bool :=
  match v.owner with
  | none => false
  | some h =>
    s.lives h &&
      match (s.slot (handleTid h)).park with
      | some ⟨_, .wait (.push e k), _, _, _⟩ => decide (e = c) && !v.streamBusy k
      | _ => false

/-- Whether the context takes elements and runs steps (R338, R353). -/
def Context.works (v : Context) : Bool := decide (v.st = .open_) || decide (v.st = .final)

/-! ## Stops -/

/-- The context of an instruction that a freeze of that context abandons (R354). -/
def Instr.stopsWith (i : Instr) : Option Nat :=
  match i with
  | .mpush _ _ _ c _ | .mstrm _ _ _ c _ _ | .mfin _ _ _ c | .xsect _ _ _ c | .xunion _ _ _ c | .xcnt _ _ _ c => some c.toNat
  | _ => none

/-- Whether a slot is parked MEM or ENGINE in such an instruction of context `c` (R354). -/
def Slot.stoppedIn (c : Nat) (v : Slot) (p : Park) : Bool :=
  match p.op with
  | .fetch _ | .walk _ .fetch _ => false
  | _ => decide (v.ins.bind Instr.stopsWith = some c) && (decide (p.reason = .mem) || decide (p.reason = .engine))

/-- An event recorded in the saved image of an absent thread (R354, R373, R374): in its next event entry, or EVLOST and to the
lantern only. -/
def State.recordStop (h : BitVec 24) (sub val : Word) (s : State) : State :=
  let t := handleTid h
  let g := tidSpire t
  match ((s.die (tidDie t)).absent.find? (fun e => decide (e.handle = h))).bind Absent.area with
  | none => s
  | some key =>
    let (s, bs) := s.readPiece g (key + 0x010) 8
    let state := wordOf (leNat bs)
    let put (o : Nat) (w : Word) (s : State) : State := s.writePiece g (key + o) (leBytes 8 w.toNat)
    let n := fld state 9 4
    if n < 8 then
      put 0x010 (state + 512) (put (0x0F0 + 24 * n) val (put (0x0E8 + 24 * n) sub (put (0x0E0 + 24 * n) (wordOf Cause.mergeStop.code) s)))
    else
      (put 0x010 (state ||| 0x2000) s).postDie (tidDie t) 6 Cause.mergeStop.code (h.setWidth 64) sub val

/-- A context freezes and raises MERGE_STOP for its owner (R353, R354). -/
def State.mergeStop (g c sub stream : Nat) (f : Option Flt) (tval : Word) (s : State) : State :=
  let v := s.context g c
  let sub := wordOf (sub + (f.map (fun f => atBit f.cause.code 8 + atBit (f.sub % 256) 16)).getD 0 + atBit stream 24)
  let v : Context := { v with st := .frozen, kept := v.st, ftsub := sub, faddr := tval }
  let s := s.setContext g c v
  match v.owner with
  | none => s
  | some h =>
    if s.lives h then s.threadEvent h .mergeStop sub tval ((s.slot (handleTid h)).stoppedIn c) false
    else s.recordStop h sub tval

/-- An access of a step that did not pass: a fault freezes the context, a held access waits (R356). -/
def State.mergeFails (g c sub stream : Nat) (w : Verdict) (s : State) : State :=
  match w with
  | .fault f => s.mergeStop g c sub stream (some f) f.val
  | _ => s

/-- Stores made one after another until one does not pass (R347, R351): how many are made, and what stopped them. -/
def State.writeFrom (x : Ctx) : List (Word × List Byte) → Nat → State → State × Nat × Option Verdict
  | [], n, s => (s, n, none)
  | (a, bs) :: rest, n, s =>
    match s.engineStore x a bs true with
    | (s, none) => State.writeFrom x rest (n + 1) s
    | (s, some w) => (s, n, some w)

/-! ## Streams -/

/-- The bytes of an element (R344, R348). -/
def elementBytes (key val : Nat) : List Byte := leBytes 8 key ++ leBytes 8 val

/-- The bytes of a run header (R348). -/
def headerBytes (lo hi count fmt runno : Nat) : List Byte :=
  leBytes 8 lo ++ leBytes 8 hi ++ leBytes 8 count ++ leBytes 1 fmt ++ leBytes 1 0 ++ leBytes 2 runno
    ++ [0x52#8, 0x55#8, 0x4E#8, 0x31#8]

/-- A field of a block of bytes read from memory. -/
def fieldAt (bs : List Byte) (off n : Nat) : Nat := leNat ((bs.drop off).take n)

/-- A run header is taken or freezes the context with RUNHDR (R346). -/
def State.takeHeader (g c k : Nat) (x : Stream) (bs : List Byte) (s : State) : State :=
  let v := s.context g c
  if bs.drop 28 = [0x52#8, 0x55#8, 0x4E#8, 0x31#8] ∧ fieldAt bs 24 1 = accCode v.vfmt ∧ fieldAt bs 25 1 = 0 then
    s.setContext g c (v.setStream k { x with hdr := true, count := fieldAt bs 16 8 })
  else s.mergeStop g c 6 k none x.base

/-- An element that a reader has read is taken: in merge mode kept in its stream, in order (R346); in sort-accumulate mode
into the buffer when it has room (R347). (log 50: DEDUCED.) -/
def State.takeElement (g c k : Nat) (x : Stream) (va : Word) (bs : List Byte) (s : State) : State :=
  let v := s.context g c
  let key := fieldAt bs 0 8
  let val := if x.run then ofAcc v.vfmt (fieldAt bs 8 8) else toAcc v.vfmt (fieldAt bs 8 8)
  let y := { x with pos := x.pos + 1 }
  if v.mode then
    if v.isFull then s.setContext g c (v.setStream k { y with items := [(key, val)] })
    else s.setContext g c { v.setStream k y with buffer := v.buffer ++ [⟨key, val, k⟩] }
  else if (x.items.getLast?).any (fun e => decide (key < e.1)) then s.mergeStop g c 5 k none va
  else s.setContext g c (v.setStream k { y with items := x.items ++ [(key, val)] })

/-- The next read of a stream (R344). -/
def State.streamRead (g c k : Nat) (s : State) : State :=
  let v := s.context g c
  match v.stream k with
  | none => s
  | some x =>
    if !v.works || v.spilling || v.waiting || s.pushWaits c v || !x.unread then s
    else if x.run && !x.hdr then
      match s.engineRead (v.rights g) x.base 32 true with
      | (s, .ok bs) => s.takeHeader g c k x bs
      | (s, .error w) => s.mergeFails g c 2 k w
    else
      let va := x.base + wordOf ((if x.run then 32 else 0) + 16 * x.pos)
      match s.engineRead (v.rights g) va 16 true with
      | (s, .ok bs) => s.takeElement g c k x va bs
      | (s, .error w) => s.mergeFails g c 2 k w

/-- STREAM_READ: the reader of stream `k` reads its next element, or its run's header (R344, R346). -/
def execEvStreamRead (spire ctx k : Nat) (s : State) : Host.Outcome State Fault Refusal := .next (s.streamRead spire ctx k)

/-! ## Spills -/

/-- The buffer's entries in the order R87 folds them: by stream, then by arrival. -/
def Context.inOrder (v : Context) : List (Nat × Nat) :=
  (List.range 16).flatMap (fun k => (v.buffer.filter (fun e => decide (e.stream = k))).map (fun e => (e.key, e.val)))

/-- The buffer sorted and folded in place (R347). (log 49: DESIGN CHOICE.) -/
def Context.folded (v : Context) : Context :=
  { v with buffer := (foldSums v.vfmt v.inOrder).map (fun e => ⟨e.1, e.2, 0⟩) }

/-- The size of the run that a folded buffer makes (R347). -/
def Context.runSize (v : Context) : Nat := (32 + 16 * v.buffer.length + 31) / 32 * 32

/-- The stores of a run in their order (R347, R348). -/
def Context.runStores (v : Context) : List (Word × List Byte) :=
  let m := v.buffer.length
  let at_ (i : Nat) : Word := v.spnext + wordOf (32 + 16 * i)
  (List.range m).map (fun i => (at_ i, match v.buffer[i]? with
      | some e => elementBytes e.key e.val
      | none => []))
    ++ (if m % 2 = 1 then [(at_ m, elementBytes 0 0)] else [])
    ++ [(v.spnext, headerBytes ((v.buffer.head?.map BufItem.key).getD 0) ((v.buffer.getLast?.map BufItem.key).getD 0) m
          (accCode v.vfmt) (v.runList.length % 65536))]

/-- The element that waits in a reader enters the buffer (R347). -/
def Context.enter (v : Context) : Context :=
  (List.range 16).foldl (fun v k =>
    match v.stream k with
    | some x =>
      if x.items.isEmpty then v
      else { v.setStream k { x with items := [] } with buffer := v.buffer ++ x.items.map (fun e => ⟨e.1, e.2, k⟩) }
    | none => v) v

/-- Whether a spill is due (R347, R350). -/
def State.spillDue (s : State) (c : Nat) (v : Context) : Bool :=
  v.mode && v.works && (v.spilling || (v.isFull && (v.waiting || s.pushWaits c v))
    || (decide (v.st = .final) && v.allRead && !v.waiting && decide (16 < v.runList.length) && !v.buffer.isEmpty))

/-- A spill (R347). -/
def State.spill (g c : Nat) (s : State) : State :=
  let v := s.context g c
  if !s.spillDue c v then s
  else
    let v : Context := if v.spilling then v else { v.folded with spilling := true, wrote := 0 }
    let s := s.setContext g c v
    let stop := v.spnext.toNat + v.runSize
    if v.splimit.toNat < stop then s.mergeStop g c 1 0 none (wordOf stop)
    else
      let (s, n, w) := s.writeFrom (v.rights g) (v.runStores.drop v.wrote) v.wrote
      match w with
      | some w => (s.setContext g c { v with wrote := n }).mergeFails g c 3 0 w
      | none =>
        s.setContext g c (Context.enter { v with
          runList := v.runList ++ [(v.spnext.toNat, v.buffer.length)], spnext := wordOf stop,
          buffer := [], spilling := false, wrote := 0 })

/-- SPILL (R347). -/
def execEvSpill (spire ctx : Nat) (s : State) : Host.Outcome State Fault Refusal := .next (s.spill spire ctx)

/-! ## Finishing -/

/-- The elements of the spilled runs by address (R348), in spill order. -/
def Context.runElements (v : Context) : List Nat :=
  v.runList.flatMap (fun r => (List.range r.2).map (fun i => r.1 + 32 + 16 * i))

/-- Partial sums read back from runs (R350) until a read does not pass. -/
def State.readBack (x : Ctx) (vf : Nat) : List Nat → List (Nat × Nat) → State → State × List (Nat × Nat) × Option Verdict
  | [], back, s => (s, back, none)
  | a :: rest, back, s =>
    match s.engineRead x (wordOf a) 16 true with
    | (s, .ok bs) => State.readBack x vf rest (back ++ [(fieldAt bs 0 8, ofAcc vf (fieldAt bs 8 8))]) s
    | (s, .error w) => (s, back, some w)

/-- What is merged at MFIN, in the order of the fold (R88, R346). -/
def Context.toMerge (v : Context) : List (Nat × Nat) :=
  if v.mode then v.back ++ foldSums v.vfmt v.inOrder
  else v.streams.toList.flatMap (fun x => (x.map Stream.items).getD [])

/-- Whether a key's row is in range (R351). -/
def OutDesc.inRange (d : OutDesc) (key : Nat) : Bool :=
  decide (d.form ≠ 1) || decide (d.row0 ≤ key / 2 ^ 32 ∧ key / 2 ^ 32 < d.row0 + d.nrows)

/-- A sum as the pairs and rows forms write it, and whether it saturated (R82, R87, R351). -/
def outValue (vf a : Nat) : Nat × Bool :=
  if vf = 2 then
    let (b, fl) := bf16.narrow .rne (fp32.decode a)
    (b, decide (fl &&& flagOV ≠ 0))
  else (a, false)

/-- The stores of the output in their order (R351). -/
def outStores (d : OutDesc) (vf : Nat) (es : List (Nat × Nat)) : List (Word × List Byte) :=
  let idx := (List.range es.length).zip es
  let w := valBytes vf
  match d.form with
  | 0 => idx.map (fun e => (d.kbase + wordOf (16 * e.1), elementBytes e.2.1 (outValue vf e.2.2).1))
  | 1 =>
    idx.flatMap (fun e => [(d.kbase + wordOf (4 * e.1), leBytes 4 e.2.1),
        (d.vbase + wordOf (e.1 * w), leBytes w (outValue vf e.2.2).1)])
      ++ (List.range d.nrows).map (fun i =>
        (d.rbase + wordOf (4 * i), leBytes 4 (es.filter (fun e => decide (e.1 / 2 ^ 32 = d.row0 + i))).length))
  | _ =>
    idx.map (fun e => (d.kbase + wordOf (32 + 16 * e.1), elementBytes e.2.1 e.2.2))
      ++ [(d.kbase, headerBytes ((es.head?.map Prod.fst).getD 0) ((es.getLast?.map Prod.fst).getD 0) es.length (accCode vf) 0)]

/-- The result of a finish or set operation given to the owner that waits for it. -/
def State.mergeResult (c : Nat) (v : Context) (w : Word) (s : State) : State :=
  match v.owner with
  | none => s
  | some h =>
    let t := handleTid h
    let u := s.slot t
    match u.park with
    | some ⟨_, .merge e d, _, _, _⟩ => if s.lives h ∧ e = c then s.setSlot t (u.setX d w).resume else s
    | _ => s

/-- The end of a finish (R350). -/
def State.finishEnds (g c : Nat) (res outcnt : Word) (s : State) : State :=
  let v := s.context g c
  let s := s.setContext g c { v with
    st := .open_, buffer := [], streams := Vector.replicate 16 none, runList := [], spnext := v.spbase, outcnt := outcnt,
    back := [], merged := none, wrote := 0, desc := none }
  s.mergeResult c v res

/-- The writes of a finish, from the first that is not yet made (R351). -/
def State.writeOut (g c : Nat) (d : OutDesc) (m : Merged) (s : State) : State :=
  let v := s.context g c
  let es := m.sums.take d.limit
  let sat := decide (d.form ≠ 2) && es.any (fun e => (outValue v.vfmt e.2).2)
  let v := { v with sat := v.sat || sat, ovr := decide (d.limit < m.sums.length), rng := m.out }
  let (s, n, w) := s.writeFrom (v.rights g) ((outStores d v.vfmt es).drop v.wrote) v.wrote
  let s := s.setContext g c { v with wrote := n }
  match w with
  | some w => s.mergeFails g c 4 0 w
  | none => s.finishEnds g c (wordOf m.sums.length) (wordOf m.sums.length)

/-- A finish goes on (R350): the runs are read back, everything is merged, and the output is written. -/
def State.mergeFinish (g c : Nat) (s : State) : State :=
  let v := s.context g c
  if v.st ≠ .final ∨ v.spilling = true ∨ v.waiting = true ∨ v.allRead = false then s
  else if 16 < v.runList.length then
    if v.buffer.isEmpty then s.finishEnds g c (negWord 5) (wordOf (min v.runList.length 65535)) else s
  else
    match v.desc with
    | none => s
    | some d =>
      match v.merged with
      | some m => s.writeOut g c d m
      | none =>
        let (s, back, w) := s.readBack (v.rights g) v.vfmt (v.runElements.drop v.back.length) v.back
        let v := { v with back := back }
        match w with
        | some w => (s.setContext g c v).mergeFails g c 3 0 w
        | none =>
          let all := foldSums v.vfmt v.toMerge
          let m : Merged := ⟨all.filter (fun e => d.inRange e.1), all.any (fun e => !d.inRange e.1)⟩
          (s.setContext g c { v with merged := some m, wrote := 0 }).writeOut g c d m

/-- MERGE_FINISH (R350, R351). -/
def execEvMergeFinish (spire ctx : Nat) (s : State) : Host.Outcome State Fault Refusal := .next (s.mergeFinish spire ctx)

/-! ## Set operations -/

/-- What one step of a set operation does next (R352). -/
inductive SetStep where
  | readP (va : Word)
  | readQ (va : Word)
  | write (va : Word) (w : Word) (next : SetOp)
  | go (next : SetOp)
  | done
  deriving DecidableEq, Repr

/-- A list's head passed. -/
def SetOp.passP (o : SetOp) : SetOp := { o with ip := o.ip + 1, prevP := o.hp, hp := none }
def SetOp.passQ (o : SetOp) : SetOp := { o with iq := o.iq + 1, prevQ := o.hq, hq := none }

/-- A result written, key then positions, and counted (R352). -/
def SetOp.emit (o : SetOp) (k : Word) (ip iq : Nat) (pass : SetOp → SetOp) : SetStep :=
  if o.outk ≠ 0 ∧ o.half = false then .write (o.outk + wordOf (8 * o.n)) k { o with half := true }
  else
    let next := pass { o with n := o.n + 1, half := false }
    if o.outi ≠ 0 then .write (o.outi + wordOf (8 * o.n)) (wordOf (atBit iq 32 + ip)) next else .go next

/-- The next step of a set operation (R352). -/
def SetOp.next (o : SetOp) : SetStep :=
  if o.hp.isNone ∧ o.ip < o.pcnt then .readP (o.pbase + wordOf (8 * o.ip))
  else if o.hq.isNone ∧ o.iq < o.qcnt then .readQ (o.qbase + wordOf (8 * o.iq))
  else
    let absent := 0xFFFFFFFF
    let alone (k : Word) (ip iq : Nat) (pass : SetOp → SetOp) : SetStep :=
      if o.kind = 7 then o.emit k ip iq pass else .go (pass o)
    match o.hp, o.hq with
    | none, none => .done
    | some p, none => alone p o.ip absent SetOp.passP
    | none, some q => alone q absent o.iq SetOp.passQ
    | some p, some q =>
      if p = q then o.emit p o.ip o.iq (fun o => o.passP.passQ)
      else if p.toNat < q.toNat then alone p o.ip absent SetOp.passP
      else alone q absent o.iq SetOp.passQ

/-- The set operation of a context changed. -/
def State.setSetOp (g c : Nat) (o : SetOp) (s : State) : State := s.setContext g c { s.context g c with setop := some o }

/-- A key that a set operation has read: taken, or ORDER where it is not above its predecessor (R352). -/
def State.takeKey (g c : Nat) (va k : Word) (prev : Option Word) (take : SetOp) (s : State) : State × Bool :=
  if prev.any (fun p => decide (k.toNat ≤ p.toNat)) then (s.mergeStop g c 5 0 none va, false) else (s.setSetOp g c take, true)

/-- The end of a set operation (R352). -/
def State.setOpEnds (g c : Nat) (o : SetOp) (s : State) : State :=
  let v := s.context g c
  (s.setContext g c { v with st := .open_, setop := none }).mergeResult c v (wordOf o.n)

/-- The steps of a set operation until it ends or one does not pass (R352). -/
def State.runSetOp (g c : Nat) : Nat → State → State
  | 0, s => s
  | fuel + 1, s =>
    let v := s.context g c
    match v.setop with
    | none => s
    | some o =>
      match o.next with
      | .done => s.setOpEnds g c o
      | .go next => State.runSetOp g c fuel (s.setSetOp g c next)
      | .readP va =>
        match s.engineRead (v.rights g) va 8 true with
        | (s, .error w) => s.mergeFails g c 2 0 w
        | (s, .ok bs) =>
          let k := wordOf (leNat bs)
          let (s, ok) := s.takeKey g c va k o.prevP { o with hp := some k }
          if ok then State.runSetOp g c fuel s else s
      | .readQ va =>
        match s.engineRead (v.rights g) va 8 true with
        | (s, .error w) => s.mergeFails g c 2 0 w
        | (s, .ok bs) =>
          let k := wordOf (leNat bs)
          let (s, ok) := s.takeKey g c va k o.prevQ { o with hq := some k }
          if ok then State.runSetOp g c fuel s else s
      | .write va w next =>
        match s.engineStore (v.rights g) va (leBytes 8 w.toNat) true with
        | (s, some w) => s.mergeFails g c 4 0 w
        | (s, none) => State.runSetOp g c fuel (s.setSetOp g c next)

/-- SET_OPERATION (R352). -/
def execEvSetOperation (spire ctx : Nat) (s : State) : Host.Outcome State Fault Refusal :=
  let v := s.context spire ctx
  match v.setop with
  | some o => .next (if v.st = .setop then s.runSetOp spire ctx (4 * (o.pcnt + o.qcnt) + 1) else s)
  | none => .next s

/-! ## Members -/

/-- Whether the thread that executes owns a context. -/
def State.ownsCtx (s : State) (v : Context) : Bool := decide (v.owner = some (s.thr.handle s.tid))

/-- MERGE_STOP at a frozen context (R341). -/
def State.trapStopped (v : Context) (s : State) : State := s.trapAt s.tid .mergeStop v.ftsub v.faddr 0

/-- A frozen context resumes (R342, R353). -/
def Context.resume (v : Context) : Context := { v with st := v.kept, ftsub := 0, faddr := 0 }

/-- The reserved bits of MSTART's control word, and the limits of its fields (R342). -/
def startBad (w : Word) : Bool :=
  let op := fld w 0 2
  let mode := fld w 2 1
  let cap := fld w 16 15
  decide (fld w 31 33 ≠ 0) || decide (fld w 6 10 ≠ 0) || decide (fld w 3 1 ≠ 0) || decide (op = 3)
    || (if op = 0 then (if mode = 1 then decide (cap < 3) else decide (cap ≠ 0))
        else decide (cap ≠ 0) || decide (fld w 4 2 ≠ 0) || decide (mode ≠ 0))

/-- MSTART (R342, R343). -/
def execMstart (g : Guard) (d a : Reg) (c : BitVec 1) (s : State) : Host.Outcome State Fault Refusal :=
  guarded g (fun s =>
    let w := s.getX a
    let sp := tidSpire s.tid
    let v := s.context sp c.toNat
    let own := s.ownsCtx v
    if startBad w then s.retX d 3
    else if fld w 0 2 = 0 then
      let cap := if fld w 2 1 = 1 then fld w 16 15 + 1 else 0
      if own then s.retX d 1
      else if v.owner.isSome then s.retX d 2
      else if 32768 < cap + (s.context sp (c.toNat + 1)).cap then s.retX d 4
      else
        let u := s.thr
        (s.setContext sp c.toNat { Context.reset with
          st := .open_, owner := some (u.handle s.tid), asid := u.asid, ptbr := u.ptbr, kwin := u.kwin, prv := u.prv,
          mode := decide (fld w 2 1 = 1), vfmt := fld w 4 2, cap := cap }).retX d 0
    else if !own then s.retX d 2
    else if fld w 0 2 = 1 then
      if v.st ≠ .frozen then s.retX d 1 else (s.setContext sp c.toNat v.resume).retX d 0
    else if v.st = .final ∨ v.st = .setop then s.park .engine (.wait (.crucible c.toNat))
    else (s.setContext sp c.toNat Context.reset).retX d 0) s

/-- MSTRM (R344). -/
def execMstrm (g : Guard) (d a : Reg) (c : BitVec 1) (u : BitVec 1) (k : BitVec 4) (s : State) :
    Host.Outcome State Fault Refusal :=
  guarded g (fun s =>
    let x := s.getX a
    let n := s.getX (a + 1)
    let sp := tidSpire s.tid
    let v := s.context sp c.toNat
    let run : Bool := decide (u = 1)
    if x.toNat % 16 ≠ 0 then s.trap .align 1 x
    else if !s.ownsCtx v then s.retX d 2
    else if v.st = .frozen then s.trapStopped v
    else if v.st ≠ .open_ then s.retX d 1
    else if 281474976710656 ≤ x.toNat || (run && (v.mode || decide (x.toNat % 32 ≠ 0) || decide (n ≠ 0)))
        || (!run && decide (4294967296 < n.toNat)) then s.retX d 3
    else if !v.mode && (v.stream k.toNat).isSome then s.retX d 3
    else if v.mode && v.streamBusy k.toNat then s.park .engine (.wait (.stream c.toNat k.toNat))
    else
      s.drained .mem (fun s =>
        (s.setContext sp c.toNat (v.setStream k.toNat ⟨x, n.toNat, 0, run, false, []⟩)).retX d 0)) s

/-- MPUSH (R345). -/
def execMpush (g : Guard) (d a : Reg) (c : BitVec 1) (k : BitVec 4) (s : State) : Host.Outcome State Fault Refusal :=
  guarded g (fun s =>
    let sp := tidSpire s.tid
    let v := s.context sp c.toNat
    if !s.ownsCtx v then s.retX d 2
    else if v.st = .frozen then s.trapStopped v
    else if v.st ≠ .open_ then s.retX d 1
    else if !v.mode then s.retX d 3
    else if v.streamBusy k.toNat || v.isFull || v.spilling then s.park .engine (.wait (.push c.toNat k.toNat))
    else
      let e : BufItem := ⟨(s.getX a).toNat, toAcc v.vfmt (s.getX (a + 1)).toNat, k.toNat⟩
      (s.setContext sp c.toNat { v with buffer := v.buffer ++ [e] }).retX d 0) s

/-- MSPILL (R349). -/
def execMspill (g : Guard) (d a : Reg) (c : BitVec 1) (s : State) : Host.Outcome State Fault Refusal :=
  guarded g (fun s =>
    let lo := s.getX a
    let hi := s.getX (a + 1)
    let sp := tidSpire s.tid
    let v := s.context sp c.toNat
    if !s.ownsCtx v then s.retX d 2
    else if v.st = .final ∨ v.st = .setop then s.retX d 1
    else if lo.toNat % 32 ≠ 0 ∨ hi.toNat % 32 ≠ 0 ∨ 281474976710656 ≤ lo.toNat ∨ 281474976710656 ≤ hi.toNat
        ∨ hi.toNat < lo.toNat then s.retX d 3
    else if v.runList ≠ [] ∧ (lo ≠ v.spbase ∨ hi.toNat < v.splimit.toNat) then s.retX d 3
    else
      let v : Context := if v.runList.isEmpty then { v with spbase := lo, spnext := lo, splimit := hi } else { v with splimit := hi }
      let full := decide (v.st = .frozen) && decide (v.ftsub = 1) && decide (v.spnext.toNat + v.runSize ≤ v.splimit.toNat)
      (s.setContext sp c.toNat (if full then v.resume else v)).retX d 0) s

/-- A block of bytes that an instruction loads at once (R350, R352): its bytes, the slot's own stores being performed first. -/
def State.blockAt (va : Word) (n : Nat) (go : List Byte → State → State) (s : State) : State :=
  s.drained .mem (fun s =>
    s.access (Acc.load va n) (fun cs s =>
      let (s, bs) := State.readPieces (tidSpire s.tid) (piecesOf cs va.toNat n) s
      go bs s))

/-- The output descriptor of R350, when it keeps the table's limits. -/
def outDescOf (vf : Nat) (bs : List Byte) : Option OutDesc :=
  let f (i : Nat) : Nat := fieldAt bs (8 * i) 8
  let form := f 0 % 4
  let high (i : Nat) : Bool := decide (281474976710656 ≤ f i)
  let row0 := f 5 % 2 ^ 32
  let nrows := f 5 / 2 ^ 32
  let bad := decide (3 < f 0) || decide (form = 3) || decide (2 ^ 32 < f 4) || high 1 || high 2 || high 3
    || (if form = 1 then
          decide (f 1 % 4 ≠ 0) || decide (f 2 % valBytes vf ≠ 0) || decide (f 3 % 4 ≠ 0) || decide (nrows < 1)
            || decide (2 ^ 31 < nrows)
        else decide (f 1 % (if form = 0 then 16 else 32) ≠ 0) || decide (f 2 ≠ 0) || decide (f 3 ≠ 0) || decide (f 5 ≠ 0))
  if bad then none else some ⟨form, wordOf (f 1), wordOf (f 2), wordOf (f 3), f 4, row0, nrows⟩

/-- MFIN (R350). (log 51: DEDUCED.) -/
def execMfin (g : Guard) (d a : Reg) (c : BitVec 1) (s : State) : Host.Outcome State Fault Refusal :=
  guarded g (fun s =>
    let x := s.getX a
    let sp := tidSpire s.tid
    let v := s.context sp c.toNat
    if x.toNat % 8 ≠ 0 then s.trap .align 1 x
    else if !s.ownsCtx v then s.retX d (negWord 2)
    else if v.st = .frozen then s.trapStopped v
    else if v.st = .final then s.park .engine (.merge c.toNat d)
    else if v.st ≠ .open_ then s.retX d (negWord 1)
    else
      s.blockAt x 48 (fun bs s =>
        match outDescOf v.vfmt bs with
        | none => s.retX d (negWord 3)
        | some o =>
          (s.setContext sp c.toNat { v with
            st := .final, ovr := false, rng := false, desc := some o, back := [], merged := none }).park .engine
              (.merge c.toNat d))) s

/-- The registers of a context (R355); a FREE one reads zero. -/
def Context.reg (v : Context) (own : Bool) (sel : Nat) : Word :=
  if v.st = .free then 0
  else
    match sel with
    | 0 =>
      let frozen := decide (v.st = .frozen)
      wordOf (atBit (min v.runList.length 65535) 48 + atBit v.buffer.length 32
        + (if frozen then atBit (fld v.ftsub 24 4) 24 + atBit (fld v.ftsub 0 8) 8 else 0)
        + atBit (bit v.rng) 7 + atBit (bit v.ovr) 6 + atBit (bit v.sat) 5 + atBit (bit own) 4 + atBit (bit v.mode) 3 + v.st.code)
    | 1 => v.faddr
    | 2 => v.ftsub
    | 3 => v.spbase
    | 4 => v.spnext
    | 5 => v.splimit
    | 6 => v.outcnt
    | _ => wordOf v.cap

/-- MSTAT (R355). -/
def execMstat (g : Guard) (d a : Reg) (c : BitVec 1) (s : State) : Host.Outcome State Fault Refusal :=
  guarded g (fun s =>
    let v := s.context (tidSpire s.tid) c.toNat
    s.retX d (v.reg (s.ownsCtx v) (fld (s.getX a) 0 3))) s

/-- A set operation's block, when it keeps its limits (R352); `kind` is the funct. -/
def setOpOf (kind : Nat) (bs : List Byte) : Option SetOp :=
  let f (i : Nat) : Nat := fieldAt bs (8 * i) 8
  let bad := decide (f 0 % 8 ≠ 0) || decide (f 2 % 8 ≠ 0) || decide (2 ^ 32 < f 1) || decide (2 ^ 32 < f 3)
    || decide (f 4 % 8 ≠ 0) || decide (f 5 % 8 ≠ 0) || (decide (kind = 8) && (decide (f 4 ≠ 0) || decide (f 5 ≠ 0)))
  if bad then none
  else some {
    kind := kind, pbase := wordOf (f 0), pcnt := f 1, qbase := wordOf (f 2), qcnt := f 3, outk := wordOf (f 4),
    outi := wordOf (f 5), ip := 0, iq := 0, hp := none, hq := none, prevP := none, prevQ := none, n := 0, half := false }

/-- The set members (R352). -/
def setMember (g : Guard) (kind : Nat) (d a : Reg) (c : BitVec 1) (s : State) : Host.Outcome State Fault Refusal :=
  guarded g (fun s =>
    let x := s.getX a
    let sp := tidSpire s.tid
    let v := s.context sp c.toNat
    if x.toNat % 8 ≠ 0 then s.trap .align 1 x
    else if !s.ownsCtx v then s.retX d (negWord 2)
    else if v.st = .frozen then s.trapStopped v
    else if v.st = .setop then s.park .engine (.merge c.toNat d)
    else if v.st ≠ .open_ ∨ v.buffer ≠ [] ∨ v.runList ≠ [] ∨ v.streams.toList.any Option.isSome = true then
      s.retX d (negWord 1)
    else
      s.blockAt x 48 (fun bs s =>
        match setOpOf kind bs with
        | none => s.retX d (negWord 3)
        | some o => (s.setContext sp c.toNat { v with st := .setop, setop := some o }).park .engine (.merge c.toNat d))) s

/-- XSECT (R352). -/
def execXsect (g : Guard) (d a : Reg) (c : BitVec 1) (s : State) : Host.Outcome State Fault Refusal := setMember g 6 d a c s
/-- XUNION (R352). -/
def execXunion (g : Guard) (d a : Reg) (c : BitVec 1) (s : State) : Host.Outcome State Fault Refusal := setMember g 7 d a c s
/-- XCNT (R352). -/
def execXcnt (g : Guard) (d a : Reg) (c : BitVec 1) (s : State) : Host.Outcome State Fault Refusal := setMember g 8 d a c s

end Sys2Proof.Machine
end

