-- ==== Sys2Proof/Machine/Image.lean ====
section
/-! DEFINITION. Configuration images: forge blocks, placements and route words read from bytes and checked, and the course of an
edge over the tracks (R230, R231, R241 to R245, R271 to R284). -/

namespace Sys2Proof.Machine

/-! ## Node words -/

/-- The modifier of a node word (R242). -/
def nodeMod (w : BitVec 32) : BitVec 6 := w.setWidth 6

/-- The consumer slots of a node word (R242). -/
def nodeConsA (w : BitVec 32) : BitVec 9 := w.extractLsb' 15 9
def nodeConsB (w : BitVec 32) : BitVec 9 := w.extractLsb' 6 9

/-- IADD to IMAX and ICMP; FADD to FMIN; EXP2 to RSQ (R245). -/
def isIntOp (op : Nat) : Bool := decide (0x01 ≤ op ∧ op ≤ 0x0C)
def isFloatOp (op : Nat) : Bool := decide (0x10 ≤ op ∧ op ≤ 0x14)
def isApproxOp (op : Nat) : Bool := decide (0x18 ≤ op ∧ op ≤ 0x1B)

/-- The extension words that a node takes (R245). -/
def extCount (op m : Nat) : Nat :=
  if isIntOp op || isFloatOp op then m / 8 % 2
  else if op = 0x28 then m % 2
  else if op = 0x1C ∨ op = 0x23 ∨ op = 0x26 ∨ op = 0x30 then 1
  else if op = 0x27 ∨ op = 0x31 then 2
  else 0

/-- Whether an opcode is defined and its modifier takes no reserved value (R244 to R265). -/
def modOk (op m : Nat) : Bool :=
  let low := m % 4
  if op = 0x0C then decide (m % 8 ≠ 7)
  else if isIntOp op then
    decide (low ≠ 3) && (decide (m / 4 % 2 = 0) || decide (op ≤ 0x03) || decide (op = 0x0A) || decide (op = 0x0B))
  else if isFloatOp op then decide (m / 16 < 2 ∧ m / 4 % 2 = 0 ∧ low ≠ 3)
  else if isApproxOp op then decide (m / 16 < 2 ∧ m / 4 % 4 = 0 ∧ low ≠ 3)
  else if op = 0x1C then decide (m / 8 ≠ 7)
  else if op = 0x20 then decide (m < 32 ∧ low ≠ 3)
  else if op = 0x21 then decide (m < 16)
  else if op = 0x22 ∨ op = 0x28 then decide (m < 2)
  else if op = 0x24 then decide (m < 16 ∧ m % 8 ≠ 0)
  else if op = 0x29 then decide (m % 16 = 0)
  else if op = 0x2A then decide (m / 8 % 2 = 0)
  else if op = 0x2B then decide (m < 8 ∧ low ≠ 3)
  else if op = 0x30 then decide (0 < m ∧ m < 8)
  else if op = 0x31 then decide (m < 8)
  else if op = 0x38 then decide (m < 16)
  else if op = 0x39 then decide (m < 16 ∧ m / 4 % 2 = 0)
  else if op = 0x23 ∨ op = 0x25 ∨ op = 0x26 ∨ op = 0x27 ∨ op = 0x3E ∨ op = 0x3F then decide (m = 0)
  else false

/-- Whether a node's extension words are in range and set no bit that their entry leaves unused (R244, R248). -/
def extOk (op m : Nat) (ws : List (BitVec 32)) : Bool :=
  let w := (ws.head?.map BitVec.toNat).getD 0
  if op = 0x1C then decide (w / 2048 = 0 ∧ w % 256 ≠ 255)
  else if op = 0x23 ∨ op = 0x26 then decide (1 ≤ w ∧ w ≤ 64)
  else if op = 0x28 then decide (w / 65536 = 0)
  else if isFloatOp op then decide (m / 16 ≠ 1 ∨ w % 65536 = 0)
  else true

/-- The ports a node reads, in ascending order; an ENTRY reads only the entry port (R245). -/
def nodeReads (op m : Nat) : List Nat :=
  if isIntOp op || isFloatOp op then
    (if m / 8 % 2 = 1 then [0] else [0, 1]) ++ (if op = 0x12 then [2] else [])
  else if op = 0x20 then (if m / 2 % 2 = 1 then [0] else [0, 3])
  else if op = 0x21 ∨ op = 0x29 ∨ op = 0x2B then [0, 1]
  else if op = 0x22 then [0, 1, 3]
  else if op = 0x23 then [0, 1, 2]
  else if op = 0x28 then (if m % 2 = 1 then [0] else [0, 1])
  else if op = 0x38 then (if m / 8 % 2 = 1 then [0, 1] else [0])
  else if op = 0x39 then (if m / 8 % 2 = 1 then [0, 1, 2] else [0, 1])
  else if op = 0x3E then []
  else [0]

/-- The nodes that must have replication 1 (R265). -/
def mustBeSingle (op : Nat) : Bool :=
  op ∈ [0x20, 0x21, 0x22, 0x23, 0x24, 0x2A, 0x30, 0x31, 0x38, 0x39, 0x3E, 0x3F]

/-- The nodes placed only in port columns (R231). -/
def slotOnly (op : Nat) : Bool := op ∈ [0x38, 0x39, 0x3E, 0x3F]

/-! ## Tracks -/

/-- The length of a track (R271). -/
def trackLen (t : Nat) : Nat := if t < 4 then 1 else if t < 6 then 4 else 16

/-- The site at the far end of an outbound segment, none where it lies outside the region (R271, R279). -/
def farSite (rows cols row col dst : Nat) : Option (Nat × Nat) :=
  let n := trackLen (dst % 7)
  match dst / 7 with
  | 0 => if n ≤ row then some (row - n, col) else none
  | 1 => if col + n < cols then some (row, col + n) else none
  | 2 => if row + n < rows then some (row + n, col) else none
  | _ => if n ≤ col then some (row, col - n) else none

/-- The inbound code at the far end of an outbound segment (R271). -/
def inboundOf (dst : Nat) : Nat := 7 * ((dst / 7 + 2) % 4) + dst % 7

/-- The unit and port of a destination code from 28 to 52 (R273). -/
def portOfDst (dst : Nat) : Nat × Nat :=
  if dst ≤ 31 then (0, dst - 28)
  else if dst ≤ 43 then (1 + (dst - 32) / 3, (dst - 32) % 3)
  else if dst ≤ 51 then (5 + (dst - 44), 0)
  else (14, 0)

/-- The source code of a unit's arm and output; a RETURN has none (R273). -/
def srcOf (unit arm out : Nat) : Option Nat :=
  if unit = 0 then some (28 + 2 * arm + out)
  else if unit ≤ 4 then some (32 + 2 * (unit - 1) + out)
  else if unit ≤ 12 then some (40 + 2 * (unit - 5) + out)
  else if unit = 13 then some (56 + out)
  else none

def Plane.conn (p : Plane) (row col src : Nat) : Option Conn :=
  p.conns.find? (fun c => decide (c.row = row ∧ c.col = col ∧ c.src = src))

/-- The course of an edge from a source at a site: the links it crosses (site and destination code), and its end. -/
def Plane.traceFrom (p : Plane) : Nat → Nat → Nat → Nat → List (Nat × Nat × Nat) → List (Nat × Nat × Nat) × EdgeEnd
  | 0, _, _, _, hops => (hops, .dropped)
  | fuel + 1, row, col, src, hops =>
    match p.conn row col src with
    | none => (hops, .dropped)
    | some c =>
      if 28 ≤ c.dst then
        let (u, q) := portOfDst c.dst
        (hops ++ [(row, col, c.dst)], .port ⟨⟨row, col, u⟩, q⟩)
      else
        match farSite p.rows p.cols row col c.dst with
        | none => (hops, .refused row col (c.dst % 7) (c.dst / 7))
        | some (r, k) => p.traceFrom fuel r k (inboundOf c.dst) (hops ++ [(row, col, c.dst)])

/-- The latency of an operation in cycles (R245); a memory access is its own (R263), and DELAY's stands in its extension word. -/
def opLatency (op : Nat) (exts : List (BitVec 32)) : Nat :=
  if op = 0x03 then 3
  else if isFloatOp op then 4
  else if isApproxOp op then 8
  else if op = 0x1C then 2
  else if op = 0x26 then ((exts.head?.map BitVec.toNat).getD 1) % 128
  else if op = 0x38 ∨ op = 0x39 then 0
  else 1

/-- The site from which a node's outputs leave: its last copy's (R278). -/
def PNode.outSite (n : PNode) : Site :=
  if n.site.unit = 0 then { n.site with col := computeCol n.site.col (n.rep - 1) } else n.site

/-- Whether an output of a node has an edge (R240, R274), its course and its end. -/
def Plane.edge (p : Plane) (n : PNode) (out : Nat) : Option (List (Nat × Nat × Nat) × EdgeEnd) :=
  match srcOf n.site.unit n.arm out with
  | none => none
  | some src =>
    let t := n.outSite
    if (p.conn t.row t.col src).isSome then some (p.traceFrom (p.conns.length + 1) t.row t.col src []) else none

/-- The register stage of a link that an edge crosses (R272). -/
def Plane.stage (p : Plane) (hop : Nat × Nat × Nat) : Nat :=
  bit (p.conns.any (fun c => decide (c.row = hop.1 ∧ c.col = hop.2.1 ∧ c.dst = hop.2.2) && c.reg))

/-- The cycles of the dedicated link between the copies of a replicated node (R278): one for each column it spans. -/
def PNode.linkCycles (n : PNode) : Nat := n.outSite.col - n.site.col

/-! ## Reading an image -/

/-- A number at an offset of an image, none where it runs past the end. -/
def readAt (bs : List Byte) (off n : Nat) : Option Nat := if off + n ≤ bs.length then some (fieldAt bs off n) else none

/-- Numbers at successive offsets. -/
def readWords (bs : List Byte) (off size n : Nat) : Option (List Nat) :=
  (List.range n).mapM (fun i => readAt bs (off + size * i) size)

/-- The header of a CONFIG section (R283). -/
structure ImageHead where
  rows   : Nat
  cols   : Nat
  nargs  : Nat
  nrets  : Nat
  kind   : Nat
  nblk   : Nat
  nplc   : Nat
  nrte   : Nat
  blkoff : Nat
  plcoff : Nat
  rteoff : Nat
  total  : Nat
  deriving DecidableEq, Repr

/-- The header read and checked against its ranges (R283, R284). -/
def readHead (bs : List Byte) : Option ImageHead :=
  if bs.length < 64 then none
  else
    let f (off n : Nat) : Nat := fieldAt bs off n
    let h : ImageHead := ⟨f 0 2, f 2 2, f 4 1, f 5 1, f 6 1, f 8 4, f 12 4, f 16 4, f 24 8, f 32 8, f 40 8, f 48 8⟩
    let shape := if h.kind = 0 then decide (1 ≤ h.nargs ∧ h.nargs ≤ 8 ∧ 1 ≤ h.nrets ∧ h.nrets ≤ 8)
      else decide (h.nargs = 0 ∧ h.nrets = 0)
    if 1 ≤ h.rows ∧ h.rows ≤ 256 ∧ 1 ≤ h.cols ∧ h.cols ≤ 800 ∧ h.kind ≤ 1 ∧ shape = true ∧ f 7 1 = 0 ∧ f 20 4 = 0 ∧ f 56 8 = 0
        ∧ 1 ≤ h.nblk ∧ h.nblk ≤ 256 ∧ 64 ≤ h.total ∧ h.total ≤ bs.length
        ∧ h.blkoff % 4 = 0 ∧ h.plcoff % 8 = 0 ∧ h.rteoff % 8 = 0
        ∧ h.plcoff + 8 * h.nplc ≤ h.total ∧ h.rteoff + 24 * h.nrte ≤ h.total then some h
    else none

/-- A node of a forge block with its extension words; `link` is the block that consumer B names (R241 to R243). -/
structure RawNode where
  block : Nat
  idx   : Nat
  word  : BitVec 32
  exts  : List (BitVec 32)
  link  : Nat
  deriving DecidableEq, Repr

/-- Extension words taken by nodes in ascending index (R243); none when the counts differ or a word is out of range. -/
def takeExts (block link : Nat) : Nat → List (BitVec 32) → List (BitVec 32) → Option (List RawNode)
  | _, [], exts => if exts.isEmpty then some [] else none
  | idx, w :: ws, exts =>
    let op := nodeOp w
    let m := (nodeMod w).toNat
    let n := extCount op m
    let mine := exts.take n
    if modOk op m && decide (mine.length = n) && extOk op m mine then
      (takeExts block link (idx + 1) ws (exts.drop n)).map (fun rest => ⟨block, idx, w, mine, link⟩ :: rest)
    else none

/-- The forge blocks from an offset (R241). -/
def readBlocks (bs : List Byte) : Nat → Nat → Nat → Option (List RawNode)
  | 0, _, _ => some []
  | n + 1, block, off => do
    let h ← readAt bs off 4
    let count := h / 2 ^ 26 + 1
    let ext := h / 2 ^ 20 % 64
    let link := h / 2 ^ 12 % 256
    let linkb := h / 2 ^ 11 % 2
    let words ← readWords bs (off + 4) 4 count
    let exts ← readWords bs (off + 4 + 4 * count) 4 ext
    if h % 2 ^ 11 ≠ 0 ∨ (linkb = 0 ∧ link ≠ 0) then none
    else
      let here ← takeExts block (if linkb = 1 then link else block) 0 (words.map (BitVec.ofNat 32)) (exts.map (BitVec.ofNat 32))
      let rest ← readBlocks bs n (block + 1) (off + 4 * (1 + count + ext))
      some (here ++ rest)

/-- The unit of a placement's slot, when R231 and R276 allow the node there. -/
def unitFor (op col slot arm : Nat) : Option Nat :=
  if col % 8 = 7 then
    if arm ≠ 0 then none
    else if slot ≤ 3 then (if op = 0x38 ∨ op = 0x39 then some (1 + slot) else none)
    else if slot ≤ 11 then (if op = 0x31 then some (1 + slot) else none)
    else if slot = 12 then (if op = 0x3E then some 13 else if op = 0x3F then some 14 else none)
    else none
  else if slot = 0 ∧ slotOnly op = false then some 0
  else none

/-- A placement entry (R276) with its node. -/
def readPlace (h : ImageHead) (raws : List RawNode) (e : Nat) : Option PNode :=
  let block := e / 2 ^ 56
  let idx := e / 2 ^ 50 % 64
  let rep := e / 2 ^ 44 % 64 + 1
  let arm := e / 2 ^ 43 % 2
  let slot := e / 2 ^ 39 % 16
  let row := e / 2 ^ 30 % 256
  let col := e / 2 ^ 20 % 1024
  match raws.find? (fun r => decide (r.block = block ∧ r.idx = idx)) with
  | none => none
  | some r =>
    let op := nodeOp r.word
    match unitFor op col slot arm with
    | none => none
    | some u =>
      if e % 2 ^ 20 ≠ 0 ∨ e / 2 ^ 38 % 2 ≠ 0 ∨ h.rows ≤ row ∨ h.cols ≤ col ∨ (1 < rep ∧ mustBeSingle op = true) then none
      else some ⟨block, idx, r.word, r.exts, ⟨row, col, u⟩, arm, rep⟩

/-- No two nodes share an arm of a cell or a slot, no node is placed twice, copies lie in the region and alone (R284). -/
def placesOk (cols : Nat) (ns : List PNode) : Bool :=
  let pairs := (List.range ns.length).zip ns
  ns.all (fun n => n.cells.all (fun c => decide (c.col < cols)))
    && pairs.all (fun x => pairs.all (fun y =>
      decide (x.1 = y.1) ||
        (!(decide (x.2.block = y.2.block) && decide (x.2.idx = y.2.idx))
          && !x.2.cells.any (fun c => y.2.cells.any (fun d =>
            decide (c = d) && (decide (x.2.arm = y.2.arm) || decide (1 < x.2.rep) || decide (1 < y.2.rep)))))))

/-- The enabled entries of a route word (R272, R273) at a site; none when the word breaks them or the one-use rule (R274). -/
def readRoute (row col w : Nat) : Option (List Conn) :=
  let e (i : Nat) : Nat := w / 2 ^ (15 * i) % 2 ^ 15
  let port := decide (col % 8 = 7)
  let ok (i : Nat) : Bool :=
    if e i / 2 ^ 14 = 0 then decide (e i = 0)
    else
      let s := e i / 64 % 128
      let d := e i % 64
      let cell := decide (28 ≤ s ∧ s ≤ 31) || decide (28 ≤ d ∧ d ≤ 31)
      let slot := decide (32 ≤ s) || decide (32 ≤ d)
      decide (s ≤ 57 ∧ d ≤ 52) && !(cell && port) && !(slot && !port)
  let cs := ((List.range 8).filter (fun i => decide (e i / 2 ^ 14 = 1))).map (fun i =>
    (⟨row, col, e i / 64 % 128, e i % 64, decide (e i / 2 ^ 13 % 2 = 1)⟩ : Conn))
  let once := (cs.map Conn.src).Nodup ∧ (cs.map Conn.dst).Nodup
  if w / 2 ^ 120 = 0 ∧ (List.range 8).all ok = true ∧ once then some cs else none

/-- One route entry (R283). -/
def readRouteAt (h : ImageHead) (bs : List Byte) (i : Nat) : Option (Nat × Nat × List Conn) := do
  let off := h.rteoff + 24 * i
  let row ← readAt bs off 2
  let col ← readAt bs (off + 2) 2
  let pad ← readAt bs (off + 4) 4
  let w ← readAt bs (off + 8) 16
  let cs ← readRoute row col w
  if pad ≠ 0 ∨ h.rows ≤ row ∨ h.cols ≤ col then none else some (row, col, cs)

/-- Whether following segments from an entry comes to an end (R274, R284). -/
def Plane.ends (p : Plane) : Nat → Conn → Bool
  | 0, _ => false
  | fuel + 1, c =>
    if 28 ≤ c.dst then true
    else
      match farSite p.rows p.cols c.row c.col c.dst with
      | none => true
      | some (r, k) =>
        match p.conn r k (inboundOf c.dst) with
        | none => true
        | some d => p.ends fuel d

/-- The consumers that a node names: block, index and port; none where a slot breaks R242. -/
def RawNode.consumers (r : RawNode) : Option (List (Nat × Nat × Nat)) :=
  let one (c : BitVec 9) (block : Nat) : Option (List (Nat × Nat × Nat)) :=
    if c.getLsbD 8 then some [(block, c.toNat / 4 % 64, c.toNat % 4)] else if c = 0 then some [] else none
  match one (nodeConsA r.word) r.block, one (nodeConsB r.word) r.link with
  | some a, some b => some (a ++ b)
  | _, _ => none

/-- Whether a compute cell is two-armed (R230). -/
def twoArmed (ns : List PNode) (st : Site) : Bool :=
  decide (st.unit = 0) && ns.any (fun n => decide (n.site = st ∧ n.arm = 0)) && ns.any (fun n => decide (n.site = st ∧ n.arm = 1))

/-- The ports of a placed node that must have a producer: those it reads, and ctl in a two-armed cell (R236). -/
def PNode.needs (n : PNode) (ns : List PNode) : List Nat :=
  let rs := nodeReads (nodeOp n.word) (nodeMod n.word).toNat
  if twoArmed ns n.site then rs.filter (fun p => decide (p ≠ 3)) ++ [3] else rs

/-- The rules of R244 about consumers: targets exist and read the port, each port has one producer. -/
def consumersOk (raws : List RawNode) (ns : List PNode) : Bool :=
  match raws.mapM RawNode.consumers with
  | none => false
  | some css =>
    let targets := css.flatten.map (fun c =>
      (ns.find? (fun n => decide (n.block = c.1 ∧ n.idx = c.2.1))).map (fun n => (n, c.2.2)))
    let ports : List PortId := targets.filterMap (fun t => t.map (fun x => ⟨x.1.site, x.2⟩))
    targets.all (fun t => match t with
        | none => false
        | some (n, p) => (n.needs ns).contains p || (nodeReads (nodeOp n.word) (nodeMod n.word).toNat).contains p)
      && decide ports.Nodup
      && ns.all (fun n => (n.needs ns).all (fun p => ports.any (fun q => decide (q = ⟨n.site, p⟩))))

/-- A CONFIG section read and checked (R243, R244, R283, R284): the plane it makes; none where it is malformed. -/
def parseImage (bs : List Byte) : Option Plane := do
  let h ← readHead bs
  let bs := bs.take h.total
  let raws ← readBlocks bs h.nblk 0 h.blkoff
  let entries ← readWords bs h.plcoff 8 h.nplc
  let ns ← entries.mapM (readPlace h raws)
  let routes ← (List.range h.nrte).mapM (readRouteAt h bs)
  let p : Plane := ⟨h.rows, h.cols, h.nargs, h.nrets, h.kind, ns, routes.flatMap (fun r => r.2.2)⟩
  let ops := ns.map (fun n => nodeOp n.word)
  let single := decide (h.kind ≠ 0) || (decide (ops.count 0x3E = 1) && decide (ops.count 0x3F = 1))
  let sites := routes.map (fun r => (r.1, r.2.1))
  if raws.all (fun r => ns.any (fun n => decide (n.block = r.block ∧ n.idx = r.idx))) && placesOk h.cols ns && consumersOk raws ns
      && single && decide sites.Nodup && p.conns.all (p.ends (p.conns.length + 1)) then some p
  else none

/-- The TOTAL field of an image's header (R283). -/
def imageTotal (bs : List Byte) : Nat := fieldAt bs 48 8

end Sys2Proof.Machine
end

