-- ==== Sys2Proof/Machine/Probe.lean ====
section
/-! DEFINITION. What observes the machine: trace records, the common trigger, and the cycle classes of fabric sites
(R267, R406, R407, R414, R416 to R418, R423). -/

namespace Sys2Proof.Machine

/-! ## Trace records and the common trigger -/

/-- Records that a trace FIFO holds (R418). -/
def traceDepth : Nat := 64

/-- A record enters a spire's FIFO, or is dropped and counted (R418). -/
def State.traceRec (g : Nat) (r : TraceRec) (s : State) : State :=
  let sp := s.spire g
  let d := sp.dbg
  s.setSpire g { sp with dbg :=
    if d.fifo.length < traceDepth then { d with fifo := d.fifo ++ [r] }
    else { d with lostFull := if d.lostFull = 0xFFFFFFFF#32 then d.lostFull else d.lostFull + 1 } }

/-- A BREAK, CUT or SNAP record, written where EN and BKREC are set (R416, R417). -/
def State.probeRec (g kind sub : Nat) (source : BitVec 32) (data0 data1 : Word) (s : State) : State :=
  let d := (s.spire g).dbg
  if d.trctl.getLsbD 0 && d.trctl.getLsbD 2 then s.traceRec g ⟨kind, sub, source, s.time, data0, data1⟩ else s

/-- The SOURCE of a record about a region (R417). -/
def regionSource (g r : Nat) : BitVec 32 := BitVec.ofNat 32 (g * 256 + r)

/-- What a trigger does in a spire (R414): SEQ rises; an armed spire latches at the 16th cycle after it, one with ARM 0 counts
it as missed. -/
def Debug.trigger (cyc : Nat) (d : Debug) : Debug :=
  let d := { d with seq := d.seq + 1 }
  if d.arm then { d with latchAt := some (d.latchAt.getD (cyc + 16)) } else { d with missed := d.missed + 1 }

/-- The common trigger raised at a cycle (R414): triggers of one cycle are one. -/
def State.trigger (cyc : Nat) (s : State) : State :=
  if s.trig.contains cyc then s
  else
    let s := (List.range Config.spires).foldl (fun s g =>
      s.setSpire g { s.spire g with dbg := (s.spire g).dbg.trigger cyc }) s
    { s with dbgout := max s.dbgout (cyc + 16), trig := cyc :: s.trig.filter (fun c => decide (s.now ≤ c + 16)) }

/-! ## Sites -/

/-- Whether a site is of a port column (R22). -/
def portColumn (col : Nat) : Bool := decide (col % 8 = 7)

/-- The slots of a site whose cycles its counters sum (R231, R407). -/
def slotsOf (col : Nat) : Nat := if portColumn col then 13 else 1

/-- A site's counters changed. -/
def State.mapSite (g key : Nat) (f : SiteCount → SiteCount) (s : State) : State :=
  let sp := s.spire g
  s.setSpire g { sp with sites := tset key (f (sp.site key)) sp.sites }

/-- The counters of a site of a region changed. -/
def State.mapRegionSite (g : Nat) (r : Region) (row col : Nat) (f : SiteCount → SiteCount) (s : State) : State :=
  s.mapSite (r.siteSpire g row col) (r.siteKey row col) f

/-- Cycles added to a class (R406), saturating. -/
def SiteCount.add (cls n : Nat) (c : SiteCount) : SiteCount :=
  { c with live := c.live.set (cls % 9) (sat48 ((c.live[cls % 9]'(Nat.mod_lt _ (by decide))).toNat + n)) (Nat.mod_lt _ (by decide)) }

/-- Tokens discarded by R238, saturating. -/
def SiteCount.misaligned (n : Nat) (c : SiteCount) : SiteCount :=
  { c with misalign := BitVec.ofNat 32 (min (c.misalign.toNat + n) 0xFFFFFFFF) }

/-- An interval begins (R407). -/
def SiteCount.begin (cyc slots : Nat) (c : SiteCount) : SiteCount :=
  { c with live := Vector.replicate 9 0, since := some (cyc, slots) }

/-- An interval ends (R407): the live counts are latched, INTV rises, the live counts clear. -/
def SiteCount.finish (cyc : Nat) (c : SiteCount) : SiteCount :=
  match c.since with
  | none => c
  | some _ =>
    { c with
      last := Vector.ofFn (fun i => c.liveAt cyc i.val),
      intv := c.intv + 1, live := Vector.replicate 9 0, since := none }

/-- Every site of a region. -/
def Region.sites (r : Region) : List (Nat × Nat) :=
  (List.range r.rows).flatMap (fun row => (List.range r.cols).map (fun col => (row, col)))

/-- The interval of a site ends and, where the site goes on with a plane, the next begins (R407). (log 29: DESIGN CHOICE.) -/
def State.turnInterval (g : Nat) (r : Region) (row col : Nat) (again : Bool) (s : State) : State :=
  let h := r.siteSpire g row col
  let cyc := s.islandCycles (3 * h + 1)
  s.mapRegionSite g r row col (fun c =>
    let c := c.finish cyc
    if again then c.begin cyc (slotsOf col) else c)

/-- The intervals of every site of a region end, or begin when a plane is loaded (R407). -/
def State.turnIntervals (g : Nat) (r : Region) (again : Bool) (s : State) : State :=
  r.sites.foldl (fun s x => s.turnInterval g r x.1 x.2 again) s

end Sys2Proof.Machine
end

