-- ==== Sys2Proof/Machine/Fabric.lean ====
section
/-! DEFINITION. What every fabric place does: returns to callers, the course of a token over its edge, markers, control and end
tokens, and the firing rule (R210 to R221, R225, R226, R230 to R240, R257, R274, R279 to R282, R287 to R289, R380, R406, R409 to
R411, R438, R444). -/

namespace Sys2Proof.Machine

/-! ## Returns to callers -/

/-- TSUB of SRV_POISON (R219). -/
def poisonSub (nosend : Bool) (c : Cause) (sub : Nat) : Word := wordOf (atBit (bit nosend) 16 + atBit (sub % 256) 8 + c.code)

/-- The nrets of the call that a parked SRV makes. -/
def ParkOp.nrets : ParkOp → Nat
  | .held c | .hearth c | .port _ c => c.nrets
  | .flight _ n => n
  | _ => 1

/-- SRV_POISON at a caller's SRV (R218, R226): recorded as pending for a held thread. -/
def State.poisonAt (t : Nat) (sub val node : Word) (s : State) : State :=
  let v := s.slot t
  if v.held then s.setSlot t { v with st := .run, park := none, poison := some ((v.park.map (fun k => k.op.nrets)).getD 1, sub, val, node) }
  else s.trapAt t .srvPoison sub val node

/-- What a record returns: its values, or TSUB, TVAL and TNODE. -/
inductive Ret where
  | values (ws : List Word)
  | poison (sub val node : Word)
  deriving DecidableEq, Repr

/-- The bytes of a return block (R225). -/
def Ret.block (nrets : Nat) : Ret → List Byte
  | .values ws => leBytes 8 (1 + 16 * (nrets - 1)) ++ leBytes 24 0
      ++ (List.range 8).flatMap (fun i => leBytes 8 (ws.getD i 0).toNat)
  | .poison sub val node => leBytes 8 (2 + 16 * (nrets - 1)) ++ leBytes 8 sub.toNat ++ leBytes 8 val.toNat
      ++ leBytes 8 node.toNat ++ leBytes 64 0

/-- Bytes written at their home from a spire: cached sectors of their lines go first (R166). -/
def State.homeStore (g k : Nat) (bs : List Byte) (s : State) : State :=
  (((List.range ((k + bs.length + 255) / 256 - k / 256)).foldl (fun s i => s.toHome g ((k / 256 + i) * 256)) s)).homeWrite k bs

/-- Values written to x1 upward (R210). -/
def Slot.setReturns (v : Slot) : List Word → Nat → Slot
  | [], _ => v
  | w :: ws, i => (v.setX (Fin.ofNat 64 i) w).setReturns ws (i + 1)

/-- R226: what a return does, by the caller's state: written to the block of a live redirect, to a parked caller, or
discarded. -/
def State.deliverRet (g n : Nat) (f : Flight) (ret : Ret) (s : State) : State :=
  let sp := s.spire g
  match sp.redirects.find? (fun d => decide (d.tag = f.tag ∧ d.region = n ∧ d.handle = handleOf f.tid f.gen)) with
  | some d =>
    let s := s.setSpire g { sp with redirects := sp.redirects.filter (fun e => decide (e ≠ d)) }
    s.homeStore g d.block (ret.block f.nrets)
  | none =>
    let v := s.slot f.tid
    if v.gen ≠ f.gen then s
    else
      match v.park with
      | some ⟨_, .flight _ _, _, _, _⟩ =>
        if v.st = .drain then s.setSlot f.tid { v with park := none }
        else
          match ret with
          | .values ws => s.setSlot f.tid (v.setReturns ws 1).resume
          | .poison sub val node => s.poisonAt f.tid sub val node
      | _ => s

/-- A region changed. -/
def State.mapRegion (g n : Nat) (f : Region → Region) (s : State) : State :=
  match s.region g n with
  | some r => s.setRegion g n (f r)
  | none => s

/-! ## Faults and refusals -/

/-- A region emptied of its configuration and of every token (R281, R398, R407). -/
def Region.clear (r : Region) : Region :=
  { r with
    st := .empty, active := none, shadow := none, written := [], swapped := [], passed := [], sentEnd := [], queues := [], squeues := [],
    nodes := [], snodes := [], accs := [], flights := [], reserved := none, rets := [], faults := [], faultCount := 0,
    parity := [], quiet := false, cut := ⟨0, 0, false, [], []⟩, fired := [], spent := [], sent := [], crossings := [], stalled := [] }

/-- A call stands in a placement queue behind those that issued earlier (R214). -/
def placeIn (p : Place) (ps : List Place) : List Place :=
  ps.takeWhile (fun q => decide (q.seq ≤ p.seq)) ++ p :: ps.dropWhile (fun q => decide (q.seq ≤ p.seq))

/-- A call of a slot joins its spire's placement queue (R214). -/
def State.queueCall (g : Nat) (v : Slot) (addr : Word) (tid : Option Nat) (seq : Nat) (s : State) : State :=
  let sp := s.spire g
  s.setSpire g { sp with places := placeIn ⟨v.asid, addr, v.ptbr, v.kwin, v.prv, tid, seq⟩ sp.places }

/-- A caller at an entry port joins the placement queue, at its place in the order of issue (R214, R281). (log 27: DEDUCED.) -/
def State.backToQueue (g t : Nat) (s : State) : State :=
  let v := s.slot t
  match v.park with
  | some ⟨_, .port _ c, _, _, _⟩ => (s.queueCall g v c.addr (some t) c.seq).parkAt t .engine (.hearth c)
  | _ => s

/-- Whether a region has a memory slot in another spire's port column (R282). -/
def Region.stitched (g : Nat) (r : Region) : Bool :=
  let far (p : Plane) : Bool := p.nodes.any (fun n =>
    decide (1 ≤ n.site.unit ∧ n.site.unit ≤ 4) && decide (r.siteSpire g n.site.row n.site.col ≠ g))
  r.active.any far || r.shadow.any far

/-- R281: a refusal in a kind-0 region returns every record poisoned, by its first recorded fault where it has one (R218), and empties
the region; where that has memory slots in other spires, the callers' later accesses see what it stored (R282). -/
def State.flushRegion (g n : Nat) (tag : BitVec 8) (node : Word) (s : State) : State :=
  match s.region g n with
  | none => s
  | some r =>
    let s := s.setRegion g n { r.clear with waiting := [] }
    let s := if r.stitched g then s.acquireAt g .die else s
    let s := r.flights.foldl (fun s f =>
      s.deliverRet g n f (match r.faults.find? (fun e => decide (e.tag = f.tag)) with
        | some e => .poison (poisonSub false e.cause e.sub) e.val e.tnode
        | none => .poison (poisonSub false .prot 0x23) (if f.tag = tag then 0 else 1) node)) s
    r.waiting.foldl (fun s t => s.backToQueue g t) s

/-- A count of 32 bits, saturating. -/
def sat32 (v : BitVec 32) : BitVec 32 := if v = 0xFFFFFFFF#32 then v else v + 1

/-- A token refused at the border (R279 to R281, R444): the first latches VIOLPOS and sends a violation record. -/
def State.refuse (g n : Nat) (t : Token) (row col track dir : Nat) (node : Word) (s : State) : State :=
  match s.region g n with
  | none => s
  | some r =>
    let first := decide (r.refused = 0)
    let r := { r with
      refused := sat32 r.refused
      viol := if first then some ⟨t.tag, t.kind.code, track, dir, row, col⟩ else r.viol }
    let s := s.setRegion g n r
    let s := if first then State.post ⟨3, r.eq, g / 80, 0, wordOf (g * 256 + n), r.violpos, 0, 0⟩ s else s
    if r.kind = 0 then s.flushRegion g n t.tag node else s

/-! ## Breakpoints and cuts -/

/-- A cut starts (R410, R413). -/
def Region.startCut (id : BitVec 16) (stop : Bool) (r : Region) : Region := { r with cut := ⟨id, 1, stop, [], []⟩ }

/-- A token delivered to a link (R409), seen by one breakpoint: its count, and the action where it hits; a kind-2 region takes no
cut (R413), nor does one that is SWAPPING, which MARK refuses. (log 18: DEDUCED.) -/
def State.breakpoint (g n : Nat) (hop : Nat × Nat × Nat) (t : Token) (i : Nat) (s : State) : State :=
  match s.region g n with
  | none => s
  | some r =>
    let b := r.bks[i % 4]'(Nat.mod_lt _ (by decide))
    if b.en ∧ b.row = hop.1 ∧ b.col = hop.2.1 ∧ b.dst = hop.2.2 then
      let c := b.count + 1
      let hit := !b.hit && decide (c = b.target) && decide (b.target ≠ 0)
      let cut := hit && decide (b.action = 2) && decide (r.cut.state ≠ 1) && decide (r.kind ≠ 2) && decide (r.st ≠ .swapping)
      let b' : Breakpoint := { b with count := c, hit := b.hit || hit }
      let r := { r with bks := r.bks.set (i % 4) b' (Nat.mod_lt _ (by decide)) }
      let s := s.setRegion g n (if cut then r.startCut 0xFFFF true else r)
      if hit ∧ b.action ≠ 3 then
        let s := s.probeRec g 2 (i % 4) (regionSource g n) (c.setWidth 64) t.payload
        if b.action = 1 then s.trigger s.now else s
      else s
    else s

/-- A token is delivered to a link, before every breakpoint of its region. -/
def State.crossLink (g n : Nat) (t : Token) (hop : Nat × Nat × Nat) (s : State) : State :=
  (List.range 4).foldl (fun s i => s.breakpoint g n hop t i) s

/-- The cycles that seams add to the segment a hop enters (R23): two for each anvil edge it crosses. -/
def Region.seamCycles (p : Plane) (hop : Nat × Nat × Nat) (r : Region) : Nat :=
  let apart (a b : Nat) : Nat := (a - b) + (b - a)
  if 28 ≤ hop.2.2 then 0
  else
    match farSite p.rows p.cols hop.1 hop.2.1 hop.2.2 with
    | some (i, j) =>
      2 * (apart ((r.orow + hop.1) / 16) ((r.orow + i) / 16) + apart ((r.ocol + hop.2.1) / 40) ((r.ocol + j) / 40))
    | none => 0

/-- The cycles that a route's register stages and seams add (R23, R236, R275). -/
def Region.routeCycles (p : Plane) (hops : List (Nat × Nat × Nat)) (r : Region) : Nat :=
  (hops.map (fun h => p.stage h + r.seamCycles p h)).sum

/-- The links that a token is delivered to from clock `d` on (R274). -/
def Region.linksOf (p : Plane) (r : Region) (t : Token) : List (Nat × Nat × Nat) → Nat → List Crossing
  | [], _ => []
  | hop :: rest, d =>
    let d := d + p.stage hop
    ⟨d, .link hop.1 hop.2.1 hop.2.2, t⟩ :: Region.linksOf p r t rest (d + r.seamCycles p hop)

/-- What a token comes to where its edge reaches no port. -/
def EdgeEnd.crossing (due : Nat) (t : Token) (node : Word) : EdgeEnd → List Crossing
  | .port _ => []
  | .dropped => [⟨due, .dropped, t⟩]
  | .refused row col track dir => [⟨due, .refused row col track dir node, t⟩]

/-- What a token meets in its cycle (R274, R279, R409). -/
def State.crossingDone (g n : Nat) (s : State) (c : Crossing) : State :=
  match c.what with
  | .link row col dst => s.crossLink g n c.tok (row, col, dst)
  | .dropped => s.mapRegion g n (fun r => { r with dropped := sat32 r.dropped })
  | .refused row col track dir node => s.refuse g n c.tok row col track dir node

/-! ## Delivery -/

/-- An output of a firing: 4 × arm + 0 output 0, + 1 output 1, + 2 an overflow token on output 1 (R250). -/
def outEdge (code : Nat) : Nat := if code % 4 = 0 then 0 else 1

/-- The cycles from a firing of a node to its outputs (R236, R278). -/
def PNode.delay (n : PNode) : Nat := opLatency (nodeOp n.word) n.exts + n.linkCycles

/-- The clock at which the end-of-stream of an active node leaves it, once it has fired it (R236, R287). -/
def Region.endClock (n : PNode) (r : Region) : Option Nat :=
  (r.sentEnd.find? (fun e => decide (e.1 = n.site))).map (fun e => e.2 + n.delay)

/-- Whether an active edge's end-of-stream has passed a link of it, or entered its port (R288). -/
def Region.endPassed (p : Plane) (n : PNode) (hops : List (Nat × Nat × Nat)) (hop : Nat × Nat × Nat) (r : Region) : Bool :=
  (r.endClock n).any (fun c => decide (c + r.routeCycles p (hops.takeWhile (fun h => decide (h ≠ hop)) ++ [hop]) ≤ r.clock))

/-- Whether a segment or a port serves the shadow plane of a SWAPPING region (R288). -/
def Region.linkFree (r : Region) (hop : Nat × Nat × Nat) : Bool :=
  match r.active with
  | none => true
  | some p => p.nodes.all (fun n => [0, 1].all (fun o => match p.edge n o with
      | some (hops, _) => !hops.contains hop || r.endPassed p n hops hop
      | none => true))

/-- The part of a shadow edge that starts at the first link which still serves the active plane (R288). -/
def Region.heldUp (r : Region) (hops : List (Nat × Nat × Nat)) : List (Nat × Nat × Nat) :=
  if r.st = .swapping then hops.dropWhile r.linkFree else []

/-- A token taken up by an edge to a port (R275): the clock is noted when the edge is a long one. -/
def Region.takes (q : PortId) (cycles : Nat) (r : Region) : Region :=
  if cycles < 4 then r
  else
    let old := ((r.sent.find? (fun e => decide (e.1 = q))).map Prod.snd).getD []
    { r with sent := (q, (r.clock :: old).take 8) :: r.sent.filter (fun e => decide (e.1 ≠ q)) }

/-- A token goes on over its links to a port, to a dead end or to the border (R274, R279); it waits before the first link that still
serves the active plane (R288). -/
def State.carry (g n : Nat) (sh : Bool) (p : Plane) (k : Transit) (s : State) : State :=
  match s.region g n with
  | none => s
  | some r =>
    let rest := if sh then r.heldUp k.hops else []
    let free := k.hops.take (k.hops.length - rest.length)
    let due := k.reach + r.routeCycles p free
    let r := { r with crossings := r.crossings ++ r.linksOf p k.tok free k.reach }
    if !rest.isEmpty then s.setRegion g n { r with stalled := r.stalled ++ [{ k with hops := rest, reach := due }] }
    else
      let r := { r with crossings := r.crossings ++ k.stop.crossing due k.tok k.name }
      match k.stop with
      | .port q => (s.setRegion g n r).enter g n sh q { k.tok with due := due }
      | _ => s.setRegion g n r

/-- A token sent on an output of a node (R240, R274, R279), its producer named by the TNODE `name` (R220). -/
def State.sendOut (g n : Nat) (sh : Bool) (node : PNode) (name : Word) (code : Nat) (t : Token) (s : State) : State :=
  match s.region g n with
  | none => s
  | some r =>
    match (if sh then r.shadow else r.active) with
    | none => s
    | some p =>
      match p.edge node (outEdge code) with
      | none => if code % 4 = 2 then s.setRegion g n { r with ovdrop := sat32 r.ovdrop } else s
      | some (hops, stop) =>
        let r := match stop with
          | .port q => r.takes q (r.routeCycles p hops)
          | _ => r
        (s.setRegion g n r).carry g n sh p ⟨node.site, node.arm, outEdge code, t, name, hops, stop, r.clock + node.delay⟩

/-- Whether a long edge may take a token (R275): at most eight in every q cycles. -/
def Region.paced (q : PortId) (cycles : Nat) (r : Region) : Bool :=
  match r.sent.find? (fun e => decide (e.1 = q)) with
  | some e => decide (e.2.length < 8) || decide (e.2.getLast?.getD 0 + (2 * cycles + 2) ≤ r.clock)
  | none => true

/-- Whether an edge takes a token at all: none of its tokens waits for the active plane (R288), and a long edge keeps its pace
(R275). -/
def Region.edgeTakes (p : Plane) (node : PNode) (code : Nat) (r : Region) : Bool :=
  !r.stalled.any (fun k => decide (k.site = node.site ∧ k.arm = node.arm ∧ k.out = outEdge code))
    && match p.edge node (outEdge code) with
      | some (hops, .port q) => r.paced q (r.routeCycles p hops)
      | _ => true

/-- The tokens that an edge holds at most (R230, R236): eight, or as many as its producer has in flight when it sustains one token in
each cycle, as R256 and R275 ask of it; no more than eight of them stand in the port's queue. (log 11: DEDUCED.) -/
def PNode.edgeLimit (n : PNode) (cycles : Nat) : Nat :=
  max portDepth (if 2 * cycles + 2 ≤ portDepth then n.delay + cycles + 1 else n.delay)

/-- Whether an output can take a token (R236): its edge has a credit, or it has no port to wait for. (log 11: DEDUCED.) -/
def Region.outRoom (sh : Bool) (node : PNode) (code : Nat) (r : Region) : Bool :=
  match (if sh then r.shadow else r.active) with
  | none => false
  | some p =>
    r.edgeTakes p node code && match p.edge node (outEdge code) with
      | some (hops, .port q) =>
        let old := if r.inShadow q.site then 0 else (queueOf q r.queues).length
        let new := if sh || r.inShadow q.site then (queueOf q r.squeues).length else 0
        let owed := if 1 ≤ node.site.unit ∧ node.site.unit ≤ 4 then (r.accs.filter (fun a => decide (a.site = node.site))).length else 0
        decide (old + new + owed < node.edgeLimit (r.routeCycles p hops))
      | _ => true

/-- The tokens that wait for links of the active plane, as a cycle ends (R288): one goes on in the next cycle once the first of them
is free, or the region has wholly swapped. -/
def State.moveStalled (g n : Nat) (s : State) : State :=
  match s.region g n with
  | none => s
  | some r =>
    let sh := decide (r.st = .swapping)
    match (if sh then r.shadow else r.active) with
    | none => s
    | some p => r.stalled.foldl (fun s k =>
        s.carry g n sh p (if !sh || k.hops.head?.all r.linkFree then { k with reach := max k.reach (r.clock + 1) } else k))
        (s.setRegion g n { r with stalled := [] })

/-- The arrivals of a region's cycle (R274, R279, R288, R409). -/
def State.arrivals (g n : Nat) (s : State) : State :=
  let s := s.moveStalled g n
  match s.region g n with
  | none => s
  | some r =>
    let ripe := r.crossings.filter (fun c => decide (c.due ≤ r.clock))
    ripe.foldl (State.crossingDone g n) (s.setRegion g n { r with crossings := r.crossings.filter (fun c => decide (r.clock < c.due)) })

/-! ## Cells -/

/-- The plane that a place serves, and whether it is the shadow plane. -/
def Region.planeAt (st : Site) (r : Region) : Bool × Option Plane :=
  if r.inShadow st then (true, r.shadow) else (false, r.active)

/-- The nodes of a place, by arm. -/
def Region.cell (st : Site) (r : Region) : List PNode :=
  match (r.planeAt st).2 with
  | some p => p.nodes.filter (fun n => decide (n.site = st))
  | none => []

def Region.nodeState (sh : Bool) (st : Site) (arm : Nat) (r : Region) : NodeState :=
  nodeStateOf (st, arm) (if sh then r.snodes else r.nodes)

def Region.setNode (sh : Bool) (st : Site) (arm : Nat) (v : NodeState) (r : Region) : Region :=
  if sh then { r with snodes := setNodeState (st, arm) v r.snodes } else { r with nodes := setNodeState (st, arm) v r.nodes }

/-- The connected input ports of a place (R230, R238): those that an edge of its plane ends at, and the port to the outside of
an ENTRY. -/
def Region.connected (st : Site) (r : Region) : List Nat :=
  if st.unit = 13 then [0]
  else
    match (r.planeAt st).2 with
    | none => []
    | some p => [0, 1, 2, 3].filter (fun q => p.conns.any (fun c =>
        decide (c.row = st.row ∧ c.col = st.col ∧ 28 ≤ c.dst) && decide (portOfDst c.dst = (st.unit, q))))

/-- The tokens that stand in a port's queue, eight at most; those behind them are still on their way (R230, R236, R240). -/
def Region.standing (st : Site) (q : Nat) (r : Region) : List Token :=
  ((r.tokens ⟨st, q⟩).takeWhile (fun t => decide (t.due ≤ r.clock))).take portDepth

/-- The head of a port. -/
def Region.head (st : Site) (q : Nat) (r : Region) : Option Token := (r.standing st q).head?

/-- The class of a control token (R233). -/
def Token.cls (t : Token) : Nat := fld t.payload 56 8

/-- Whether a token is a marker (R410). -/
def Token.marker (t : Token) : Bool := decide (t.kind = .control) && decide (t.cls = 3)

def Token.isEnd (t : Token) : Bool := decide (t.kind = .endTile) || decide (t.kind = .endStream)

/-- An end token (R233). -/
def endToken (k : TKind) (tag : BitVec 8) (poison : Bool) : Token := ⟨poison, tag, 7, k, 0, 0, 0⟩

/-- A marker (R410). -/
def markToken (id : BitVec 16) : Token := ⟨false, 0, 0, .control, 0, wordOf (atBit 3 56 + atBit id.toNat 40), 0⟩

/-- Every output of every arm of a cell (R238). -/
def cellOuts (ns : List PNode) : List (PNode × Nat) := ns.flatMap (fun n => [(n, 4 * n.arm), (n, 4 * n.arm + 1)])

/-- Whether every output edge of a cell has a credit. (log 11: DESIGN CHOICE.) -/
def Region.allRoom (sh : Bool) (ns : List PNode) (r : Region) : Bool := (cellOuts ns).all (fun x => r.outRoom sh x.1 x.2 )

/-- The heads of ports removed. -/
def Region.pop (st : Site) (ports : List Nat) (r : Region) : Region :=
  ports.foldl (fun r q => r.setTokens ⟨st, q⟩ ((r.tokens ⟨st, q⟩).drop 1)) r

/-- A batch of outputs sent, in order; `name` gives the TNODE of each producer (R220). -/
def State.sendBatch (g n : Nat) (sh : Bool) (ns : List PNode) (name : PNode → Word) (batch : List (Nat × Token)) (s : State) : State :=
  batch.foldl (fun s x =>
    match ns.find? (fun m => decide (m.arm = x.1 / 4)) with
    | some m => s.sendOut g n sh m (name m) x.1 x.2
    | none => s) s

/-- The batch that sends one token on every output edge of a cell. -/
def batchAll (ns : List PNode) (t : Token) : List (Nat × Token) := (cellOuts ns).map (fun x => (x.2, t))

/-- Whether each output of a batch can be sent. -/
def Region.batchRoom (sh : Bool) (ns : List PNode) (batch : List (Nat × Token)) (r : Region) : Bool :=
  batch.all (fun x => match ns.find? (fun m => decide (m.arm = x.1 / 4)) with
    | some m => r.outRoom sh m x.1
    | none => true)

/-- The formats that a CVT accepts of a header (R250): all defined ones but FP64. -/
def headerOk (w : Word) : Bool :=
  decide (fld w 24 32 = 0) && decide (1 ≤ fld w 8 7 ∧ fld w 8 7 ≤ 64) && decide (fld w 16 4 ≤ 9)

/-- A burst header's fields (R71). -/
def readHeader (w : Word) : Header := ⟨fld w 20 4, fld w 16 4, w.getLsbD 15, fld w 8 7, fld w 0 8⟩

/-- Whether a node decodes elements, and so latches burst headers (R73): every CVT. (log 76: DEDUCED.) -/
def PNode.decodes (n : PNode) : Bool := decide (nodeOp n.word = 0x1C)

/-- Whether a control token is malformed for a cell (R74, R233, R250). -/
def malformed (ns : List PNode) (t : Token) : Bool :=
  if t.cls = 1 then !headerOk t.payload || (ns.any PNode.decodes && decide (fld t.payload 16 4 = 9))
  else decide (t.cls ≠ 2)

/-- What a control token leaves at a node (R73, R74). (log 76: DEDUCED.) -/
def NodeState.latch (t : Token) (bad : Bool) (v : NodeState) : NodeState :=
  if bad then { v with hdr := none, badHdr := true, seen := 0, outl := false }
  else if t.cls = 1 then { v with hdr := some (readHeader t.payload), badHdr := false, seen := 0, outl := false }
  else v

/-- The reset of the header after an end-of-stream (R73). -/
def NodeState.unlatch (v : NodeState) : NodeState := { v with hdr := none, badHdr := false, seen := 0, outl := false }

/-- A mask of the first `n` bytes. -/
def lowBytes (n : Nat) : BitVec 8 := BitVec.ofNat 8 (2 ^ n - 1)

/-- The lane width of a TYPE field (R246). -/
def typeWidth (m : Nat) : Nat := 64 / 2 ^ (m / 16 % 4)

/-- Lanes packed from lane 0 upward: VALID and payload. -/
def packLanes (w : Nat) (ls : List (BitVec 64)) : BitVec 8 × Word :=
  (lowBytes (ls.length * (w / 8)), wordOf ((List.range ls.length).foldl (fun acc i => acc + (ls.getD i 0).toNat * 2 ^ (w * i)) 0))

/-- The token of the lanes that a COALESCE holds (R259). -/
def heldToken (w dim : Nat) (v : NodeState) : Token := ⟨v.lpois, v.ltag, dim, .data, (packLanes w v.lanes).1, (packLanes w v.lanes).2, 0⟩

/-- What a node emits before an end token passes it (R251, R259), and its state after; `poison` when a token consumed is poisoned
(R239). -/
def PNode.beforeEnd (n : PNode) (tag : BitVec 8) (poison : Bool) (v : NodeState) : List (Nat × Token) × NodeState :=
  let op := nodeOp n.word
  let e := (n.exts.head?.map BitVec.toNat).getD 0
  if op = 0x1C ∧ e / 1024 % 2 = 1 then
    ([(4 * n.arm + 1, ⟨poison, tag, 7, .data, 0x1F, wordOf (atBit (bit v.nan) 32 + v.amax.toNat), 0⟩)], { v with amax := 0, nan := false })
  else if op = 0x2A ∧ v.lanes ≠ [] then
    let w := typeWidth (nodeMod n.word).toNat
    let t := heldToken w 0 { v with lpois := v.lpois || poison }
    ([(4 * n.arm, t), (4 * n.arm + 1, t)], { v with lanes := [], lpois := false })
  else ([], v)

/-- Whether the memory slots that held active-plane nodes have all forwarded their end-of-stream (R289). -/
def Region.oldMemoryDone (r : Region) : Bool :=
  match r.active with
  | none => true
  | some p => p.nodes.all (fun n => decide (n.site.unit < 1 ∨ 4 < n.site.unit) || r.passed.contains n.site || r.swapped.contains n.site)

/-- Whether a place holds back for the end of the old plane's memory accesses (R289). -/
def Region.gated (sh : Bool) (st : Site) (ns : List PNode) (r : Region) : Bool :=
  sh && decide (r.st = .swapping)
    && (decide (1 ≤ st.unit ∧ st.unit ≤ 12) || ns.any (fun n => decide (nodeOp n.word = 0x31))) && !r.oldMemoryDone

/-- One firing of a node by its operation (R236): the ports whose heads it takes, what it sends (0, 1, or 2 for an overflow
token), the outputs it may write, what each later firing sends, its state, a fault that it records, an access that it issues. -/
structure Fire where
  pops  : List Nat
  outs  : List (Nat × Token)
  may   : List Nat
  later : List (List (Nat × Token))
  st    : NodeState
  fault : Option (BitVec 8 × Cause × Nat)
  acc   : Option MemAcc
  deriving DecidableEq, Repr

/-- What a node sees at a firing: itself, its region's kind, the data heads of its ports, its state, and of the ctl token that
selects it in a two-armed cell whether it is poisoned and its DIM, which counts among the tokens consumed (R234). -/
structure NodeIn where
  n      : PNode
  kind   : Nat
  head   : Nat → Option Token
  st     : NodeState
  poison : Bool
  dim    : Nat

/-- A node's operation: the firings it may make, the first that has its credits being the one it makes. (log 21: DEDUCED.) -/
abbrev NodeFn := NodeIn → List Fire

/-- The port that a JOIN takes from next, b rather than a (R252): the open record's, with FAIR the one of two that has a token, else the
one whose turn it is. -/
def NodeState.joinsB (v : NodeState) (fair : Bool) (head : Nat → Option Token) : Bool :=
  match v.open_ with
  | some (b, _) => b
  | none => if fair && (head 0).isSome != (head 1).isSome then (head 1).isSome else v.turn

/-- A token sent to both consumers (R242). -/
def both (t : Token) : List (Nat × Token) := [(0, t), (1, t)]

/-- A firing that takes heads, sends tokens and keeps its state. -/
def Fire.simple (pops : List Nat) (outs : List (Nat × Token)) (st : NodeState) : Fire :=
  ⟨pops, outs, outs.map Prod.fst, [], st, none, none⟩

/-- The outputs of a node's arm. -/
def onArm (arm : Nat) (outs : List (Nat × Token)) : List (Nat × Token) := outs.map (fun x => (4 * arm + x.1, x.2))

/-- An emission of a LOOPGEN or ADDRGEN (R261, R262): the token, and the emission that follows. -/
def Emit.next (e : Emit) : (Nat × Token) × Option Emit :=
  if e.n ≤ e.i then ((1, ⟨e.poison, e.tag, e.inDim, .data, 0xFF, e.done, 0⟩), none)
  else
    let last := decide (e.i + 1 = e.n)
    let v : BitVec 8 := if e.void then 0 else 0xFF
    let w : Word := if e.void then 0 else e.base + wordOf e.i * e.step
    ((0, ⟨e.poison, e.tag, if last then e.dim else 0, .data, v, w, 0⟩), some { e with i := e.i + 1 })

/-- A firing noted at a place (R406). -/
def State.countFired (g n : Nat) (st : Site) (s : State) : State :=
  match s.region g n with
  | none => s
  | some r =>
    s.setRegion g n (if r.fired.contains st then r else { r with fired := r.fired ++ [st] })

/-- A place that does no more in the present cycle (R236, R238). -/
def Region.spend (st : Site) (r : Region) : Region := if r.spent.contains st then r else { r with spent := r.spent ++ [st] }

/-- Tokens discarded at a place by R238. -/
def State.misalign (g n : Nat) (st : Site) (k : Nat) (s : State) : State :=
  match s.region g n with
  | none => s
  | some r => s.mapRegionSite g r st.row st.col (SiteCount.misaligned k)

/-- The states of a cell's nodes changed. -/
def Region.mapCell (sh : Bool) (st : Site) (ns : List PNode) (f : PNode → NodeState → NodeState) (r : Region) : Region :=
  ns.foldl (fun r n => r.setNode sh st n.arm (f n (r.nodeState sh st n.arm))) r

/-- What a firing leaves to later firings joins what is still to be sent. -/
def NodeState.addLater (l : List (List (Nat × Token))) (v : NodeState) : NodeState := { v with pend := v.pend ++ l }

/-! ### Markers -/

/-- Whether the memory accesses of a place are done (R287, R410). -/
def Region.accsDone (st : Site) (r : Region) : Bool := !r.accs.any (fun a => decide (a.site = st))

/-- A cell takes its markers and sends one on every output edge (R410). -/
def State.passMarker (g n : Nat) (sh : Bool) (st : Site) (ns : List PNode) (ports : List Nat) (r : Region) (s : State) : State :=
  if r.allRoom sh ns && r.accsDone st then
    let r := (r.pop st ports).spend st
    let s := s.setRegion g n { r with cut := { r.cut with passed := r.cut.passed ++ [st] } }
    s.sendBatch g n sh ns (fun m => m.tnode n) (batchAll ns (markToken r.cut.id))
  else s

/-- What a RECIRC does with markers (R410): it forwards those of the ports but b and c, and absorbs the one that comes back to port
b. -/
def State.loopMarker (g n : Nat) (sh : Bool) (st : Site) (ns : List PNode) (ports : List Nat) (r : Region) (s : State) : State :=
  if r.cut.loops.contains st then
    let r := (r.pop st ports).spend st
    s.setRegion g n { r with cut := { r.cut with
      passed := r.cut.passed ++ [st], loops := r.cut.loops.filter (fun x => decide (x ≠ st)) } }
  else if r.allRoom sh ns then
    let r := (r.pop st ports).spend st
    let s := s.setRegion g n { r with cut := { r.cut with loops := r.cut.loops ++ [st] } }
    s.sendBatch g n sh ns (fun m => m.tnode n) (batchAll ns (markToken r.cut.id))
  else s

/-- Whether a head is a marker. -/
def Region.marked (st : Site) (r : Region) (q : Nat) : Bool := ((r.head st q).map Token.marker).getD false

/-! ### Control tokens -/

/-- A control token at the head of a port (R238, R73, R74): latched where it is a header, sent on from port a. -/
def State.passControl (g n : Nat) (sh : Bool) (st : Site) (ns : List PNode) (q : Nat) (t : Token) (r : Region) (s : State) : State :=
  let ret := ns.any (fun m => decide (nodeOp m.word = 0x3F))
  let bad := malformed ns t
  let node := match ns with
    | m :: _ => m.tnode n
    | [] => 0
  let t : Token := if bad then { t with poison := true } else t
  if q = 0 ∧ (!r.allRoom sh ns ∨ !r.accsDone st) then s
  else
    let r := (r.pop st [q]).mapCell sh st ns (fun m v => if m.decodes then v.latch t bad else v)
    let r := if bad && !ret then r.fault t.tag .illegal 0x40 0 node else r
    let s := (s.setRegion g n r).countFired g n st
    if q = 0 then s.sendBatch g n sh ns (fun m => m.tnode n) (batchAll ns t) else s

/-! ### End tokens -/

/-- Whether the shadow plane of every site that a place's nodes take is written (R278, R287). -/
def Region.shadowReady (ns : List PNode) (r : Region) : Bool := ns.all (fun m => m.cells.all (fun c => r.written.contains (c.row, c.col)))

/-- The end tokens of a cell pass (R238, R251, R257, R259, R287): its nodes emit what they hold, then one end token on every
output edge; with an end-of-stream a swapping cell is ready to swap. -/
def State.passEnd (g n : Nat) (sh : Bool) (st : Site) (ns : List PNode) (ports : List Nat) (k : TKind) (t : Token)
    (r : Region) (s : State) : State :=
  let eos := decide (k = .endStream)
  let swaps := eos && decide (r.st = .swapping) && !sh
  let poison := ports.any (fun q => ((r.head st q).map Token.poison).getD false)
  if swaps && !r.shadowReady ns then s
  else
    let before := ns.flatMap (fun m => (m.beforeEnd t.tag poison (r.nodeState sh st m.arm)).1)
    let after := batchAll ns (endToken k t.tag poison)
    let now := if before.isEmpty then after else before
    let later := if before.isEmpty then [] else [after]
    if r.batchRoom sh ns now then
      let r := r.pop st ports
      let r := r.mapCell sh st ns (fun m v =>
        let v := (m.beforeEnd t.tag poison v).2
        if eos then v.unlatch else v)
      let r := match ns with
        | m :: _ => r.setNode sh st m.arm ((r.nodeState sh st m.arm).addLater later)
        | [] => r
      let r := if swaps then { r with passed := r.passed ++ [st] } else r
      let r := if swaps && before.isEmpty then r.endFired st else r
      ((s.setRegion g n r).sendBatch g n sh ns (fun m => m.tnode n) now).countFired g n st
    else s

/-- What a RETURN does with a token (R212, R265): a server's data tokens are grouped by tag and its end and control tokens
discarded; a stream configuration's data and end tokens go to the outbound port. (log 24: DESIGN CHOICE.) -/
def State.atReturn (g n : Nat) (sh : Bool) (st : Site) (t : Token) (r : Region) (s : State) : State :=
  let swaps := decide (t.kind = .endStream) && decide (r.st = .swapping) && !sh
  let out : PortId := ⟨st, outboundPort⟩
  if r.kind = 0 then
    let r := r.pop st [0]
    let r := if t.kind = .data ∧ r.flights.any (fun f => decide (f.tag = t.tag)) = true then { r with rets := match r.rets.find? (fun e => decide (e.1 = t.tag)) with
      | some _ => r.rets.map (fun e => if e.1 = t.tag then (e.1, e.2 ++ [t]) else e)
      | none => r.rets ++ [(t.tag, [t])] } else r
    (s.setRegion g n r).countFired g n st
  else if t.kind = .control then (s.setRegion g n (r.pop st [0])).countFired g n st
  else if swaps && !r.written.contains (st.row, st.col) then s
  else if (queueOf out r.queues).length < portDepth then
    let r := r.pop st [0]
    let r := { r with queues := setQueueOf out (queueOf out r.queues ++ [t]) r.queues }
    let r := if swaps then ({ r with passed := r.passed ++ [st] }).endFired st else r
    (s.setRegion g n r).countFired g n st
  else s

/-! ### Firing -/

/-- A firing performed: heads taken, the state kept, its outputs sent, its fault recorded, its access begun (R236, R239); a
replicated node's token goes to its next copy (R265). -/
def State.perform (g n : Nat) (sh : Bool) (node : PNode) (two : Bool) (sel : Option Token) (f : Fire) (r : Region) (s : State) :
    State :=
  let st := node.site
  let k := if 1 < node.rep then f.st.pos % node.rep else 0
  let one := node.copyAt k
  let taken := f.pops.any (fun q => ((r.head st q).map Token.poison).getD false)
  let poison := taken || ((sel.map Token.poison).getD false) || f.fault.isSome
  let taint (o : Nat × Token) : Nat × Token := if poison then (o.1, { o.2 with poison := true }) else o
  let taintData (o : Nat × Token) : Nat × Token := if o.2.isEnd then o else taint o
  let pops := if two && !f.pops.contains 3 then 3 :: f.pops else f.pops
  let r := (r.pop st pops).spend st
  let v : NodeState := { f.st with
    emit := f.st.emit.map (fun e => { e with poison := e.poison || poison })
    pos := if 1 < node.rep then (k + 1) % node.rep else f.st.pos }
  let r := r.setNode sh st node.arm (v.addLater (f.later.map (fun b => (onArm node.arm b).map taintData)))
  let r := match f.fault with
    | some (tag, c, sub) => r.fault tag c sub 0 (one.tnode n)
    | none => r
  let r := match f.acc with
    | some a => { r with accs := r.accs ++ [{ a with poison := a.poison || poison, serial := s.serial, shadow := sh }] }
    | none => r
  let s := (s.setRegion g n r).countFired g n one.site
  s.sendBatch g n sh [node] (fun _ => one.tnode n) ((onArm node.arm f.outs).map taint)

/-- The data head of a port: none where it is no data token (R236, R410). -/
def Region.dataHead (st : Site) (q : Nat) (r : Region) : Option Token :=
  match r.head st q with
  | some t => if t.kind = .data then some t else none
  | none => none

/-- What a node reads at a port: its data head. The selecting ctl token of a two-armed cell is no operand (R236); a RECIRC takes
every token of ports b and c (R255), and none of port a once it has forwarded its marker (R410). (log 20: DEDUCED.) -/
def Region.operand (node : PNode) (two : Bool) (r : Region) (q : Nat) : Option Token :=
  let recirc := decide (nodeOp node.word = 0x23)
  if two && decide (q = 3) then none
  else if recirc && decide (q = 0) && r.cut.loops.contains node.site then none
  else if recirc && decide (1 ≤ q ∧ q ≤ 2) then (r.head node.site q).filter (fun t => decide (t.kind ≠ .control))
  else r.dataHead node.site q

/-- The firing that a node makes now, if any (R236, R240). -/
def Region.firing (sh : Bool) (node : PNode) (two : Bool) (sel : Option Token) (fn : NodeFn) (r : Region) : Option Fire :=
  (fn ⟨node, r.kind, r.operand node two, r.nodeState sh node.site node.arm, (sel.map Token.poison).getD false,
    (sel.map Token.dim).getD 0⟩).find? (fun f =>
    f.may.all (fun o => r.outRoom sh node (4 * node.arm + o)))

/-- The node of a cell and what selects it (R236): in a two-armed cell the ctl head names the arm. -/
def Region.selected (node : PNode) (two : Bool) (r : Region) : Option (Option Token) :=
  if !two then some none
  else
    match r.dataHead node.site 3 with
    | some t => if fld t.payload 0 1 = node.arm then some (some t) else none
    | none => none

/-- The remaining emissions of a cell (R250, R257, R259, R261, R262), one for each firing. -/
def State.emitNext (g n : Nat) (sh : Bool) (ns : List PNode) (m : PNode) (r : Region) (s : State) : State :=
  let v := r.nodeState sh m.site m.arm
  let name (x : PNode) : Word := (if x.arm = m.arm then x.copyAt (if 1 < x.rep then (v.pos + x.rep - 1) % x.rep else 0) else x).tnode n
  match v.pend with
  | b :: rest =>
    -- an end-of-stream that the cell makes itself swaps it as one that passes (R257, R287)
    let ends := b.any (fun x => decide (x.2.kind = .endStream)) && decide (r.st = .swapping) && !sh
    let swaps := ends && !r.passed.contains m.site
    if swaps && !r.shadowReady ns then s
    else if r.batchRoom sh ns b then
      let r := if swaps then { r with passed := r.passed ++ [m.site] } else r
      let r := if ends then r.endFired m.site else r
      ((s.setRegion g n (r.setNode sh m.site m.arm { v with pend := rest })).sendBatch g n sh ns name b).countFired g n m.site
    else s
  | [] =>
    match v.emit with
    | none => s
    | some e =>
      let (o, e') := e.next
      let b := onArm m.arm [o]
      if r.batchRoom sh ns b then
        ((s.setRegion g n (r.setNode sh m.site m.arm { v with emit := e' })).sendBatch g n sh ns name b).countFired g n m.site
      else s

/-- What stands before the nodes of a cell. -/
inductive CellTurn where
  /-- The cell does nothing: stopped at a cut, waiting to swap, or for the old plane's accesses. -/
  | still
  /-- An emission of a node goes on. -/
  | emit (m : PNode)
  | markers (ports : List Nat)
  /-- A RECIRC forwards its marker, or absorbs the one that comes back (R410). -/
  | loopMarker (ports : List Nat)
  /-- A RECIRC drops a marker that reaches port c, which needs none (R410). -/
  | absorb
  | control (port : Nat) (t : Token)
  /-- Heads discarded by R238. -/
  | discard (ports : List Nat)
  | ends (ports : List Nat) (k : TKind) (t : Token)
  | ret (t : Token)
  /-- An ENTRY sends a marker (R410). -/
  | flood
  | fire
  deriving DecidableEq, Repr

/-- What end tokens at the heads of a cell's connected ports call for (R238): none where there is none. -/
def endTurn (heads : List (Nat × Option Token)) : Option CellTurn :=
  let at_ (f : Token → Bool) : List Nat := (heads.filter (fun h => (h.2.map f).getD false)).map Prod.fst
  let ends := at_ Token.isEnd
  let data := at_ (fun t => decide (t.kind = .data))
  let tiles := at_ (fun t => decide (t.kind = .endTile))
  let streams := at_ (fun t => decide (t.kind = .endStream))
  if ends.isEmpty then none
  else if !data.isEmpty then some (.discard (data.take 1))
  else if !tiles.isEmpty && !streams.isEmpty then some (.discard tiles)
  else if ends.length = heads.length then
    match heads.head? with
    | some (_, some t) => some (.ends ends t.kind t)
    | _ => some .still
  else some .still

/-- What the end tokens of a cell call for (R238, R255, R287): a RECIRC forwards its own once its count is zero and nothing comes back
at port b, and waits for none at ports b and c. -/
def Region.endsTurn (sh : Bool) (st : Site) (ns : List PNode) (conn : List Nat) (r : Region) : Option CellTurn :=
  let loops := ns.filter (fun m => decide (nodeOp m.word = 0x23))
  let ports := if !loops.isEmpty then conn.filter (fun q => decide (q ≠ 1 ∧ q ≠ 2)) else conn
  match endTurn (ports.map (fun q => (q, r.head st q))) with
  | none => none
  | some x =>
    if loops.any (fun m => decide ((r.nodeState sh st m.arm).count ≠ 0)) || (!loops.isEmpty && (r.head st 1).isSome) then some .fire
    else
      match x with
      | .ends _ _ _ => some (if r.accsDone st then x else .still)
      | _ => some x

/-- What the markers at the heads of a cell call for (R410). -/
def Region.markTurn (st : Site) (ns : List PNode) (conn : List Nat) (r : Region) : Option CellTurn :=
  if ns.any (fun m => decide (nodeOp m.word = 0x23)) then
    let ports := conn.filter (fun q => decide (q ≠ 1 ∧ q ≠ 2))
    if r.cut.loops.contains st then (if r.marked st 1 then some (.loopMarker [1]) else none)
    else if r.cut.state = 1 ∧ r.cut.passed.contains st = false ∧ ports ≠ [] ∧ ports.all (r.marked st) = true then some (.loopMarker ports)
    else none
  else if !conn.isEmpty && conn.all (r.marked st) then some (.markers conn)
  else none

/-- What a cell does next (R236 to R238, R287, R289, R380, R410). -/
def Region.cellTurn (st : Site) (r : Region) : CellTurn :=
  let sh := (r.planeAt st).1
  let ns := r.cell st
  let ops := ns.map (fun n => nodeOp n.word)
  let conn := r.connected st
  let cutPassed := r.cut.passed.contains st
  let flooding := decide (r.cut.state = 1)
  let floods := ops.contains 0x3E && flooding && !cutPassed && decide ((r.nodeState sh st 0).pos = 0)
  if sh && !ns.all (fun m => m.cells.all r.inShadow) then .still
  else if ops.contains 0x23 && r.marked st 2 && (r.cut.loops.contains st || cutPassed || !flooding) then .absorb
  else if r.cut.stop && decide (r.cut.state = 1 ∨ r.cut.state = 3) && cutPassed then .still
  else
    match ns.find? (fun m => !(r.nodeState sh st m.arm).pend.isEmpty || (r.nodeState sh st m.arm).emit.isSome) with
    | some m => .emit m
    | none =>
      if r.passed.contains st && !sh then .still
      else if ops.contains 0x3E && r.halt && decide (r.kind = 1) then (if floods then .flood else .still)
      else
        match r.markTurn st ns conn with
        | some x => x
        | none =>
          match conn.find? (fun q => ((r.head st q).map (fun t => decide (t.kind = .control) && !t.marker)).getD false) with
          | some q =>
            match r.head st q with
            | some t => if ops.contains 0x3F then .ret t else .control q t
            | none => .still
          | none =>
            if ops.contains 0x3F then
              match r.head st 0 with
              | some t => if t.marker then .still else .ret t
              | none => .still
            else
              match r.endsTurn sh st ns conn with
              | some x => x
              | none => if r.gated sh st ns then .still else if floods then .flood else .fire

/-- Whether a region's sites act: it holds a configuration. (log 80: DEDUCED.) -/
def Region.runs (r : Region) : Bool :=
  decide (r.st = .placed) || decide (r.st = .closing) || decide (r.st = .swapping)

/-- A node's place acts (R236 to R240): what stands before its nodes first, then the node by its operation `fn`. -/
def State.fireNode (g n : Nat) (st : Site) (arm : Nat) (word : BitVec 32) (fn : NodeFn) (s : State) : State :=
  match s.region g n with
  | none => s
  | some r =>
    let sh := (r.planeAt st).1
    let ns := (r.cell st).map (fun m => if m.arm = arm then { m with word := word } else m)
    match ns.find? (fun m => decide (m.arm = arm)) with
    | none => s
    | some node =>
      if !r.runs || r.spent.contains st || r.fired.contains st then s
      else
        match r.cellTurn st with
        | .still => s
        | .emit m => s.emitNext g n sh ns m r
        | .markers ports => s.passMarker g n sh st ns ports r
        | .loopMarker ports => s.loopMarker g n sh st ns ports r
        | .absorb => s.setRegion g n ((r.pop st [2]).spend st)
        | .control q t => s.passControl g n sh st ns q t r
        | .discard ports => ((s.setRegion g n ((r.pop st ports).spend st)).misalign g n st ports.length)
        | .ends ports k t => s.passEnd g n sh st ns ports k t r
        | .ret t => s.atReturn g n sh st t r
        | .flood => s.passMarker g n sh st ns [] r
        | .fire =>
          let two := decide (1 < ns.length)
          match r.selected node two with
          | none => s
          | some sel =>
            match r.firing sh node two sel fn with
            | some f => s.perform g n sh node two sel f r
            | none => s

/-- The meaning of a node word: the node of the fabric place that fires, with the word's own operation (R242). -/
def nodeOpAt (word : BitVec 32) (fn : NodeFn) (s : State) : Host.Outcome State Fault Refusal :=
  .next (s.fireNode s.site.spire s.site.region s.site.site s.site.arm word fn)

end Sys2Proof.Machine
end

