-- ==== Sys2Proof/Machine/Blocks.lean ====
section
/-! DEFINITION. Elements of blocks: formats, scales, Q4X and its outlier, and the conversions of a CVT node
(R70 to R76, R82, R250). -/

namespace Sys2Proof.Machine

/-- The width of an element of a format code (R72). -/
def elemWidth (fmt : Nat) : Nat :=
  if fmt = 0 ∨ fmt = 8 then 32 else if fmt = 1 ∨ fmt = 2 then 16 else if fmt = 9 then 64 else if fmt = 6 ∨ fmt = 7 then 4 else 8

/-- Elements of a data token (R72). -/
def elemsPerToken (fmt : Nat) : Nat := 64 / elemWidth fmt

/-- Whether a format's SCALE is applied (R72). -/
def elemScaled (fmt : Nat) : Bool := decide (fmt = 3 ∨ fmt = 4 ∨ fmt = 7)

/-- Whether a format holds floating-point values, Q4X among them (R72, R251). -/
def elemFloat (fmt : Nat) : Bool := !(fmt = 5 || fmt = 6 || fmt = 8)

/-- The value of a two's-complement code of `w` bits. -/
def signedOf (w n : Nat) : Int :=
  let m := n % 2 ^ w
  if 2 ^ (w - 1) ≤ m then (m : Int) - (2 ^ w : Nat) else (m : Int)

/-- The value of an element code, a Q4X nibble read as INT4 (R65, R72, R75). -/
def elemValue (fmt code : Nat) : FVal :=
  if fmt = 0 then fp32.decode code
  else if fmt = 1 then bf16.decode code
  else if fmt = 2 then fp16.decode code
  else if fmt = 3 then e4m3.decode code
  else if fmt = 4 then e5m2.decode code
  else if fmt = 9 then fp64.decode code
  else FVal.ofInt (signedOf (elemWidth fmt) code)

/-- Applying an E8M0 scale (R70). -/
def applyScale (sc : Nat) (v : FVal) : FVal := if sc = 255 then .nan false else v.scaleBy ((sc : Int) - 127)

/-- Element code `j` of a payload. -/
def elemCode (fmt : Nat) (w : Word) (j : Nat) : Nat := w.toNat / 2 ^ (elemWidth fmt * j) % 2 ^ elemWidth fmt

/-- Whether every byte of element `j` is valid. -/
def elemValid (fmt : Nat) (valid : BitVec 8) (j : Nat) : Bool :=
  let w := elemWidth fmt
  (List.range ((w + 7) / 8)).all (fun b => valid.getLsbD (w * j / 8 + b))

/-- The outlier code that decodes as one among the first `n` elements of a word: the lowest valid one (R75). -/
def outlierAt (w : Word) (valid : BitVec 8) (n : Nat) : Option Nat :=
  (List.range n).find? (fun j => decide (elemCode 7 w j = 8) && elemValid 7 valid j)

/-- A word of a block decoded (R72, R75, R76): the values of its first `n` elements, none where invalid; whether the block has
had its outlier; whether an outlier code decoded as zero. `had` says that an earlier word had the outlier. -/
def decodeWord (fmt oxt scale : Nat) (w : Word) (valid : BitVec 8) (n : Nat) (had : Bool) : List (Option FVal) × Bool × Bool :=
  let sc (v : FVal) : FVal := if elemScaled fmt then applyScale scale v else v
  if fmt = 7 then
    let out := if had then none else outlierAt w valid n
    let mate (j : Nat) : Nat := if j % 2 = 0 then j + 1 else j - 1
    let value (j : Nat) : FVal :=
      match out with
      | some o =>
        if j = o then e4m3.decode (elemCode 7 w (mate o) * 16 + oxt)
        else if j = mate o ∨ elemCode 7 w j = 8 then FVal.ofInt 0
        else elemValue 7 (elemCode 7 w j)
      | none => if elemCode 7 w j = 8 then FVal.ofInt 0 else elemValue 7 (elemCode 7 w j)
    let extra (j : Nat) : Bool := decide (elemCode 7 w j = 8) && elemValid 7 valid j
      && decide (out ≠ some j) && !(match out with
        | some o => decide (j = mate o)
        | none => false)
    ((List.range n).map (fun j => if elemValid 7 valid j then some (sc (value j)) else none),
      had || out.isSome, (List.range n).any extra)
  else
    ((List.range n).map (fun j => if elemValid fmt valid j then some (sc (elemValue fmt (elemCode fmt w j))) else none), had, false)

/-- The format code of R72 that a CVT's FROM or TO names (R250). -/
def cvtFmt (c : Nat) : Nat := if c = 6 then 8 else c

/-- A value converted to a format of a CVT (R82): its code, and whether it met an OV row. -/
def convertElem (fmt : Nat) (v : FVal) : Nat × Bool :=
  let ofFmt (f : Fmt) : Nat × Bool := ((f.narrow .rne v).1, (f.narrow .rne v).2.getLsbD 5)
  let ofInt (w : Nat) : Nat × Bool :=
    let (i, fl) := narrowInt (-(2 ^ (w - 1) : Nat)) ((2 ^ (w - 1) : Nat) - 1) .rne v
    ((i % (2 ^ w : Nat)).toNat, fl.getLsbD 5)
  if fmt = 0 then ofFmt fp32
  else if fmt = 1 then ofFmt bf16
  else if fmt = 2 then ofFmt fp16
  else if fmt = 3 then ofFmt e4m3
  else if fmt = 4 then ofFmt e5m2
  else ofInt (elemWidth fmt)

/-- Codes packed into a token's payload with their VALID bits; an absent one stays invalid (R250). -/
def packElems (fmt : Nat) (cs : List (Option Nat)) : BitVec 8 × Word :=
  let w := elemWidth fmt
  let nb := w / 8
  let at_ (i : Nat) : Nat := (((cs[i]?).getD none).getD 0) * 2 ^ (w * i)
  let ok (i : Nat) : Nat := if ((cs[i]?).getD none).isSome then (2 ^ nb - 1) * 2 ^ (nb * i) else 0
  (BitVec.ofNat 8 ((List.range cs.length).map ok).sum, wordOf ((List.range cs.length).map at_).sum)

/-- A list cut into runs of `k`. -/
def chunksOf {α : Type} (k : Nat) : Nat → List α → List (List α)
  | 0, _ => []
  | fuel + 1, l => if l.isEmpty then [] else l.take k :: chunksOf k fuel (l.drop k)

/-- The FP32 code of a magnitude, for AMAX (R251). -/
def magCode (v : FVal) : Nat :=
  let m : FVal := match v with
    | .nan s => .nan s
    | .inf _ => .inf false
    | .fin _ a e => .fin false a e
  (fp32.deliver .rne m).1

end Sys2Proof.Machine
end

