-- ==== Sys2Proof/Machine/Nodes.lean ====
section
/-! DEFINITION. The node operations of the fabric and the meaning of every node word (R222, R234, R245 to R263, R265, R441). -/

namespace Sys2Proof.Machine

/-! ## Lanes -/

/-- Lane `i` of width `w` of a payload. -/
def laneOf (w i : Nat) (p : Word) : Nat := p.toNat / 2 ^ (w * i) % 2 ^ w

/-- Whether lane `i` is valid: all its bytes are (R234). -/
def laneOk (w i : Nat) (v : BitVec 8) : Bool := (List.range (w / 8)).all (fun b => v.getLsbD (w / 8 * i + b))

/-- Lanes as a payload with their VALID bits; an absent lane is zero and invalid (R234). -/
def lanesToken (w : Nat) (ls : List (Option Nat)) : BitVec 8 × Word :=
  let nb := w / 8
  let at_ (i : Nat) : Nat := (((ls[i]?).getD none).getD 0) % 2 ^ w * 2 ^ (w * i)
  let ok (i : Nat) : Nat := if ((ls[i]?).getD none).isSome then (2 ^ nb - 1) * 2 ^ (nb * i) else 0
  (BitVec.ofNat 8 ((List.range ls.length).map ok).sum, wordOf ((List.range ls.length).map at_).sum)

/-- The largest DIM of tokens (R234). -/
def maxDim (ts : List Token) : Nat := ts.foldl (fun d t => max d t.dim) 0

/-- DIM under a MARK field (R246). -/
def markDim (mark dim : Nat) : Nat := if mark = 1 then 0 else if mark = 2 then 1 else dim

/-- Whether any of the tokens is poisoned (R239). -/
def anyPoison (ts : List Token) : Bool := ts.any Token.poison

/-- The output of a lane-wise node (R234): each lane valid when it is valid in every token read; `dim` is the DIM of a selecting
ctl token. (log 75: DEDUCED.) -/
def laneWise (w mark dim : Nat) (a : Token) (rest : List Token) (f : Nat → List Nat → Nat) : Token :=
  let ts := a :: rest
  let lane (i : Nat) : Option Nat :=
    if ts.all (fun t => laneOk w i t.valid) then some (f (laneOf w i a.payload) (rest.map (fun t => laneOf w i t.payload))) else none
  let (v, p) := lanesToken w ((List.range (64 / w)).map lane)
  ⟨anyPoison ts, a.tag, markDim mark (max dim (maxDim ts)), .data, v, p, 0⟩

/-- Extension word `i` of a node, zero where it has none. -/
def NodeIn.ext (x : NodeIn) (i : Nat) : BitVec 32 := (x.n.exts[i]?).getD 0

/-- A node of two operands whose b may be its extension word (R246, R248): `imm` is that word as a lane. -/
def binaryFire (w mark : Nat) (immb : Bool) (imm : Nat) (f : Nat → Nat → Nat) (x : NodeIn) : List Fire :=
  match x.head 0 with
  | none => []
  | some a =>
    if immb then [Fire.simple [0] (both (laneWise w mark x.dim a [] (fun u _ => f u imm))) x.st]
    else
      match x.head 1 with
      | none => []
      | some b => [Fire.simple [0, 1] (both (laneWise w mark x.dim a [b] (fun u vs => f u (vs.headD 0)))) x.st]

/-! ## Integer nodes -/

/-- The integer operations of R246. -/
inductive IntOp where
  | add | sub | mul | and | or | xor | shl | shr | sra | min | max
  deriving DecidableEq, Repr

/-- A signed value clamped to a lane's range (R246). -/
def clampLane (w : Nat) (v : Int) : Int := max (-(2 ^ (w - 1) : Nat) : Int) (min v ((2 ^ (w - 1) : Nat) - 1))

/-- A signed value as a lane. -/
def laneInt (w : Nat) (v : Int) : Nat := (v % (2 ^ w : Nat)).toNat

/-- f of R246; `opt` is SAT, HI or U. -/
def IntOp.lane (op : IntOp) (opt : Bool) (w a b : Nat) : Nat :=
  let sa := signedOf w a
  let sb := signedOf w b
  let sh := b % w
  let below := if opt then decide (a ≤ b) else decide (sa ≤ sb)
  match op with
  | .add => laneInt w (if opt then clampLane w (sa + sb) else sa + sb)
  | .sub => laneInt w (if opt then clampLane w (sa - sb) else sa - sb)
  | .mul => if opt then laneInt w (sa * sb / (2 ^ w : Nat)) else a * b % 2 ^ w
  | .and => a &&& b
  | .or => a ||| b
  | .xor => a ^^^ b
  | .shl => a * 2 ^ sh % 2 ^ w
  | .shr => a / 2 ^ sh
  | .sra => laneInt w (sa / (2 ^ sh : Nat))
  | .min => if below then a else b
  | .max => if below then b else a

/-- IADD to IMAX (R246). -/
def intNode (op : IntOp) (m : BitVec 6) (x : NodeIn) : List Fire :=
  let w := typeWidth m.toNat
  binaryFire w (m.toNat % 4) (m.getLsbD 3) (laneInt w (x.ext 0).toInt) (op.lane (m.getLsbD 2) w) x

/-- COND of R102 on lanes. -/
def laneCond (c w a b : Nat) : Bool :=
  let sa := signedOf w a
  let sb := signedOf w b
  if c = 0 then decide (a = b) else if c = 1 then decide (a ≠ b) else if c = 2 then decide (sa < sb) else if c = 3 then decide (a < b)
  else if c = 4 then decide (sa ≤ sb) else if c = 5 then decide (a ≤ b) else decide (a &&& b ≠ 0)

/-- ICMP (R247). -/
def icmpNode (m : BitVec 6) (x : NodeIn) : List Fire :=
  let w := typeWidth m.toNat
  binaryFire w 0 (m.getLsbD 3) (laneInt w (x.ext 0).toInt)
    (fun a b => if laneCond (m.toNat % 8) w a b then 2 ^ w - 1 else 0) x

/-! ## Floating-point nodes -/

/-- The float operations of R248. -/
inductive FltOp where
  | add | mul | max | min
  deriving DecidableEq, Repr

/-- A lane of FADD to FMIN under RNE, without flags (R248). -/
def FltOp.lane (op : FltOp) (f : Fmt) (a b : Nat) : Nat :=
  match op with
  | .add => (fAdd f .rne (f.decode a) (f.decode b)).1
  | .mul => (fMul f .rne (f.decode a) (f.decode b)).1
  | .max => (fMinMax f true a b).1
  | .min => (fMinMax f false a b).1

/-- The format of a TYPE field (R248). -/
def floatFmt (m : BitVec 6) : Fmt := if m.getLsbD 4 then bf16 else fp32

/-- The immediate operand of a float node (R248): the word, or its bits 31:16 as BF16. -/
def floatImm (m : BitVec 6) (e : BitVec 32) : Nat := if m.getLsbD 4 then e.toNat / 65536 else e.toNat

/-- FADD, FMUL, FMAX and FMIN (R248). -/
def fltNode (op : FltOp) (m : BitVec 6) (x : NodeIn) : List Fire :=
  let f := floatFmt m
  binaryFire f.width (m.toNat % 4) (m.getLsbD 3) (floatImm m (x.ext 0)) (op.lane f) x

/-- FMA (R248): a × b + c with the product exact. -/
def fmaNode (m : BitVec 6) (x : NodeIn) : List Fire :=
  let f := floatFmt m
  let go (a b c : Nat) : Nat := (fMulAdd f .rne (f.decode a) (f.decode b) (f.decode c)).1
  let immb := m.getLsbD 3
  match x.head 0, x.head 1, x.head 2 with
  | some a, some b, some c =>
    if immb then [Fire.simple [0, 2] (both (laneWise f.width (m.toNat % 4) x.dim a [c] (fun u vs => go u (floatImm m (x.ext 0)) (vs.headD 0)))) x.st]
    else [Fire.simple [0, 1, 2] (both (laneWise f.width (m.toNat % 4) x.dim a [b, c] (fun u vs => go u (vs.headD 0) (vs.getD 1 0)))) x.st]
  | some a, none, some c =>
    if immb then [Fire.simple [0, 2] (both (laneWise f.width (m.toNat % 4) x.dim a [c] (fun u vs => go u (floatImm m (x.ext 0)) (vs.headD 0)))) x.st]
    else []
  | _, _, _ => []

/-- EXP2, LOG2, RCP and RSQ (R249): a BF16 lane is widened, computed as FP32 and rounded once. -/
def approxNode (fn : FVal → Nat × Flags) (m : BitVec 6) (x : NodeIn) : List Fire :=
  let f := floatFmt m
  let go (a : Nat) : Nat :=
    let r := (fn (f.decode a)).1
    if m.getLsbD 4 then (bf16.deliver .rne (fp32.decode r)).1 else r
  match x.head 0 with
  | none => []
  | some a => [Fire.simple [0] (both (laneWise f.width (m.toNat % 4) x.dim a [] (fun u _ => go u))) x.st]

/-! ## CVT -/

/-- A candidate of a tag, or AMAX itself, folded with a value (R222, R251). -/
def foldMax (v : FVal) (c : BitVec 32 × Bool) : BitVec 32 × Bool :=
  if v.isNaN then (c.1, true) else (BitVec.ofNat 32 (max c.1.toNat (magCode v)), c.2)

/-- The candidate of a tag. -/
def candOf (tag : BitVec 8) : List (BitVec 8 × BitVec 32 × Bool) → BitVec 32 × Bool
  | [] => (0, false)
  | (t, v, n) :: rest => if t = tag then (v, n) else candOf tag rest

def setCand (tag : BitVec 8) (c : BitVec 32 × Bool) : List (BitVec 8 × BitVec 32 × Bool) → List (BitVec 8 × BitVec 32 × Bool)
  | [] => [(tag, c.1, c.2)]
  | (t, v, n) :: rest => if t = tag then (tag, c.1, c.2) :: rest else (t, v, n) :: setCand tag c rest

/-- Candidates committed (R222): the greater of the two, and the canonical NaN for a NaN under PROP. -/
def commitMax (prop : Bool) (c : BitVec 32 × Bool) (v : NodeState) : NodeState :=
  { v with
    amax := if prop && c.2 then BitVec.ofNat 32 fp32.canonNaN else if v.amax.toNat ≤ c.1.toNat then c.1 else v.amax
    nan := v.nan || c.2 }

/-- AMAX after a firing (R251): a candidate of the tag in a server image, at once in a stream configuration. -/
def keepMax (kind : Nat) (prop : Bool) (tag : BitVec 8) (vs : List FVal) (v : NodeState) : NodeState :=
  if vs.isEmpty then v
  else if kind = 0 then { v with cands := setCand tag (vs.foldl (fun c u => foldMax u c) (candOf tag v.cands)) v.cands }
  else commitMax prop (vs.foldl (fun c u => foldMax u c) (0, false)) v

/-- A CVT's header in force (R73, R250): the latched one, its format that of FROM where FROM names one; at first the reset header,
which a CVT from HDR has none of. (log 76: DEDUCED.) -/
def cvtHeader (m : BitVec 6) (v : NodeState) : Option Header :=
  if m.toNat % 8 = 7 then v.hdr
  else
    let fmt := cvtFmt (m.toNat % 8)
    some ((v.hdr.map (fun h => { h with fmt := fmt })).getD ⟨0, fmt, false, 64, 127⟩)

/-- CVT (R250, R251): the elements of a token converted, the outputs in element order, the saturated bytes on output 1. Without a header
where FROM names none, the token goes on as it came, poisoned (log 106: DESIGN CHOICE.), and after a malformed header it records no fault
of its own (log 107: DEDUCED.). A poisoned token folds into no AMAX, of a server image either (R222). (log 108: DEDUCED.) -/
def cvtNode (m : BitVec 6) (x : NodeIn) : List Fire :=
  match x.head 0 with
  | none => []
  | some a =>
    match cvtHeader m x.st with
    | none =>
      [⟨[0], [(0, { a with poison := true })], [0, 1], [], x.st, if x.st.badHdr then none else some (a.tag, .illegal, 0x40), none⟩]
    | some h =>
      let a : Token := { a with poison := a.poison || x.st.badHdr }
      let e := (x.ext 0).toNat
      let n := min (elemsPerToken h.fmt) (h.len - x.st.seen)
      let (raw, had, _) := decodeWord h.fmt h.oxt h.scale a.payload a.valid n x.st.outl
      let vals := raw.map (fun o => o.map (applyScale (e % 256)))
      let dst := cvtFmt (m.toNat / 8 % 8)
      let outs := vals.map (fun o => o.map (convertElem dst))
      let w := elemWidth h.fmt
      let spilt (j : Nat) : List Nat := match (outs[j]?).getD none with
        | some (_, true) => (List.range ((w + 7) / 8)).map (fun b => w * j / 8 + b)
        | _ => []
      let overBytes := (List.range n).flatMap spilt
      let groups := chunksOf (elemsPerToken dst) (n + 1) (outs.map (fun o => o.map Prod.fst))
      let tok (i : Nat) (g : List (Option Nat)) : Token :=
        ⟨a.poison, a.tag, if i + 1 = groups.length then a.dim else 0, .data, (packElems dst g).1, (packElems dst g).2, 0⟩
      let toks := (List.range groups.length).map (fun i => tok i (groups.getD i []))
      let ov : List (Nat × Token) := if overBytes.isEmpty then [] else
        [(2, { a with valid := BitVec.ofNat 8 (((List.range 8).filter overBytes.contains).map (fun b => 2 ^ b)).sum })]
      let st : NodeState := if h.len ≤ x.st.seen + n then { x.st with seen := 0, outl := false } else { x.st with seen := x.st.seen + n, outl := had }
      let keeps := decide (e / 512 % 2 = 1) && elemFloat h.fmt && !a.poison && !x.poison
      let st := if keeps then keepMax x.kind (decide (e / 256 % 2 = 1)) a.tag (vals.filterMap id) st else st
      [⟨[0], (toks.take 1).map (fun t => (0, t)) ++ ov, [0, 1], (toks.drop 1).map (fun t => [(0, t)]), st, none, none⟩]

/-! ## Steering, joining and loops -/

/-- A token taken under a poisoned ctl token (R239, R252, R254). -/
def Token.under (p : Bool) (t : Token) : Token := { t with poison := t.poison || p }

/-- STEER (R252). -/
def steerNode (m : BitVec 6) (x : NodeIn) : List Fire :=
  match x.head 0 with
  | none => []
  | some a =>
    let stop := decide (1 ≤ a.dim)
    if m.getLsbD 1 then
      let out := if x.st.pos = m.toNat / 4 % 8 then 1 else 0
      [Fire.simple [0] [(out, a)] { x.st with pos := if stop then 0 else x.st.pos + 1 }]
    else
      let go (b p : Bool) (pops : List Nat) : List Fire :=
        [Fire.simple pops [(if b then 1 else 0, a.under p)]
          { x.st with open_ := if m.getLsbD 0 && !stop then some (b, p) else none }]
      match x.st.open_ with
      | some (b, p) => go b p [0]
      | none =>
        match x.head 3 with
        | none => []
        | some c => go (c.payload.getLsbD 0) c.poison [0, 3]

/-- JOIN (R253): `turn` names the port whose unit comes next, `open_` the port of a unit begun. -/
def joinNode (m : BitVec 6) (x : NodeIn) : List Fire :=
  let b := x.st.joinsB (m.getLsbD 0) x.head
  let q := if b then 1 else 0
  match x.head q with
  | none => []
  | some t =>
    let stop := decide (m.toNat / 2 % 8 ≤ t.dim)
    [Fire.simple [q] (both t)
      { x.st with open_ := if stop then none else some (b, false), turn := if stop then !b else x.st.turn }]

/-- MUX (R254). -/
def muxNode (m : BitVec 6) (x : NodeIn) : List Fire :=
  let go (b p : Bool) (ctl : List Nat) : List Fire :=
    let q := if b then 1 else 0
    match x.head q with
    | none => []
    | some t =>
      [Fire.simple (q :: ctl) (both (t.under p))
        { x.st with open_ := if m.getLsbD 0 && decide (t.dim = 0) then some (b, p) else none }]
  match x.st.open_ with
  | some (b, p) => go b p []
  | none =>
    match x.head 3 with
    | none => []
    | some c => go (c.payload.getLsbD 0) c.poison [3]

/-- RECIRC (R255, R441): the loop-back first, else an admission tested with the count before port c's token. (log 22: DEDUCED.) -/
def recircNode (x : NodeIn) : List Fire :=
  let c := (x.head 2).isSome
  let back : Int := if c then 1 else 0
  let cs : List Nat := if c then [2] else []
  let alone := if c then [Fire.simple [2] [] { x.st with count := x.st.count - 1 }] else []
  match x.head 1 with
  | some b => Fire.simple (1 :: cs) (both b) { x.st with count := x.st.count - back } :: alone
  | none =>
    match x.head 0 with
    | some a =>
      if x.st.count < ((x.ext 0).toNat : Int) then
        Fire.simple (0 :: cs) (both a) { x.st with count := x.st.count + 1 - back } :: alone
      else alone
    | none => alone

/-- A node that sends each token of port a changed (R256). -/
def passNode (f : Token → Token) (x : NodeIn) : List Fire :=
  match x.head 0 with
  | none => []
  | some a => [Fire.simple [0] (both (f a)) x.st]

/-- CONST (R256). -/
def constNode (x : NodeIn) : List Fire :=
  passNode (fun a => ⟨a.poison, a.tag, a.dim, .data, 0xFF, (x.ext 1) ++ (x.ext 0), 0⟩) x

/-- EOSX (R257). -/
def eosxNode (m : BitVec 6) (x : NodeIn) : List Fire :=
  match x.head 0 with
  | none => []
  | some a =>
    let e := endToken (if m.getLsbD 3 then .endStream else .endTile) a.tag false
    [⟨[0], [(0, a)], [0], if m.toNat % 8 ≤ a.dim then [both e] else [], x.st, none, none⟩]

/-- TAGCHK (R258). -/
def tagchkNode (m : BitVec 6) (x : NodeIn) : List Fire :=
  let go (a : Token) (ts : List Token) (pops : List Nat) (bad : Bool) : List Fire :=
    let t : Token := { a with dim := max x.dim (maxDim (a :: ts)), poison := anyPoison (a :: ts) || bad }
    [⟨pops, both t, [0, 1], [], x.st, if bad then some (a.tag, .illegal, 0x43) else none, none⟩]
  match x.head 0 with
  | none => []
  | some a =>
    if m.getLsbD 0 then
      let e := x.ext 0
      go a [] [0] (decide ((a.tag ^^^ e.extractLsb' 0 8) &&& e.extractLsb' 8 8 ≠ 0))
    else
      match x.head 1 with
      | none => []
      | some b => go a [b] [0, 1] (decide (a.tag ≠ b.tag))

/-! ## Lanes, sorting and generators -/

/-- FILTER (R259). -/
def filterNode (m : BitVec 6) (x : NodeIn) : List Fire :=
  match x.head 0, x.head 1 with
  | some a, some b =>
    let w := typeWidth m.toNat
    let lane (i : Nat) : Option Nat :=
      if laneOk w i a.valid && laneOk w i b.valid && decide (laneOf w i b.payload ≠ 0) then some (laneOf w i a.payload) else none
    let (v, p) := lanesToken w ((List.range (64 / w)).map lane)
    [Fire.simple [0, 1] (both ⟨anyPoison [a, b], a.tag, a.dim, .data, v, p, 0⟩) x.st]
  | _, _ => []

/-- The lanes of a token packed one by one (R259): the tokens that come out, and the state. `ends` is the DIM to mark; `dim`, the
largest DIM of the tokens consumed, goes to every other output (R234). -/
def coalesce (w : Nat) (a : Token) (dim : Nat) (ends : Option Nat) : List Nat → NodeState → List Token → List Token × NodeState × Bool
  | [], v, outs => (outs, v, false)
  | i :: rest, v, outs =>
    let split := !v.lanes.isEmpty && decide (v.ltag ≠ a.tag)
    let outs := if split then outs ++ [heldToken w dim v] else outs
    let v : NodeState := if split then { v with lanes := [], lpois := false } else v
    let v : NodeState := { v with
      lanes := v.lanes ++ [wordOf (laneOf w i a.payload)], ltag := a.tag, lpois := v.lpois || a.poison }
    if v.lanes.length = 64 / w then
      match rest, ends with
      | [], some d => (outs ++ [heldToken w d v], { v with lanes := [], lpois := false }, true)
      | _, _ => coalesce w a dim ends rest { v with lanes := [], lpois := false } (outs ++ [heldToken w dim v])
    else coalesce w a dim ends rest v outs

/-- COALESCE (R259). -/
def coalesceNode (m : BitVec 6) (x : NodeIn) : List Fire :=
  match x.head 0 with
  | none => []
  | some a =>
    let w := typeWidth m.toNat
    let level := m.toNat % 8
    let a := a.under x.poison
    let ends := if level ≠ 0 ∧ level ≤ a.dim then some a.dim else none
    let (outs, v, marked) := coalesce w a (max x.dim a.dim) ends ((List.range (64 / w)).filter (fun i => laneOk w i a.valid)) x.st []
    let (outs, v) := match ends with
      | some d =>
        if marked then (outs, v)
        else
          let v : NodeState := if v.lanes.isEmpty then { v with ltag := a.tag } else v
          (outs ++ [heldToken w d { v with lpois := v.lpois || a.poison }], ({ v with lanes := [], lpois := false } : NodeState))
      | none => (outs, v)
    [⟨[0], ((outs.take 1).map both).flatten, [0, 1], (outs.drop 1).map both, v, none, none⟩]

/-- The order of CMPX (R260): whole tokens first, then key, then index. -/
def cmpxKey (kind : Nat) (t : Token) : Nat × Int × Nat :=
  let k := fld t.payload 32 32
  let key : Int :=
    if kind = 0 then signedOf 32 k
    else if kind = 1 then (k : Int)
    else if (fp32.decode k).isNaN then (2 ^ 40 : Nat)
    else fp32.orderKey k
  (if t.valid = 0xFF then 0 else 1, key, fld t.payload 0 32)

/-- Whether a key is not after another. -/
def keyLe (a b : Nat × Int × Nat) : Bool :=
  decide (a.1 < b.1) || (decide (a.1 = b.1) && (decide (a.2.1 < b.2.1) || (decide (a.2.1 = b.2.1) && decide (a.2.2 ≤ b.2.2))))

/-- CMPX (R260). -/
def cmpxNode (m : BitVec 6) (x : NodeIn) : List Fire :=
  match x.head 0, x.head 1 with
  | some a, some b =>
    let k := m.toNat % 4
    let (lo, hi) := if keyLe (cmpxKey k a) (cmpxKey k b) then (a, b) else (b, a)
    let (lo, hi) := if m.getLsbD 2 then (hi, lo) else (lo, hi)
    let p := anyPoison [a, b]
    [Fire.simple [0, 1] [(0, lo.under p), (1, hi.under p)] x.st]
  | _, _ => []

/-- A generator begins (R261, R262): the first emission goes with the firing. -/
def startEmit (e : Emit) (x : NodeIn) : List Fire :=
  let (o, e') := e.next
  [Fire.simple [0] [o] { x.st with emit := e' }]

/-- LOOPGEN (R261). -/
def loopgenNode (m : BitVec 6) (x : NodeIn) : List Fire :=
  match x.head 0 with
  | none => []
  | some a =>
    let n := if a.valid = 0xFF then fld a.payload 0 32 else 0
    let start : BitVec 32 := a.payload.extractLsb' 32 32
    startEmit ⟨start.signExtend 64, (x.ext 0).signExtend 64, 0, max n 1, max (m.toNat % 8) a.dim, a.tag, a.dim, a.poison, wordOf n,
      decide (n = 0)⟩ x

/-- ADDRGEN (R262). -/
def addrgenNode (m : BitVec 6) (x : NodeIn) : List Fire :=
  match x.head 0 with
  | none => []
  | some a =>
    let whole := decide (a.valid = 0xFF)
    let n := if whole then (x.ext 0).toNat % 2 ^ 24 + 1 else 1
    let stride : BitVec 40 := (x.ext 0).extractLsb' 24 8 ++ x.ext 1
    startEmit ⟨a.payload, stride.signExtend 64, 0, n, max (min (m.toNat % 8 + 1) 7) a.dim, a.tag, a.dim, a.poison,
      if whole then wordOf n else 0, !whole⟩ x

/-! ## Memory, entry and return -/

/-- A memory node's firing (R263): its access begins; its outputs need credits (R236). -/
def accessFire (pops : List Nat) (acc : MemAcc) (st : NodeState) : List Fire := [⟨pops, [], [0, 1], [], st, none, some acc⟩]

/-- LDN (R263). -/
def ldnNode (m : BitVec 6) (x : NodeIn) : List Fire :=
  let size := 2 ^ (m.toNat % 4)
  let acc (a : Token) (ts : List Token) : MemAcc :=
    ⟨x.n.site, false, a.tag, max x.dim (maxDim ts), a.dim, a.payload, size, m.getLsbD 2, 0, 0, anyPoison ts, decide (a.valid ≠ 0xFF), 0, false⟩
  match x.head 0 with
  | none => []
  | some a =>
    if m.getLsbD 3 then
      match x.head 1 with
      | none => []
      | some w => accessFire [0, 1] (acc a [a, w]) x.st
    else accessFire [0] (acc a [a]) x.st

/-- STN (R263). -/
def stnNode (m : BitVec 6) (x : NodeIn) : List Fire :=
  let size := 2 ^ (m.toNat % 4)
  let acc (a b : Token) (ts : List Token) : MemAcc :=
    let valid := b.valid &&& lowBytes size
    ⟨x.n.site, true, a.tag, max x.dim (maxDim ts), a.dim, a.payload, size, false, b.payload, valid, anyPoison ts,
      decide (a.valid ≠ 0xFF) || decide (valid = 0), 0, false⟩
  match x.head 0, x.head 1 with
  | some a, some b =>
    if m.getLsbD 3 then
      match x.head 2 with
      | none => []
      | some w => accessFire [0, 1, 2] (acc a b [a, b, w]) x.st
    else accessFire [0, 1] (acc a b [a, b]) x.st
  | _, _ => []

/-- ENTRY (R211, R265): `pos` is the place within a server's record. -/
def entryNode (x : NodeIn) : List Fire :=
  match x.head 0 with
  | none => []
  | some a => [Fire.simple [0] (both a) { x.st with pos := if x.kind = 0 ∧ a.dim = 0 then x.st.pos + 1 else 0 }]

/-- RETURN (R265) has no operation beyond what its place does with every token. -/
def returnNode (_ : NodeIn) : List Fire := []

/-! ## Node words -/

/-- A node word (R242). -/
def nodeWord (op : Nat) (a b : BitVec 9) (m : BitVec 6) : BitVec 32 := (BitVec.ofNat 8 op ++ a ++ b) ++ m

/-- IADD (R246). -/
def execNIadd (a b : BitVec 9) (m : BitVec 6) (s : State) : Host.Outcome State Fault Refusal :=
  nodeOpAt (nodeWord 1 a b m) (intNode .add m) s

/-- ISUB (R246). -/
def execNIsub (a b : BitVec 9) (m : BitVec 6) (s : State) : Host.Outcome State Fault Refusal :=
  nodeOpAt (nodeWord 2 a b m) (intNode .sub m) s

/-- IMUL (R246). -/
def execNImul (a b : BitVec 9) (m : BitVec 6) (s : State) : Host.Outcome State Fault Refusal :=
  nodeOpAt (nodeWord 3 a b m) (intNode .mul m) s

/-- IAND (R246). -/
def execNIand (a b : BitVec 9) (m : BitVec 6) (s : State) : Host.Outcome State Fault Refusal :=
  nodeOpAt (nodeWord 4 a b m) (intNode .and m) s

/-- IOR (R246). -/
def execNIor (a b : BitVec 9) (m : BitVec 6) (s : State) : Host.Outcome State Fault Refusal :=
  nodeOpAt (nodeWord 5 a b m) (intNode .or m) s

/-- IXOR (R246). -/
def execNIxor (a b : BitVec 9) (m : BitVec 6) (s : State) : Host.Outcome State Fault Refusal :=
  nodeOpAt (nodeWord 6 a b m) (intNode .xor m) s

/-- ISHL (R246). -/
def execNIshl (a b : BitVec 9) (m : BitVec 6) (s : State) : Host.Outcome State Fault Refusal :=
  nodeOpAt (nodeWord 7 a b m) (intNode .shl m) s

/-- ISHR (R246). -/
def execNIshr (a b : BitVec 9) (m : BitVec 6) (s : State) : Host.Outcome State Fault Refusal :=
  nodeOpAt (nodeWord 8 a b m) (intNode .shr m) s

/-- ISRA (R246). -/
def execNIsra (a b : BitVec 9) (m : BitVec 6) (s : State) : Host.Outcome State Fault Refusal :=
  nodeOpAt (nodeWord 9 a b m) (intNode .sra m) s

/-- IMIN (R246). -/
def execNImin (a b : BitVec 9) (m : BitVec 6) (s : State) : Host.Outcome State Fault Refusal :=
  nodeOpAt (nodeWord 10 a b m) (intNode .min m) s

/-- IMAX (R246). -/
def execNImax (a b : BitVec 9) (m : BitVec 6) (s : State) : Host.Outcome State Fault Refusal :=
  nodeOpAt (nodeWord 11 a b m) (intNode .max m) s

/-- ICMP (R247). -/
def execNIcmp (a b : BitVec 9) (m : BitVec 6) (s : State) : Host.Outcome State Fault Refusal :=
  nodeOpAt (nodeWord 12 a b m) (icmpNode m) s

/-- FADD (R248). -/
def execNFadd (a b : BitVec 9) (m : BitVec 6) (s : State) : Host.Outcome State Fault Refusal :=
  nodeOpAt (nodeWord 16 a b m) (fltNode .add m) s

/-- FMUL (R248). -/
def execNFmul (a b : BitVec 9) (m : BitVec 6) (s : State) : Host.Outcome State Fault Refusal :=
  nodeOpAt (nodeWord 17 a b m) (fltNode .mul m) s

/-- FMA (R248). -/
def execNFma (a b : BitVec 9) (m : BitVec 6) (s : State) : Host.Outcome State Fault Refusal :=
  nodeOpAt (nodeWord 18 a b m) (fmaNode m) s

/-- FMAX (R248). -/
def execNFmax (a b : BitVec 9) (m : BitVec 6) (s : State) : Host.Outcome State Fault Refusal :=
  nodeOpAt (nodeWord 19 a b m) (fltNode .max m) s

/-- FMIN (R248). -/
def execNFmin (a b : BitVec 9) (m : BitVec 6) (s : State) : Host.Outcome State Fault Refusal :=
  nodeOpAt (nodeWord 20 a b m) (fltNode .min m) s

/-- EXP2 (R249). -/
def execNExp2 (a b : BitVec 9) (m : BitVec 6) (s : State) : Host.Outcome State Fault Refusal :=
  nodeOpAt (nodeWord 24 a b m) (approxNode fExp2 m) s

/-- LOG2 (R249). -/
def execNLog2 (a b : BitVec 9) (m : BitVec 6) (s : State) : Host.Outcome State Fault Refusal :=
  nodeOpAt (nodeWord 25 a b m) (approxNode fLog2 m) s

/-- RCP (R249). -/
def execNRcp (a b : BitVec 9) (m : BitVec 6) (s : State) : Host.Outcome State Fault Refusal :=
  nodeOpAt (nodeWord 26 a b m) (approxNode fRcp m) s

/-- RSQ (R249). -/
def execNRsq (a b : BitVec 9) (m : BitVec 6) (s : State) : Host.Outcome State Fault Refusal :=
  nodeOpAt (nodeWord 27 a b m) (approxNode fRsq m) s

/-- CVT (R250, R251). -/
def execNCvt (a b : BitVec 9) (m : BitVec 6) (s : State) : Host.Outcome State Fault Refusal :=
  nodeOpAt (nodeWord 28 a b m) (cvtNode m) s

/-- STEER (R252). -/
def execNSteer (a b : BitVec 9) (m : BitVec 6) (s : State) : Host.Outcome State Fault Refusal :=
  nodeOpAt (nodeWord 32 a b m) (steerNode m) s

/-- JOIN (R253). -/
def execNJoin (a b : BitVec 9) (m : BitVec 6) (s : State) : Host.Outcome State Fault Refusal :=
  nodeOpAt (nodeWord 33 a b m) (joinNode m) s

/-- MUX (R254). -/
def execNMux (a b : BitVec 9) (m : BitVec 6) (s : State) : Host.Outcome State Fault Refusal :=
  nodeOpAt (nodeWord 34 a b m) (muxNode m) s

/-- RECIRC (R255). -/
def execNRecirc (a b : BitVec 9) (s : State) : Host.Outcome State Fault Refusal :=
  nodeOpAt (nodeWord 35 a b 0) (recircNode) s

/-- EOSX (R257). -/
def execNEosx (a b : BitVec 9) (m : BitVec 6) (s : State) : Host.Outcome State Fault Refusal :=
  nodeOpAt (nodeWord 36 a b m) (eosxNode m) s

/-- DUP (R256). -/
def execNDup (a b : BitVec 9) (s : State) : Host.Outcome State Fault Refusal :=
  nodeOpAt (nodeWord 37 a b 0) (passNode id) s

/-- DELAY (R256). -/
def execNDelay (a b : BitVec 9) (s : State) : Host.Outcome State Fault Refusal :=
  nodeOpAt (nodeWord 38 a b 0) (passNode id) s

/-- CONST (R256). -/
def execNConst (a b : BitVec 9) (s : State) : Host.Outcome State Fault Refusal :=
  nodeOpAt (nodeWord 39 a b 0) (constNode) s

/-- TAGCHK (R258). -/
def execNTagchk (a b : BitVec 9) (m : BitVec 6) (s : State) : Host.Outcome State Fault Refusal :=
  nodeOpAt (nodeWord 40 a b m) (tagchkNode m) s

/-- FILTER (R259). -/
def execNFilter (a b : BitVec 9) (m : BitVec 6) (s : State) : Host.Outcome State Fault Refusal :=
  nodeOpAt (nodeWord 41 a b m) (filterNode m) s

/-- COALESCE (R259). -/
def execNCoalesce (a b : BitVec 9) (m : BitVec 6) (s : State) : Host.Outcome State Fault Refusal :=
  nodeOpAt (nodeWord 42 a b m) (coalesceNode m) s

/-- CMPX (R260). -/
def execNCmpx (a b : BitVec 9) (m : BitVec 6) (s : State) : Host.Outcome State Fault Refusal :=
  nodeOpAt (nodeWord 43 a b m) (cmpxNode m) s

/-- LOOPGEN (R261). -/
def execNLoopgen (a b : BitVec 9) (m : BitVec 6) (s : State) : Host.Outcome State Fault Refusal :=
  nodeOpAt (nodeWord 48 a b m) (loopgenNode m) s

/-- ADDRGEN (R262). -/
def execNAddrgen (a b : BitVec 9) (m : BitVec 6) (s : State) : Host.Outcome State Fault Refusal :=
  nodeOpAt (nodeWord 49 a b m) (addrgenNode m) s

/-- LDN (R263). -/
def execNLdn (a b : BitVec 9) (m : BitVec 6) (s : State) : Host.Outcome State Fault Refusal :=
  nodeOpAt (nodeWord 56 a b m) (ldnNode m) s

/-- STN (R263). -/
def execNStn (a b : BitVec 9) (m : BitVec 6) (s : State) : Host.Outcome State Fault Refusal :=
  nodeOpAt (nodeWord 57 a b m) (stnNode m) s

/-- ENTRY (R265). -/
def execNEntry (a b : BitVec 9) (s : State) : Host.Outcome State Fault Refusal :=
  nodeOpAt (nodeWord 62 a b 0) (entryNode) s

/-- RETURN (R265). -/
def execNReturn (a b : BitVec 9) (s : State) : Host.Outcome State Fault Refusal :=
  nodeOpAt (nodeWord 63 a b 0) (returnNode) s

/-- The operation of a node word by its opcode (R245); none for a reserved one. -/
def nodeFn (w : BitVec 32) : Option NodeFn :=
  let m := nodeMod w
  let op := nodeOp w
  if op = 1 then some (intNode .add m)
  else if op = 2 then some (intNode .sub m)
  else if op = 3 then some (intNode .mul m)
  else if op = 4 then some (intNode .and m)
  else if op = 5 then some (intNode .or m)
  else if op = 6 then some (intNode .xor m)
  else if op = 7 then some (intNode .shl m)
  else if op = 8 then some (intNode .shr m)
  else if op = 9 then some (intNode .sra m)
  else if op = 10 then some (intNode .min m)
  else if op = 11 then some (intNode .max m)
  else if op = 12 then some (icmpNode m)
  else if op = 16 then some (fltNode .add m)
  else if op = 17 then some (fltNode .mul m)
  else if op = 18 then some (fmaNode m)
  else if op = 19 then some (fltNode .max m)
  else if op = 20 then some (fltNode .min m)
  else if op = 24 then some (approxNode fExp2 m)
  else if op = 25 then some (approxNode fLog2 m)
  else if op = 26 then some (approxNode fRcp m)
  else if op = 27 then some (approxNode fRsq m)
  else if op = 28 then some (cvtNode m)
  else if op = 32 then some (steerNode m)
  else if op = 33 then some (joinNode m)
  else if op = 34 then some (muxNode m)
  else if op = 35 then some (recircNode)
  else if op = 36 then some (eosxNode m)
  else if op = 37 then some (passNode id)
  else if op = 38 then some (passNode id)
  else if op = 39 then some (constNode)
  else if op = 40 then some (tagchkNode m)
  else if op = 41 then some (filterNode m)
  else if op = 42 then some (coalesceNode m)
  else if op = 43 then some (cmpxNode m)
  else if op = 48 then some (loopgenNode m)
  else if op = 49 then some (addrgenNode m)
  else if op = 56 then some (ldnNode m)
  else if op = 57 then some (stnNode m)
  else if op = 62 then some (entryNode)
  else if op = 63 then some (returnNode)
  else none

end Sys2Proof.Machine
end

