-- ==== Sys2Proof/Machine/Serve.lean ====
section
/-! DEFINITION. Server calls and the hearth, memory-node accesses, returns, and the swap of planes
(R205 to R227, R263, R282, R286 to R289, R379, R410, R438). -/

namespace Sys2Proof.Machine

/-! ## The hearth -/

/-- Blocks of the hearth, blocks that pinned images may take, and the greatest image (R205, R208). -/
def hearthBlocks : Nat := 256
def pinnedBlocks : Nat := 192
def greatestImage : Nat := 262144

/-- The 4 KiB blocks of an image (R205). -/
def Image.blocks (i : Image) : Nat := (i.bytes.length + 4095) / 4096

def Image.named (asid : BitVec 12) (addr : Word) (i : Image) : Bool := decide (i.asid = asid ∧ i.addr = addr)

def Spire.image (sp : Spire) (asid : BitVec 12) (addr : Word) : Option Image := sp.hearth.find? (Image.named asid addr)

def blocksOf (is : List Image) : Nat := (is.map Image.blocks).sum

/-- An image of the hearth changed. -/
def Spire.mapImage (asid : BitVec 12) (addr : Word) (f : Image → Image) (sp : Spire) : Spire :=
  { sp with hearth := sp.hearth.map (fun i => if i.named asid addr then f i else i) }

/-- When an image was last named (R207, R208): never, where nothing has named it. -/
def Spire.naming (sp : Spire) (asid : BitVec 12) (addr : Word) : Naming :=
  (sp.named.find? (fun e => decide (e.asid = asid ∧ e.addr = addr))).getD ⟨asid, addr, 0, 0⟩

/-- An image used, by a call or otherwise (R207, R208). -/
def Spire.useImage (asid : BitVec 12) (addr : Word) (call : Bool) (sp : Spire) : Spire :=
  let n := sp.uses + 1
  let e : Naming := ⟨asid, addr, n, if call then n else (sp.naming asid addr).called⟩
  { sp with uses := n, named := e :: sp.named.filter (fun e => decide (¬(e.asid = asid ∧ e.addr = addr))) }

/-- The count at which an image of the hearth was last used (R208). -/
def Spire.usedAt (sp : Spire) (i : Image) : Nat := (sp.naming i.asid i.addr).used

/-- The least recently used image that is not pinned (R208). -/
def leastUsed (used : Image → Nat) (is : List Image) : Option Image :=
  is.foldl (fun best i =>
    if i.pins ≠ 0 then best
    else
      match best with
      | none => some i
      | some b => if used i < used b then some i else some b) none

/-- Whole images evicted until `need` blocks are free (R208). -/
def evictFor (used : Image → Nat) (need : Nat) : Nat → List Image → List Image
  | 0, is => is
  | fuel + 1, is =>
    if blocksOf is + need ≤ hearthBlocks then is
    else
      match leastUsed used is with
      | none => is
      | some v => evictFor used need fuel (is.filter (fun i => decide (i ≠ v)))

/-- An image enters the hearth, which is no use of it (R208). -/
def Spire.insertImage (i : Image) (sp : Spire) : Spire :=
  { sp with hearth := evictFor sp.usedAt i.blocks (sp.hearth.length + 1) sp.hearth ++ [i] }

/-- The server regions of a spire (R206). -/
def Spire.pool (sp : Spire) : List (Nat × Region) := sp.regions.filter (fun e => decide (e.2.kind = 0))

/-- The region that holds an image (R206). -/
def Spire.holder (sp : Spire) (asid : BitVec 12) (addr : Word) : Option (Nat × Region) :=
  sp.pool.find? (fun e => decide (e.2.st ≠ .empty ∧ e.2.imgAsid = asid ∧ e.2.imgAddr = addr))

/-- The region in which an image is PLACED. -/
def Spire.placed (sp : Spire) (asid : BitVec 12) (addr : Word) : Option (Nat × Region) :=
  (sp.holder asid addr).filter (fun e => decide (e.2.st = .placed))

/-- The pin count of an image. -/
def Spire.pins (sp : Spire) (asid : BitVec 12) (addr : Word) : Nat := ((sp.image asid addr).map Image.pins).getD 0

/-- Whether a region may be taken from its image (R207): a caller counts as waiting at the entry port from its SRV on, its earlier
accesses performed or not. (log 110: DEDUCED.) -/
def Spire.reclaimable (sp : Spire) (r : Region) : Bool :=
  decide (r.st = .placed) && r.flights.isEmpty && r.waiting.isEmpty && r.reserved.isNone
    && decide (sp.pins r.imgAsid r.imgAddr = 0)

/-- The region for an image of a shape: an EMPTY one, else the reclaimable one whose image was least recently called (R207, R214). -/
def Spire.pick (sp : Spire) (rows cols : Nat) : Option Nat :=
  let called (r : Region) : Nat := (sp.naming r.imgAsid r.imgAddr).called
  let fit := sp.pool.filter (fun e => decide (e.2.rows = rows ∧ e.2.cols = cols))
  match fit.find? (fun e => decide (e.2.st = .empty)) with
  | some e => some e.1
  | none =>
    ((fit.filter (fun e => sp.reclaimable e.2)).foldl (fun (best : Option (Nat × Region)) e =>
      match best with
      | none => some e
      | some b => if called e.2 < called b.2 then some e else some b) none).map Prod.fst

/-! ## Calls -/

/-- SRV_POISON of a call that was never sent (R219). -/
def State.noSend (t : Nat) (f : Flt) (s : State) : State := s.poisonAt t (poisonSub true f.cause f.sub) f.val 0

/-- Whether a record with a tag is in flight in a spire (R213). -/
def Spire.tagBusy (tag : BitVec 8) (sp : Spire) : Bool :=
  sp.regions.any (fun e => e.2.flights.any (fun f => decide (f.tag = tag)))

/-- The place of a caller at an entry port in the order of issue (R211). -/
def State.callSeq (s : State) (t : Nat) : Nat :=
  match (s.slot t).park with
  | some ⟨_, .port _ c, _, _, _⟩ => c.seq
  | _ => 0

/-- A caller stands at an entry port behind those that issued earlier (R211). -/
def State.portIn (s : State) (t seq : Nat) (ts : List Nat) : List Nat :=
  ts.takeWhile (fun u => decide (s.callSeq u ≤ seq)) ++ t :: ts.dropWhile (fun u => decide (s.callSeq u ≤ seq))

/-- A caller parks at the entry port of the region that holds its image (R210), ENGINE while a record with its tag is in flight (R213),
unless the shapes differ: it then traps, and a placement reserved for it is free again (R214). -/
def State.joinPort (g n t : Nat) (c : CallReq) (s : State) : State :=
  match s.region g n with
  | none => s
  | some r =>
    let shape := (r.active.map (fun p => (p.nargs, p.nrets))).getD (0, 0)
    if shape ≠ (c.nargs, c.nrets) then
      (s.setRegion g n { r with reserved := if r.reserved = some t then none else r.reserved }).noSend t ⟨.shape, 0, 0⟩
    else
      (s.setRegion g n { r with waiting := s.portIn t c.seq r.waiting }).parkAt t
        (if (s.spire g).tagBusy (tidTag t) then .engine else .srv) (.port n c)

/-- A waiting call goes on to the region that now holds its image (R214). -/
def State.callGoes (g n : Nat) (s : State) (p : Place) : State :=
  match p.tid with
  | none => s
  | some t =>
    match (s.slot t).park with
    | some ⟨_, .hearth c, _, _, _⟩ => s.joinPort g n t c
    | _ => s

def Place.named (asid : BitVec 12) (addr : Word) (p : Place) : Bool := decide (p.asid = asid ∧ p.addr = addr)

/-- Every waiting call of an image goes on (R214). -/
def State.callsGo (g n : Nat) (asid : BitVec 12) (addr : Word) (s : State) : State :=
  let sp := s.spire g
  let s := s.setSpire g { sp with places := sp.places.filter (fun p => !p.named asid addr) }
  (sp.places.filter (Place.named asid addr)).foldl (State.callGoes g n) s

/-- A load or placement that fails: every waiting call of the image traps, a CFGLD's is abandoned (R215, R219, R224).
(log 26: DEDUCED.) -/
def State.callsFail (g : Nat) (asid : BitVec 12) (addr : Word) (f : Flt) (s : State) : State :=
  let sp := s.spire g
  let s := s.setSpire g { sp with places := sp.places.filter (fun p => !p.named asid addr) }
  (sp.places.filter (Place.named asid addr)).foldl (fun s p =>
    match p.tid with
    | some t => s.noSend t f
    | none => s) s

/-- What reading an image gives (R214, R219). -/
inductive ImageRead where
  | ok (bytes : List Byte)
  | held
  | fault (f : Flt)
  deriving DecidableEq, Repr

/-- The rights of a call. -/
def Place.ctx (p : Place) (g : Nat) : Ctx := ⟨g, p.asid, p.ptbr, p.kwin, p.prv⟩

/-- What a read that did not pass leaves. -/
def Verdict.asRead : Verdict → ImageRead
  | .fault f => .fault f
  | _ => .held

/-- An image read from memory as loads, its header first (R214, R219). (log 30: DESIGN CHOICE.) -/
def State.readImage (c : Ctx) (addr : Word) (s : State) : State × ImageRead :=
  let (s, h) := s.engineRead c addr 64 true
  match h with
  | .error v => (s, v.asRead)
  | .ok head =>
    let total := imageTotal head
    if greatestImage < total then (s, .fault ⟨.shape, 3, 0⟩)
    else if total < 64 then (s, .fault ⟨.illegal, 0x41, 0⟩)
    else
      let (s, b) := s.engineRead c addr total true
      match b with
      | .error v => (s, v.asRead)
      | .ok bytes =>
        match parseImage bytes with
        | some p => if p.kind = 0 then (s, .ok bytes) else (s, .fault ⟨.illegal, 0x41, 0⟩)
        | none => (s, .fault ⟨.illegal, 0x41, 0⟩)

/-- A plane is loaded into a region (R206, R230, R251): it holds that configuration alone, as after a load. -/
def State.loadPlane (g n : Nat) (p : Plane) (f : Region → Region) (s : State) : State :=
  match s.region g n with
  | none => s
  | some r =>
    s.setRegion g n (f { r.clear with st := .placed, active := some p })

/-- A region passes to LOADING (R206, R214, R269): what it receives stands in its shadow plane until it is PLACED, and it is
reserved for the call or the command that it is placed for. -/
def Region.receive (p : Plane) (asid : BitVec 12) (addr : Word) (reserved : Option Nat) (r : Region) : Region :=
  { r.clear with st := .loading, shadow := some p, imgAsid := asid, imgAddr := addr, reserved := reserved }

/-- The placement of a LOADING region ends (R214): it is PLACED, and every waiting call of its image goes on.
(log 28: DESIGN CHOICE.) -/
def State.placeImage (g n : Nat) (r : Region) (s : State) : State :=
  match r.shadow with
  | some plane => (s.loadPlane g n plane (fun x => { x with reserved := r.reserved })).callsGo g n r.imgAsid r.imgAddr
  | none => s

/-- What serving one call of the placement queue comes to. -/
inductive Served where
  /-- The call was served or failed: the queue has been served once. -/
  | done (s : State)
  /-- No region of its shape is free: calls of other shapes may be served. -/
  | blocked (s : State) (rows cols : Nat)
  /-- Its image is in a LOADING or CLOSING region. -/
  | waits

/-- A call whose image is in the hearth (R214, R215). -/
def State.serveWith (g n : Nat) (p : Place) (bytes : List Byte) (blocked : List (Nat × Nat)) (s : State) : Served :=
  match parseImage bytes with
  | none => .done (s.callsFail g p.asid p.addr ⟨.illegal, 0x41, 0⟩)
  | some plane =>
    if plane.kind ≠ 0 then .done (s.callsFail g p.asid p.addr ⟨.illegal, 0x41, 0⟩)
    else if (s.spire g).pool.all (fun e => decide (¬(e.2.rows = plane.rows ∧ e.2.cols = plane.cols))) then
      .done (s.callsFail g p.asid p.addr ⟨.shape, 2, 0⟩)
    else if blocked.contains (plane.rows, plane.cols) then .blocked s plane.rows plane.cols
    else
      match (s.spire g).pick plane.rows plane.cols with
      | none => .blocked s plane.rows plane.cols
      | some k =>
        match (if k = n then s.region g n else none) with
        | some r => .done ((s.setRegion g n (r.receive plane p.asid p.addr p.tid)).turnIntervals g r true)
        | none => .done s

/-- One call of the placement queue (R214). -/
def State.serveCall (g n : Nat) (p : Place) (blocked : List (Nat × Nat)) (s : State) : Served :=
  let sp := s.spire g
  match sp.holder p.asid p.addr with
  | some (k, r) => if r.st = .placed then .done (s.callsGo g k p.asid p.addr) else .waits
  | none =>
    match sp.image p.asid p.addr with
    | some i => s.serveWith g n p i.bytes blocked
    | none =>
      let (s, r) := s.readImage (p.ctx g) p.addr
      match r with
      | .held => .done s
      | .fault f => .done (s.callsFail g p.asid p.addr f)
      | .ok bytes => (s.setSpire g ((s.spire g).insertImage ⟨p.asid, p.addr, bytes, 0⟩)).serveWith g n p bytes blocked

/-- The placement queue served from its head (R214). -/
def State.servePlaces (g n : Nat) : List Place → List (Nat × Nat) → State → State
  | [], _, s => s
  | p :: rest, blocked, s =>
    match s.serveCall g n p blocked with
    | .done s => s
    | .blocked s rows cols => State.servePlaces g n rest ((rows, cols) :: blocked) s
    | .waits => State.servePlaces g n rest blocked s

/-- HEARTH_PLACE: a LOADING server region becomes PLACED; into any other the hearth begins to place the image of the first call of
its placement queue that it can serve there; a spire without the region serves its queue too (R214, R215, R219). -/
def execEvHearthPlace (spire region : Nat) (s : State) : Host.Outcome State Fault Refusal :=
  match s.region spire region with
  | none => .next (s.servePlaces spire region (s.spire spire).places [])
  | some r =>
    if r.kind = 0 ∧ r.st = .loading then .next (s.placeImage spire region r)
    else .next (s.servePlaces spire region (s.spire spire).places [])

/-- Whether the record of a caller parked at an entry port is there: its earlier accesses are performed (R210), and none of its tag is
in flight (R213). -/
def State.atPort (s : State) (t : Nat) : Bool :=
  (s.slot t).queue.isEmpty && (s.slot t).park.any (fun k => decide (k.reason = .srv))

/-- How an instruction of the family names an image (R207, R208): as a call, by CFGLD, CFGPIN or SRVQ, or without a use. -/
inductive Use where
  | call | other | none
  deriving DecidableEq, Repr

/-- The operand check of the family (R210, R223, R224): a misaligned image address traps ALIGN; the image is used. -/
def State.onImage (a : Reg) (use : Use) (go : Word → State → State) (s : State) : State :=
  let addr := s.getX a
  if addr.toNat % 256 ≠ 0 then s.trap .align 1 addr
  else
    let g := tidSpire s.tid
    go addr (if use = .none then s else s.setSpire g ((s.spire g).useImage s.thr.asid addr (decide (use = .call))))

/-- The call that the executing thread issues now, its image just named. -/
def State.newCall (s : State) (addr : Word) (n r : BitVec 3) : CallReq :=
  ⟨addr, n.toNat + 1, r.toNat + 1, s.thr.args.take (n.toNat + 1), (s.spire (tidSpire s.tid)).uses⟩

/-- A call whose tag is free goes on (R210): to the region that holds its image, else to the placement queue (R214). -/
def State.callOn (g t : Nat) (c : CallReq) (s : State) : State :=
  let v := s.slot t
  match (s.spire g).placed v.asid c.addr with
  | some (n, _) => s.joinPort g n t c
  | none => (s.queueCall g v c.addr (some t) c.seq).parkAt t .engine (.hearth c)

/-- SRV (R210, R213). -/
def execSrv (g : Guard) (a : Reg) (n r : BitVec 3) (s : State) : Host.Outcome State Fault Refusal :=
  guarded g (fun s => s.onImage a .call (fun addr s =>
    let c := s.newCall addr n r
    if (s.spire (tidSpire s.tid)).tagBusy (tidTag s.tid) then s.park .engine (.held c)
    else s.callOn (tidSpire s.tid) s.tid c)) s

/-- SRVNW (R216): decided as it issues. (log 19: DEDUCED.) -/
def execSrvnw (g : Guard) (p : PReg) (a : Reg) (n r : BitVec 3) (s : State) : Host.Outcome State Fault Refusal :=
  guarded g (fun s => s.onImage a .call (fun addr s =>
    match (s.spire (tidSpire s.tid)).placed s.thr.asid addr with
    | none => s.retP p false
    | some (k, reg) =>
      let c := s.newCall addr n r
      let fits := decide ((reg.active.map (fun q => (q.nargs, q.nrets))).getD (0, 0) = (c.nargs, c.nrets))
      (if fits then s.wp p true else s).joinPort (tidSpire s.tid) k s.tid c)) s

/-- SRVQ's word (R223): a caller counts as waiting at the entry port once its record is there, its earlier accesses performed
(R210); a placement is under way from the moment that a call or a CFGLD waits for it. (log 111: DEDUCED.) -/
def State.srvStatus (s : State) (g : Nat) (asid : BitVec 12) (addr : Word) : Word :=
  let sp := s.spire g
  let hearth := bit (sp.image asid addr).isSome
  let loading := sp.places.any (Place.named asid addr) || (sp.holder asid addr).any (fun e => decide (e.2.st = .loading))
  let tail := atBit (sp.pins asid addr) 8 + atBit (bit loading) 2 + hearth
  match (sp.holder asid addr).filter (fun e => decide (e.2.st ≠ .loading)) with
  | some (n, r) =>
    wordOf (atBit n 24 + atBit (min 255 (r.flights.length + (r.waiting.filter s.atPort).length)) 16
      + atBit (bit (decide (r.st = .closing))) 3 + atBit (bit (decide (r.st = .placed))) 1 + tail)
  | none => wordOf tail

/-- SRVQ (R223). -/
def execSrvq (g : Guard) (d a : Reg) (s : State) : Host.Outcome State Fault Refusal :=
  guarded g (fun s => s.onImage a .other (fun addr s => s.retX d (s.srvStatus (tidSpire s.tid) s.thr.asid addr))) s

/-- CFGLD (R224). -/
def execCfgld (g : Guard) (d a : Reg) (s : State) : Host.Outcome State Fault Refusal :=
  guarded g (fun s => s.onImage a .other (fun addr s =>
    if ((s.spire (tidSpire s.tid)).placed s.thr.asid addr).isSome then s.retX d 0
    else (s.queueCall (tidSpire s.tid) s.thr addr none (s.spire (tidSpire s.tid)).uses).retX d 1)) s

/-- What pinning an image answers, and the spire after it (R224). -/
def Spire.pin (asid : BitVec 12) (addr : Word) (sp : Spire) : Nat × Spire :=
  match sp.image asid addr with
  | none => (2, sp)
  | some i =>
    if i.pins = 255 then (3, sp)
    else if i.pins = 0 ∧ pinnedBlocks < blocksOf (sp.hearth.filter (fun j => decide (j.pins ≠ 0))) + i.blocks then (2, sp)
    else (0, sp.mapImage asid addr (fun j => { j with pins := j.pins + 1 }))

/-- What unpinning an image answers, and the spire after it (R224). -/
def Spire.unpin (asid : BitVec 12) (addr : Word) (sp : Spire) : Nat × Spire :=
  if sp.pins asid addr = 0 then (1, sp) else (0, sp.mapImage asid addr (fun j => { j with pins := j.pins - 1 }))

/-- CFGPIN (R224). -/
def execCfgpin (g : Guard) (d a : Reg) (s : State) : Host.Outcome State Fault Refusal :=
  guarded g (fun s => s.onImage a .other (fun addr s =>
    let h := tidSpire s.tid
    let (st, sp) := (s.spire h).pin s.thr.asid addr
    (s.setSpire h sp).retX d (wordOf st))) s

/-- CFGUNPIN (R224). -/
def execCfgunpin (g : Guard) (d a : Reg) (s : State) : Host.Outcome State Fault Refusal :=
  guarded g (fun s => s.onImage a .none (fun addr s =>
    let h := tidSpire s.tid
    let (st, sp) := (s.spire h).unpin s.thr.asid addr
    (s.setSpire h sp).retX d (wordOf st))) s

/-- A region closes (R224): records already at its entry port stay; calls not yet at it wait for a fresh placement. -/
def State.closeRegion (g n : Nat) (s : State) : State :=
  match s.region g n with
  | none => s
  | some r =>
    let at_ := r.waiting.filter s.atPort
    let later := r.waiting.filter (fun t => !s.atPort t)
    let s := s.setRegion g n { r with st := .closing, reserved := none, waiting := at_ }
    later.foldl (fun s t => s.backToQueue g t) s

/-- CFGEV (R224): a PLACED region closes, a LOADING one gives its placement up. (log 25: DESIGN CHOICE.) -/
def execCfgev (g : Guard) (d a : Reg) (s : State) : Host.Outcome State Fault Refusal :=
  guarded g (fun s => s.onImage a .none (fun addr s =>
    let h := tidSpire s.tid
    let sp := s.spire h
    let asid := s.thr.asid
    if sp.pins asid addr ≠ 0 then s.retX d 2
    else if (sp.image asid addr).isNone && (sp.placed asid addr).isNone then s.retX d 1
    else
      let s := s.setSpire h { sp with hearth := sp.hearth.filter (fun i => !i.named asid addr) }
      (match sp.holder asid addr with
        | some (n, r) =>
          if r.st = RState.placed then s.closeRegion h n
          else if r.st = RState.loading then s.setRegion h n r.clear
          else s
        | none => s).retX d 0)) s

/-- REGION_CLOSED: the last record of a CLOSING region has returned and the region becomes EMPTY (R224). -/
def execEvRegionClosed (spire region : Nat) (s : State) : Host.Outcome State Fault Refusal :=
  match s.region spire region with
  | none => .next s
  | some r =>
    if r.kind = 0 ∧ r.st = .closing ∧ r.flights = [] ∧ r.waiting = [] ∧ r.accs = [] then
      .next (s.setRegion spire region r.clear)
    else .next s

/-! ## Records -/

/-- The ENTRY node of a server. -/
def Plane.entryNode (p : Plane) : Option PNode := p.nodes.find? (fun n => decide (nodeOp n.word = 0x3E))

/-- The tokens of a record (R211). -/
def recordTokens (tag : BitVec 8) (args : List Word) : List Token :=
  (List.range args.length).map (fun i => ⟨false, tag, if i + 1 = args.length then 1 else 0, .data, 0xFF, args.getD i 0, 0⟩)

/-- The caller whose record is next at the entry port: the first whose earlier accesses are performed (R210, R211). -/
def State.nextCaller (s : State) (r : Region) : Option Nat := r.waiting.find? s.atPort

/-- RECORD_ENTRY: the record of a caller enters its region whole (R210, R211, R213, R217, R282, R380, R411). -/
def execEvRecordEntry (spire region tid : Nat) (s : State) : Host.Outcome State Fault Refusal :=
  match s.region spire region with
  | none => .next s
  | some r =>
    match (s.slot tid).park, r.active.bind Plane.entryNode with
    | some ⟨_, .port _ c, _, _, _⟩, some n =>
      let tag := tidTag tid
      let ready := decide (s.nextCaller r = some tid) && (decide (r.st = .placed) || decide (r.st = .closing)) && !r.halt
        && decide (r.cut.state ≠ 3) && !(s.spire spire).tagBusy tag
        && decide ((r.tokens n.outside).length + c.args.length ≤ portDepth)
      if !ready then .next s
      else
        let v := s.slot tid
        let s := if r.stitched spire then s.releaseAt spire .die else s
        let s := s.mapRegion spire region (fun r => { r with
          waiting := r.waiting.filter (fun t => decide (t ≠ tid))
          reserved := if r.reserved = some tid then none else r.reserved
          flights := r.flights ++ [⟨tag, tid, v.gen, c.nrets, v.asid, v.ptbr, v.kwin, v.prv⟩] })
        let s := (recordTokens tag c.args).foldl (fun s t => s.enterPort spire region n.outside t) s
        .next (s.reparkAt tid (.flight region c.nrets))
    | _, _ => .next s

/-- The places from which a path of edges leads into a memory slot, given those found so far (R212, R264). -/
def Plane.feedersFrom (p : Plane) : Nat → List Site → List Site
  | 0, found => found
  | fuel + 1, found =>
    let into (n : PNode) : Bool := [0, 1].any (fun o => match p.edge n o with
      | some (_, .port q) => found.contains q.site
      | _ => false)
    p.feedersFrom fuel (found ++ ((p.nodes.filter (fun n => !found.contains n.site && into n)).map PNode.site))

def Plane.feeders (p : Plane) : List Site :=
  p.feedersFrom p.nodes.length ((p.nodes.filter (fun n => decide (1 ≤ n.site.unit ∧ n.site.unit ≤ 4))).map PNode.site)

/-- Whether a node holds something of a tag that it has still to send. -/
def NodeState.holds (tag : BitVec 8) (v : NodeState) : Bool :=
  (v.emit.map (fun e => decide (e.tag = tag))).getD false || (!v.lanes.isEmpty && decide (v.ltag = tag))
    || v.pend.any (fun b => b.any (fun x => decide (x.2.tag = tag)))

/-- Whether data of a record has still to reach a memory slot (R212). -/
def Region.owesAccess (tag : BitVec 8) (r : Region) : Bool :=
  let at_ := (r.active.map Plane.feeders).getD []
  r.queues.any (fun q => at_.contains q.1.site && q.2.any (fun t => decide (t.kind = .data) && decide (t.tag = tag)))
    || r.nodes.any (fun e => at_.contains e.1.1 && e.2.holds tag)

/-- What a placed node does when its place fires. -/
def State.fireAt (g n : Nat) (node : PNode) (s : State) : State :=
  match nodeFn node.word with
  | some fn => s.fireNode g n node.site node.arm node.word fn
  | none => s

/-- The nodes of the planes that a region's places serve. -/
def Region.liveNodes (r : Region) : List PNode :=
  let of (p : Option Plane) (sh : Bool) : List PNode :=
    (p.map (fun q => q.nodes.filter (fun n => decide (r.inShadow n.site = sh)))).getD []
  of r.active false ++ (if r.st = .swapping then of r.shadow true else [])

/-- Whether nothing of a region can move: no access and no token is under way and no node can fire. -/
def State.stuck (s : State) (g n : Nat) (r : Region) : Bool :=
  r.accs.isEmpty && r.queues.all (fun q => q.2.all (fun t => decide (t.due ≤ r.clock)))
    && r.liveNodes.all (fun m => decide (s.fireAt g n m = s))

/-- A record's tokens at the return port up to its closing one, once it is there (R212). -/
def closedReturn (ts : List Token) : Option (List Token) :=
  match lfind (fun t => decide (1 ≤ t.dim)) ts with
  | some i => some (ts.take (i + 1))
  | none => none

/-- What a complete return carries (R212, R218, R239). (log 77: DEDUCED.) A wrong number of tokens goes before their poison.
(log 112: DEDUCED.) -/
def Region.verdict (n : Nat) (f : Flight) (ts : List Token) (r : Region) : Ret :=
  match r.faults.find? (fun e => decide (e.tag = f.tag)) with
  | some e => .poison (poisonSub false e.cause e.sub) e.val e.tnode
  | none =>
    if ts.length ≠ f.nrets then
      .poison (poisonSub false .shape 1) 0
        (((r.active.bind (fun p => p.nodes.find? (fun m => decide (nodeOp m.word = 0x3F)))).map (fun m => m.tnode n)).getD 0)
    else if ts.any Token.poison then .poison (poisonSub false .illegal 0x44) 0 (tnodeWord n 0 0 0 0 0)
    else .values (ts.map Token.payload)

/-- The candidates of a tag committed or discarded at every CVT (R222). -/
def Region.settleMax (tag : BitVec 8) (ok : Bool) (r : Region) : Region :=
  let prop (k : Site × Nat) : Bool :=
    (r.active.bind (fun p => p.nodes.find? (fun m => decide ((m.site, m.arm) = k)))).any (fun m =>
      ((m.exts.head?).getD 0).getLsbD 8)
  { r with nodes := r.nodes.map (fun e =>
      if e.2.cands.any (fun c => decide (c.1 = tag)) then
        let v := if ok then commitMax (prop e.1) (candOf tag e.2.cands) e.2 else e.2
        (e.1, { v with cands := v.cands.filter (fun c => decide (c.1 ≠ tag)) })
      else e) }

/-- A record returns (R212, R222, R226). -/
def State.recordReturns (g n : Nat) (f : Flight) (ret : Ret) (s : State) : State :=
  let ok := match ret with
    | .values _ => true
    | .poison _ _ _ => false
  (s.mapRegion g n (fun r => { r.settleMax f.tag ok with
    flights := r.flights.filter (fun e => decide (e ≠ f))
    rets := r.rets.filter (fun e => decide (e.1 ≠ f.tag))
    faults := r.faults.filter (fun e => decide (e.tag ≠ f.tag)) })).deliverRet g n f ret

/-- RETURN_DELIVERY: the complete return of a caller's record is delivered once every access made for it is performed (R212); from a
region with memory slots in other spires, before the caller's later accesses at DIE scope (R217, R282). -/
def execEvReturnDelivery (spire region tid : Nat) (s : State) : Host.Outcome State Fault Refusal :=
  match s.region spire region with
  | none => .next s
  | some r =>
    match r.flights.find? (fun f => decide (f.tid = tid)) with
    | none => .next s
    | some f =>
      match closedReturn (((r.rets.find? (fun e => decide (e.1 = f.tag))).map Prod.snd).getD []) with
      | none => .next s
      | some ts =>
        if r.accs.any (fun a => decide (a.tag = f.tag)) || (r.owesAccess f.tag && !s.stuck spire region r) then .next s
        else
          let s := if r.stitched spire then s.acquireAt spire .die else s
          .next (s.recordReturns spire region f (r.verdict region f ts))

/-! ## Memory nodes -/

/-- Whose access a memory node makes (R263, R282): its record's caller, or the stream's address space, as an agent of the spire
whose port column holds the slot. (log 31: DEDUCED.) -/
def State.accessRights (s : State) (g : Nat) (r : Region) (a : MemAcc) : Ctx :=
  let h := r.siteSpire g a.site.row a.site.col
  if r.kind = 0 then
    match r.flights.find? (fun f => decide (f.tag = a.tag)) with
    | some f => ⟨h, f.asid, f.ptbr, f.kwin, f.prv⟩
    | none => (s.slot (mkTid g (a.tag.toNat / 16) (a.tag.toNat % 16))).ctx h
  else ⟨h, r.casid, r.cptbr, Vector.replicate 5 (BitVec.allOnes 64), r.cprv⟩

/-- The runs of consecutive valid bytes among the low `n` (R263). -/
def validRuns (valid : BitVec 8) (n : Nat) : List (Nat × Nat) :=
  (List.range n).foldl (fun runs i =>
    if !valid.getLsbD i then runs
    else
      match runs.getLast? with
      | some (o, k) => if o + k = i then runs.dropLast ++ [(o, k + 1)] else runs ++ [(i, 1)]
      | none => [(i, 1)]) []

/-- The checks of a store of some bytes of a location (R169, R263). -/
def State.checkStore (c : Ctx) (a : MemAcc) (s : State) : State × Verdict :=
  let va := a.addr.toNat
  let cuts := (validRuns a.valid a.size).flatMap (fun x => pageCuts 3 (va + x.1) x.2)
  let acc := Acc.store a.addr a.size
  let (s, v) := State.settle true c (fun s => s.thenMarks c (s.thenAttr c acc (s.checkRuns c acc cuts))) 4 s
  s.engineMeets .write (v.ofKind .write)

/-- What a memory node's access comes to: not yet, a fault, or the loaded value. -/
inductive AccResult where
  | waits
  | fault (f : Flt)
  | done (v : Nat)
  deriving DecidableEq, Repr

def Verdict.asResult : Verdict → AccResult
  | .fault f => .fault f
  | _ => .waits

/-- A memory node's load (R263), at DIE scope in a region with memory slots in several spires (R282). -/
def State.nodeLoad (die : Bool) (c : Ctx) (a : MemAcc) (s : State) : State × AccResult :=
  let (s, v) := s.engineCheck c (.load a.addr a.size) true
  match v with
  | .pass cs =>
    let ps := piecesOf cs a.addr.toNat a.size
    let s := if die then ps.foldl (fun s p => s.toHome c.g p.key) s else s
    let (s, bs) := State.readPieces c.g ps s
    (s, .done (leNat bs))
  | v => (s, v.asResult)

/-- A memory node's store (R171, R172, R263), at DIE scope in a region with memory slots in several spires (R282). -/
def State.nodeStore (die : Bool) (c : Ctx) (a : MemAcc) (s : State) : State × AccResult :=
  let (s, v) := s.checkStore c a
  match v with
  | .pass cs =>
    let va := a.addr.toNat
    let data := leBytes 8 a.data.toNat
    let full := decide (a.valid = lowBytes a.size)
    let ps := if full then storePieces cs va a.size (data.take a.size)
      else (validRuns a.valid a.size).flatMap (fun x => storePieces cs (va + x.1) x.2 ((data.drop x.1).take x.2))
    match s.engineWrite c.g ps with
    | .ok s => ((if die then ps.foldl (fun s p => s.toHome c.g p.key) s else s), .done 0)
    | .error f => (s, .fault f)
  | v => (s, v.asResult)

/-- The outputs of a completed access (R263): the loaded data, and the completion token. -/
def MemAcc.outs (a : MemAcc) (data : Option Word) (poison : Bool) : List (Nat × Token) :=
  let comp : Token := ⟨poison, a.tag, a.cdim, .data, 0, 0, 0⟩
  if a.store then both comp
  else
    let d : Token := match data with
      | some w => ⟨poison, a.tag, a.dim, .data, 0xFF, w, 0⟩
      | none => ⟨poison, a.tag, a.dim, .data, 0, 0, 0⟩
    [(0, d), (1, comp)]

/-- A loaded value extended (R263). -/
def MemAcc.value (a : MemAcc) (v : Nat) : Word :=
  if a.sext then wordOf (signedOf (8 * a.size) v % (2 ^ 64 : Nat)).toNat else wordOf v

/-- An access ends: it leaves the list and its outputs are sent (R237, R263). -/
def State.accessEnds (g n k : Nat) (a : MemAcc) (outs : List (Nat × Token)) (s : State) : State :=
  match s.region g n with
  | none => s
  | some r =>
    let s := s.setRegion g n { r with accs := ldel r.accs k }
    match (if a.shadow then r.shadow else r.active).bind (fun p => p.nodeAt a.site) with
    | none => s
    | some node => s.sendBatch g n a.shadow [node] (fun m => m.tnode n) (onArm node.arm outs)

/-- Whether the outputs of an access can be sent now (R275, R288). -/
def Region.answers (a : MemAcc) (r : Region) : Bool :=
  match (if a.shadow then r.shadow else r.active) with
  | none => true
  | some p => (p.nodes.filter (fun m => decide (m.site = a.site))).all (fun m =>
      r.edgeTakes p m (4 * m.arm) && r.edgeTakes p m (4 * m.arm + 1))

/-- MEMORY_NODE_ACCESS_DONE: the `k`-th access of a region completes, in the order of its node's queue (R237, R263, R282). -/
def execEvMemoryNodeAccessDone (spire region k : Nat) (s : State) : Host.Outcome State Fault Refusal :=
  match s.region spire region with
  | none => .next s
  | some r =>
    match r.accs[k]? with
    | none => .next s
    | some a =>
      if (r.accs.take k).any (fun b => decide (b.site = a.site)) then .next s
      else if !r.answers a then .next s
      else if a.poison then .next (s.accessEnds spire region k a (a.outs none true))
      else if a.void then .next (s.accessEnds spire region k a (a.outs none false))
      else
        let c := s.accessRights spire r a
        let (s, res) := if a.store then s.nodeStore (r.stitched spire) c a else s.nodeLoad (r.stitched spire) c a
        match res with
        | .waits => .next s
        | .done v => .next (s.accessEnds spire region k a (a.outs (some (a.value v)) false))
        | .fault f =>
          let node := match (if a.shadow then r.shadow else r.active).bind (fun p => p.nodeAt a.site) with
            | some m => m.tnode region
            | none => 0
          .next ((s.mapRegion spire region (Region.fault a.tag f.cause f.sub f.val node)).accessEnds spire region k a
            (a.outs none true))

/-! ## Swaps, drains and cuts -/

/-- Whether every place that the active plane uses has swapped and every site's shadow plane is written (R269, R287). -/
def Region.allSwapped (r : Region) : Bool :=
  r.sites.all (fun x => r.written.contains x)
    && (r.active.map (fun p => p.nodes.all (fun n => r.swapped.contains n.site))).getD true

/-- The planes change places (R287): the region leaves SWAPPING with the new plane active; what waits at outbound ports stays. -/
def Region.rotate (r : Region) : Region :=
  { r with
    st := .placed, active := r.shadow, shadow := r.active,
    queues := r.squeues ++ r.queues.filter (fun q => decide (q.1.port = outboundPort)), squeues := [],
    nodes := r.snodes, snodes := [], written := [], swapped := [], passed := [], sentEnd := [], sent := [],
    accs := r.accs.map (fun a => { a with shadow := false }) }

/-- Whether a port of a BIND stops at the swap (R437): its slot holds no node of the new plane. -/
def Region.losesPort (r : Region) (p : BoundPort) : Bool :=
  match r.entries[p.entry]?, r.shadow with
  | some e, some q => !q.holds e.site
  | _, _ => false

/-- The ports of a slot that its swap takes from their BINDs (R437). (log 32: DESIGN CHOICE.) -/
def Region.losePorts (st : Site) (r : Region) : Region :=
  let loses (p : BoundPort) : Bool := (r.entries[p.entry]?).any (fun e => decide (e.site = st)) && r.losesPort p
  { r with binds := r.binds.map (fun b => { b with ports := b.ports.map (fun p => if loses p then { p with lost := true } else p) }) }

/-- Whether a BIND has lost a port and what stood at its lost outbound ports before the swap has been written; one whose every SINK
port an end-of-stream had reached completes (R394). -/
def Region.bindOver (r : Region) (b : BindState) : Bool :=
  let emptied (p : BoundPort) : Bool := (r.entries[p.entry]?).all (fun e => (queueOf ⟨e.site, outboundPort⟩ r.queues).isEmpty)
  let sink (p : BoundPort) : Bool := (r.entries[p.entry]?).any BindEntry.sink
  b.ports.any BoundPort.lost && b.ports.all (fun p => !p.lost || emptied p) && !b.ports.all (fun p => !sink p || p.ended)

/-- A BIND that has lost a port at a swap ends with CMD_ERROR, code 0x41 (R437). -/
def State.endLost (g n : Nat) (s : State) : State :=
  match s.region g n with
  | none => s
  | some r =>
    let s := s.setRegion g n { r with binds := r.binds.filter (fun b => !r.bindOver b) }
    (r.binds.filter r.bindOver).foldl (fun s b => s.failCmd b.queue b.packet 0x41 0) s

/-- A region that has wholly swapped leaves SWAPPING (R269, R287). -/
def State.settleSwap (g n : Nat) (s : State) : State :=
  match s.region g n with
  | none => s
  | some r => if r.st = .swapping ∧ r.allSwapped = true then s.setRegion g n r.rotate else s

/-- The places of BINDING entries at a site that hold no node of the active plane. -/
def Region.emptyPorts (i j : Nat) (r : Region) : List Site :=
  (r.entries.map BindEntry.site).filter (fun st => decide (st.row = i ∧ st.col = j) && !r.active.any (fun p => p.holds st))

/-- SHADOW_WRITE: the SWAP's section has been written into the shadow plane of a site (R286); a place without a node of the
active plane swaps then (R287, R407, R437). -/
def execEvShadowWrite (spire region i j : Nat) (s : State) : Host.Outcome State Fault Refusal :=
  match s.region spire region with
  | none => .next s
  | some r =>
    if r.st = .swapping ∧ i < r.rows ∧ j < r.cols ∧ ¬ r.written.contains (i, j) = true then
      let used := (r.active.map (fun p => p.nodes.any (fun n => n.cells.any (fun c => decide (c.row = i ∧ c.col = j))))).getD false
      let r' := (r.emptyPorts i j).foldl (fun r st => r.losePorts st) { r with written := r.written ++ [(i, j)] }
      let s := s.setRegion spire region r'
      let s := if used then s else s.turnInterval spire r i j true
      .next ((s.endLost spire region).settleSwap spire region)
    else .next s

/-- The tokens at a place's ports pass to its new plane's queues, in their order (R288). -/
def Region.moveQueues (st : Site) (r : Region) : Region :=
  [0, 1, 2, 3].foldl (fun r q =>
    let p : PortId := ⟨st, q⟩
    let ts := queueOf p r.queues ++ queueOf p r.squeues
    { r with queues := setQueueOf p [] r.queues, squeues := setQueueOf p ts r.squeues }) r

/-- Whether the end-of-stream of a place has left it on every output edge (R287): in a cycle before the present one. -/
def Region.endSent (st : Site) (ns : List PNode) (r : Region) : Bool :=
  r.sentEnd.any (fun e => decide (e.1 = st)) && ns.all (fun m => (r.endClock m).all (fun c => decide (c < r.clock)))

/-- CELL_SWAP: a place that has sent its end-of-stream and whose shadow plane is written swaps (R287, R288, R407, R437,
R438). -/
def execEvCellSwap (spire region i j u : Nat) (s : State) : Host.Outcome State Fault Refusal :=
  match s.region spire region with
  | none => .next s
  | some r =>
    let st : Site := ⟨i, j, u⟩
    let ns := (r.active.map (fun p => p.nodes.filter (fun n => decide (n.site = st)))).getD []
    let sent := ns.all (fun n => (r.nodeState false st n.arm).pend.isEmpty) && r.endSent st ns
    if r.st = .swapping ∧ r.passed.contains st = true ∧ ¬ r.swapped.contains st = true
        ∧ sent = true ∧ r.shadowReady ns = true then
      let cells := ns.flatMap PNode.cells
      let r := { r with swapped := r.swapped ++ (st :: cells.filter (fun c => decide (c ≠ st))) }
      let r := ((st :: cells).foldl (fun r c => r.moveQueues c) r).losePorts st
      -- the counters of a site turn when the last of its places that the old plane uses has swapped
      let left := (r.active.map (fun p => p.nodes.any (fun n =>
        decide (n.site.row = i ∧ n.site.col = j) && !r.swapped.contains n.site))).getD false
      let s := s.setRegion spire region r
      let s := if left then s else
        ((st :: cells).map (fun c => (c.row, c.col))).eraseDups.foldl (fun s x => s.turnInterval spire r x.1 x.2 true) s
      .next ((s.endLost spire region).settleSwap spire region)
    else .next s

/-- REGION_QUIET: a halted region holds no token and no outstanding access (R379, R380). -/
def execEvRegionQuiet (spire region : Nat) (s : State) : Host.Outcome State Fault Refusal :=
  match s.region spire region with
  | none => .next s
  | some r =>
    if r.drainedOut && !r.quiet then .next (s.setRegion spire region { r with quiet := true }) else .next s

/-- CUT_DONE: every place has passed the marker (R410): DONE, or with stop STOPPED; a CUT record and the common trigger. -/
def execEvCutDone (spire region : Nat) (s : State) : Host.Outcome State Fault Refusal :=
  match s.region spire region with
  | none => .next s
  | some r =>
    if r.cut.state = 1 ∧ r.liveNodes.all (fun n => r.cut.passed.contains n.site) = true then
      let s := s.setRegion spire region { r with cut := { r.cut with state := if r.cut.stop then 3 else 2 } }
      .next ((s.probeRec spire 3 0 (regionSource spire region) (r.cut.id.setWidth 64)
        (wordOf (s.islandCycles (3 * spire + 1)))).trigger s.now)
    else .next s

end Sys2Proof.Machine
end

