-- ==== Sys2Proof/Machine/Matrix.lean ====
section
/-! DEFINITION. Matrix regions: the MATRIX family, weight loads, tiles, draining, faults and halting (R85, R295 to R316, R406, R409). -/

namespace Sys2Proof.Machine

/-! ## Formats and shapes -/

/-- The micro-tile k × n of a weight format (R25, R297); none for a format that no tile has. -/
def tileOf (fmt : Nat) : Option (Nat × Nat) :=
  if fmt = 9 then some (1, 1)
  else if fmt = 0 then some (2, 1)
  else if fmt = 1 ∨ fmt = 2 then some (4, 2)
  else if fmt = 3 ∨ fmt = 4 ∨ fmt = 5 then some (8, 2)
  else if fmt = 6 ∨ fmt = 7 then some (16, 2)
  else none

/-- Whether a tile of a weight format accepts an activation format (R297). -/
def tileAccepts (w a : Nat) : Bool :=
  if w = 1 ∨ w = 2 then decide (a = 1 ∨ a = 2)
  else if w = 3 ∨ w = 4 then decide (a = 3 ∨ a = 4)
  else if w = 7 then decide (a = 6 ∨ a = 7)
  else decide (a = w)

/-- The floating-point accumulator of a weight format; INT32 has none (R297). -/
def tileAcc (fmt : Nat) : Option Fmt := if fmt = 9 then some fp64 else if fmt = 5 ∨ fmt = 6 then none else some fp32

/-- The k, n, K and N of a shape (R298). -/
def TileShape.k (sh : TileShape) : Nat := ((tileOf sh.fmt).map Prod.fst).getD 1
def TileShape.n (sh : TileShape) : Nat := ((tileOf sh.fmt).map Prod.snd).getD 1
def TileShape.depth (sh : TileShape) : Nat := sh.ur * sh.k
def TileShape.width (sh : TileShape) : Nat := sh.uc * sh.n
/-- The bytes of a result element (R306). -/
def TileShape.e (sh : TileShape) : Nat := if sh.fmt = 9 then 8 else 4

/-- The compute columns of a region, from its west edge (R298). -/
def Region.columns (r : Region) : List Nat := (List.range r.cols).filter (fun c => !portColumn (r.ocol + c))
/-- Their number: the w of R295. -/
def Region.width (r : Region) : Nat := r.columns.length

/-- The shape of a control word (R305). -/
def shapeOf (c : Word) : TileShape :=
  ⟨fld c 48 4, c.getLsbD 47, c.getLsbD 46, fld c 40 4 + 1, fld c 34 6 + 1, fld c 16 16 + 1⟩

/-- Whether a control word breaks the layout of R305. -/
def layoutBad (c : Word) : Bool :=
  decide (fld c 56 8 ≠ 2) || decide (3 < fld c 52 4)
    || (if fld c 52 4 = 1 then decide (fld c 44 2 ≠ 0) || decide (fld c 32 2 ≠ 0) || decide (fld c 0 16 ≠ 0)
        else decide (fld c 0 52 ≠ 0))

/-- Whether a SHAPE word breaks the limits of R305 that need no region. -/
def limitsBad (c : Word) : Bool :=
  let sh := shapeOf c
  decide (fld c 52 4 = 1) && (decide (tileOf sh.fmt = none) || (sh.sparse && (decide (sh.fmt = 9) || decide (sh.depth % 4 ≠ 0))))

/-- Whether a SHAPE word asks for more than a region has (R305). -/
def sizeBad (c : Word) (r : Region) : Bool :=
  decide (fld c 52 4 = 1) && (decide (r.rows ≤ fld c 40 4) || decide (r.width ≤ fld c 34 6))

/-! ## Regions -/

/-- A kind-2 region of a spire (R304). -/
def State.matRegion (s : State) (g n : Nat) : Option Region := (s.region g n).filter (fun r => decide (r.kind = 2))

/-- The matrix side of a region changed. -/
def Region.withMatrix (f : Matrix → Matrix) (r : Region) : Region := { r with matrix := f r.matrix }

/-- The rights of a region's accesses: its owner's at OPEN (R296). -/
def Matrix.rights (m : Matrix) (g : Nat) : Ctx := ⟨g, m.asid, m.ptbr, m.kwin, m.prv⟩

/-- Whether a queued operation is a weight load. -/
def MatOp.isLoad : MatOp → Bool
  | .wload _ _ _ => true
  | .tile _ _ _ _ => false

/-- An operation enters the queue (R303). -/
def Region.enqueue (op : MatOp) (r : Region) : Region :=
  { r with
    st := if r.st = .empty then .busy else r.st
    matrix := { r.matrix with queue := r.matrix.queue ++ [op] } }

/-- What CLOSE leaves (R305). (log 36: DEDUCED.) -/
def Region.closeMatrix (r : Region) : Region := { r with st := .empty, quiet := false, matrix := r.matrix.closed }

/-- The running operation has ended: the next may start, or the owner's end takes effect (R315). -/
def Region.opEnds (r : Region) : Region :=
  let m := { r.matrix with queue := r.matrix.queue.drop 1, run := none }
  if m.closing then { r with matrix := m }.closeMatrix
  else { r with st := if m.queue.isEmpty then .empty else .busy, matrix := m }

/-- A running operation faults (R311): the region is FAULTED, the queue discarded. -/
def Region.matFault (c : Cause) (sub : Nat) (addr : Word) (r : Region) : Region :=
  let m := { r.matrix with queue := [], run := none, fcause := c.code, ftsub := sub % 256, faddr := addr }
  if m.closing then { r with matrix := m }.closeMatrix else { r with st := .faulted, matrix := m }

/-- An access of a running operation that did not pass (R311): a fault is recorded, a held access waits. -/
def State.matFails (g n : Nat) (v : Verdict) (s : State) : State :=
  match s.region g n, v with
  | some r, .fault f => s.setRegion g n (r.matFault f.cause f.sub f.val)
  | _, _ => s

/-! ## The MATRIX family -/

/-- The rows of R304 for an instruction of the owner: the region, or the status. -/
def State.ownedMatrix (s : State) (n : Nat) : Except Word Region :=
  match s.matRegion (tidSpire s.tid) n with
  | none => .error 1
  | some r => if r.matrix.owner = some (s.thr.handle s.tid) then .ok r else .error 2

/-- An operation queued, or its thread parked MEM until its earlier accesses are performed, or ENGINE while the queue is full (R307). -/
def State.queueMatrix (n : Nat) (op : MatOp) (d : Reg) (s : State) : State :=
  match s.region (tidSpire s.tid) n with
  | none => s.retX d 1
  | some r =>
    if !s.thr.queue.isEmpty then s.park .mem (.matrix n op d)
    else if 4 ≤ r.matrix.queue.length then s.park .engine (.matrix n op d)
    else (s.setRegion (tidSpire s.tid) n (r.enqueue op)).retX d 0

/-- MXW (R307). -/
def execMxw (g : Guard) (d a : Reg) (n : BitVec 6) (s : State) : Host.Outcome State Fault Refusal :=
  guarded g (fun s =>
    let x := s.getX a
    if x.toNat % 8 ≠ 0 then s.trap .align 1 x
    else
      match s.ownedMatrix n.toNat with
      | .error st => s.retX d st
      | .ok r =>
        match r.matrix.shape with
        | none => s.retX d 3
        | some sh =>
          if sh.sparse then s.retX d 3
          else if r.st = .faulted then s.retX d 4
          else s.queueMatrix n.toNat (.wload x sh []) d) s

/-- MXA (R307). -/
def execMxa (g : Guard) (d a : Reg) (n : BitVec 6) (s : State) : Host.Outcome State Fault Refusal :=
  guarded g (fun s =>
    let x := s.getX a
    if x.toNat % 8 ≠ 0 then s.trap .align 1 x
    else
      match s.ownedMatrix n.toNat with
      | .error st => s.retX d st
      | .ok r =>
        match r.matrix.shape, r.matrix.drain with
        | some sh, some (dst, pitch) =>
          if r.matrix.weights = none ∧ r.matrix.queue.any MatOp.isLoad = false then s.retX d 3
          else if r.st = .faulted then s.retX d 4
          else s.queueMatrix n.toNat (.tile x sh dst pitch) d
        | _, _ => s.retX d 3) s

/-- MXC OPEN (R305). (log 34: DEDUCED.) -/
def State.matOpen (n : Nat) (r : Region) (d : Reg) (s : State) : State :=
  let v := s.thr
  let h := v.handle s.tid
  if r.matrix.owner = some h then s.retX d 0
  else if r.matrix.owner.isSome then s.retX d 2
  else
    (s.setRegion (tidSpire s.tid) n (r.withMatrix (fun m =>
      { m with owner := some h, asid := v.asid, ptbr := v.ptbr, kwin := v.kwin, prv := v.prv }))).retX d 0

/-- CLEAR (R305). -/
def Region.clearMatrix (r : Region) : Region :=
  let m := { r.matrix with qdup := false }
  if r.st = .faulted then { r with st := .empty, matrix := { m with fcause := 0, ftsub := 0, faddr := 0 } }
  else { r with matrix := m }

/-- MXC (R304, R305). -/
def execMxc (g : Guard) (d a : Reg) (n : BitVec 6) (s : State) : Host.Outcome State Fault Refusal :=
  guarded g (fun s =>
    let c := s.getX a
    let sp := tidSpire s.tid
    if layoutBad c || limitsBad c then s.retX d 3
    else
      match s.matRegion sp n.toNat with
      | none => s.retX d 1
      | some r =>
        if sizeBad c r then s.retX d 3
        else if fld c 52 4 = 0 then s.matOpen n.toNat r d
        else if r.matrix.owner ≠ some (s.thr.handle s.tid) then s.retX d 2
        else if fld c 52 4 = 1 then
          (s.setRegion sp n.toNat (r.withMatrix (fun m => { m with shape := some (shapeOf c) }))).retX d 0
        else if fld c 52 4 = 2 then (s.setRegion sp n.toNat r.clearMatrix).retX d 0
        else if !r.matrix.queue.isEmpty then s.park .engine (.wait (.matrixEmpty n.toNat))
        else (s.setRegion sp n.toNat r.closeMatrix).retX d 0) s

/-- MXD (R306). -/
def execMxd (g : Guard) (d a : Reg) (n : BitVec 6) (s : State) : Host.Outcome State Fault Refusal :=
  guarded g (fun s =>
    let dst := s.getX a
    let pitch := s.getX (a + 1)
    match s.ownedMatrix n.toNat with
    | .error st => s.retX d st
    | .ok r =>
      match r.matrix.shape with
      | none => s.retX d 3
      | some sh =>
        if fld dst 48 16 ≠ 0 ∨ dst.toNat % sh.e ≠ 0 ∨ pitch.toNat % sh.e ≠ 0 then s.retX d 3
        else if r.st = .faulted then s.retX d 4
        else (s.setRegion (tidSpire s.tid) n.toNat (r.withMatrix (fun m => { m with drain := some (dst, pitch) }))).retX d 0) s

/-- Nibble `q` of metadata (R302). -/
def nibbleAt (md : List Byte) (q : Nat) : Nat := (md.getD (q / 2) 0).toNat / 16 ^ (q % 2) % 16

/-- The groups of four weights that a sparse shape has, each with a nibble of metadata (R302). -/
def TileShape.groups (sh : TileShape) : Nat := sh.width * sh.depth / 4

/-- Whether a nibble of metadata names one place twice (R302). -/
def badNibble (md : List Byte) (q : Nat) : Bool := decide (nibbleAt md q % 4 = nibbleAt md q / 4)

/-- The metadata read begins: its checks pass, and the thread parks MEM until it is done (R308, R316). -/
def State.sparseLoad (n : Nat) (x y : Word) (sh : TileShape) (d : Reg) (s : State) : State :=
  let size := (sh.groups + 1) / 2
  s.access (Acc.load y size) (fun cs s => s.park .mem (.metadata n x y sh (piecesOf cs y.toNat size) d))

/-- MXMD (R308). -/
def execMxmd (g : Guard) (d a : Reg) (n : BitVec 6) (s : State) : Host.Outcome State Fault Refusal :=
  guarded g (fun s =>
    let x := s.getX a
    let y := s.getX (a + 1)
    if x.toNat % 8 ≠ 0 then s.trap .align 1 x
    else
      match s.ownedMatrix n.toNat with
      | .error st => s.retX d st
      | .ok r =>
        match r.matrix.shape with
        | none => s.retX d 3
        | some sh =>
          if !sh.sparse then s.retX d 3
          else if r.st = .faulted then s.retX d 4
          else s.drained .mem (fun s => s.sparseLoad n.toNat x y sh d)) s

/-- The status word of R309, for a thread by its handle. -/
def Region.mxst (r : Region) (h : BitVec 24) : Word :=
  let m := r.matrix
  wordOf (atBit m.frow 32 + atBit m.fcause 24 + atBit m.ftsub 16 + atBit m.queue.length 8 + atBit (bit m.qdup) 7
    + atBit (bit m.weights.isSome) 6 + atBit (bit (decide (m.owner = some h))) 5 + r.st.code)

/-- Whether WAIT is over (R309). -/
def Region.settled (r : Region) : Bool := r.matrix.queue.isEmpty && (decide (r.st = .empty) || decide (r.st = .faulted))

/-- MXST (R309). -/
def execMxst (g : Guard) (d a : Reg) (n : BitVec 6) (s : State) : Host.Outcome State Fault Refusal :=
  guarded g (fun s =>
    let x := s.getX a
    match s.matRegion (tidSpire s.tid) n.toNat with
    | none => s.retX d 0
    | some r =>
      if x.getLsbD 2 && !r.settled then s.park .engine (.wait (.matrixIdle n.toNat))
      else
        let sel := fld x 0 2
        s.retX d (if sel = 0 then r.mxst (s.thr.handle s.tid) else if sel = 1 then r.matrix.faddr else 0)) s

/-! ## Running operations -/

/-- The start of an operation's stream (R299). -/
def MatRun.start (op : MatOp) (again : Bool) : MatRun :=
  let a := match op with
    | .wload a _ _ => a
    | .tile a _ _ _ => a
  ⟨op, again, a, 0, 0, ⟨0, 0, false, 0, 0⟩, 0, false, [], false⟩

/-- Whether a tile's shape is that of the weights in force (R303). -/
def Weights.fits (w : Weights) (sh : TileShape) : Bool :=
  decide (w.shape.fmt = sh.fmt ∧ w.shape.ur = sh.ur ∧ w.shape.uc = sh.uc ∧ w.shape.sparse = sh.sparse)

/-- A resumed region, still HALTED, reads the stream of the weights in force again (R314). -/
def Region.readAgain (r : Region) : Region :=
  match r.matrix.weights with
  | some w => r.withMatrix (fun m => { m with run := some (MatRun.start (.wload w.addr w.shape w.md) true) })
  | none => r

/-- The next queued operation starts (R303): a tile whose weights do not fit faults; one whose weights a fault kept from being read
again after a halt (R314) has them read first. -/
def Region.startOp (r : Region) : Region :=
  let m := r.matrix
  match m.queue with
  | [] => r
  | .wload a sh md :: _ => { r with st := .busy, matrix := { m with run := some (MatRun.start (.wload a sh md) false) } }
  | .tile a sh dst pitch :: _ =>
    match m.weights with
    | none => ({ r with matrix := { m with frow := 0 } } : Region).matFault .shape 0x12 0
    | some w =>
      if !w.fits sh then ({ r with matrix := { m with frow := 0 } } : Region).matFault .shape 0x12 0
      else if m.reload then
        { r with st := .busy }.readAgain
      else { r with st := .busy, matrix := { m with frow := 0, run := some (MatRun.start (.tile a sh dst pitch) false) } }

/-- The payload of the control token of an operation (R305, R312). -/
def MatOp.control (op : MatOp) : Word :=
  let (mop, sh) := match op with
    | .wload _ sh _ => (8, sh)
    | .tile _ sh _ _ => (9, sh)
  wordOf (atBit 2 56 + atBit mop 52 + atBit sh.fmt 48 + atBit (bit sh.acc) 47 + atBit (bit sh.sparse) 46 + atBit (sh.ur - 1) 40
    + atBit (sh.uc - 1) 34 + atBit (sh.m - 1) 16)

/-- The cell rows that an operation uses (R298). -/
def MatOp.rows : MatOp → Nat
  | .wload _ sh _ => sh.ur
  | .tile _ sh _ _ => sh.ur

/-- A token enters the array at the west edge (R312), before the breakpoints on port a of the westmost cells of the rows used
(R409). (log 35: DESIGN CHOICE.) -/
def State.westEdge (g n rows : Nat) (kind : TKind) (w : Word) (s : State) : State :=
  match s.region g n with
  | none => s
  | some r =>
    let t : Token := ⟨false, (r.matrix.owner.getD 0).setWidth 8, 0, kind, 0xFF, w, 0⟩
    (List.range 4).foldl (fun s i =>
      let b := r.bks[i % 4]'(Nat.mod_lt _ (by decide))
      if b.dst = 28 ∧ some b.col = r.columns.head? ∧ b.row < rows then s.breakpoint g n (b.row, b.col, 28) t i else s) s

/-- The control token of the operation that has started enters the array (R312). -/
def State.controlEnters (g n : Nat) (s : State) : State :=
  match (s.region g n).bind (fun r => r.matrix.run) with
  | some u => s.westEdge g n u.op.rows .control u.op.control
  | none => s

/-- MATRIX_OP_START: the next queued operation of a region that runs none starts (R303, R312), or the weight stream in force of one
that was halted is read again (R314). (log 33: DESIGN CHOICE.) -/
def execEvMatrixOpStart (spire region : Nat) (s : State) : Host.Outcome State Fault Refusal :=
  match s.matRegion spire region with
  | none => .next s
  | some r =>
    if r.matrix.run = none ∧ r.halt = false ∧ (r.st = .empty ∨ r.st = .busy) then
      .next ((s.setRegion spire region r.startOp).controlEnters spire region)
    else if r.matrix.run = none ∧ r.halt = false ∧ r.st = .halted ∧ r.matrix.reload = true then
      .next ((s.setRegion spire region r.readAgain).controlEnters spire region)
    else .next s

/-- A sparse column from its kept elements (R302): none where a weight is omitted. -/
def spreadColumn (md : List Byte) (depth j : Nat) (kept : List FVal) : List (Option FVal) :=
  (List.range depth).map (fun i =>
    let g := i / 4
    let nb := nibbleAt md (j * (depth / 4) + g)
    if i % 4 = nb % 4 then kept[2 * g]? else if i % 4 = nb / 4 then kept[2 * g + 1]? else none)

/-- The columns of a weight load from the elements it read (R300, R302). -/
def weightColumns (sh : TileShape) (md : List Byte) (es : List FVal) : List (Option FVal) :=
  if sh.sparse then
    (List.range sh.width).flatMap (fun j => spreadColumn md sh.depth j ((es.drop (j * (sh.depth / 2))).take (sh.depth / 2)))
  else es.map some

/-- The weights of a load that has been read whole come into force (R303). -/
def Region.loadEnds (u : MatRun) (r : Region) : Region :=
  match u.op with
  | .wload a sh md =>
    let r := r.withMatrix (fun m => { m with weights := some ⟨sh, a, md, weightColumns sh md u.elems⟩, reload := false })
    if u.again then
      let m := { r.matrix with run := none }
      if m.closing then { r with matrix := m }.closeMatrix
      else { r with st := if m.queue.isEmpty then .empty else .busy, matrix := m }
    else r.opEnds
  | .tile _ _ _ _ => r

/-- The shape of an operation, its units (columns or vectors) and the elements of each (R300 to R302). -/
def MatOp.layout : MatOp → TileShape × Nat × Nat
  | .wload _ sh _ => (sh, sh.width, if sh.sparse then sh.depth / 2 else sh.depth)
  | .tile _ sh _ _ => (sh, sh.m, sh.depth)

/-- Whether an operation accepts a header's format (R297, R300, R301). -/
def MatOp.accepts (op : MatOp) (fmt : Nat) : Bool :=
  match op with
  | .wload _ sh _ => decide (fmt = sh.fmt)
  | .tile _ sh _ _ => tileAccepts sh.fmt fmt

/-- The running operation goes on. -/
def Region.setRun (u : MatRun) (r : Region) : Region := r.withMatrix (fun m => { m with run := some u })

/-- A header word is taken, or faults (R74, R299 to R301, R311): one of another class than 0x01 is malformed. (log 109: DEDUCED.) -/
def Region.takeHeader (u : MatRun) (w : Word) (r : Region) : Region :=
  let (_, units, size) := u.op.layout
  let h := readHeader w
  if fld w 56 8 ≠ 1 ∨ headerOk w = false then r.matFault .illegal 0x40 u.next
  else if !u.op.accepts h.fmt then r.matFault .shape 0x10 u.next
  else if size < u.have_ + h.len ∨ h.last ≠ decide (u.unit + 1 = units ∧ u.have_ + h.len = size) then r.matFault .shape 0x11 u.next
  else r.setRun { u with next := u.next + 8, hdr := h, left := h.len, had := false }

/-- A data word is taken (R72 to R76): its elements are decoded; a column or vector may be whole, a load read to its end. -/
def Region.takeData (u : MatRun) (w : Word) (r : Region) : Region :=
  let (_, units, size) := u.op.layout
  let n := min (64 / elemWidth u.hdr.fmt) u.left
  let (es, had, dup) := decodeWord u.hdr.fmt u.hdr.oxt u.hdr.scale w 0xFF#8 n u.had
  let r := r.withMatrix (fun m => { m with qdup := m.qdup || dup })
  let u := { u with
    next := u.next + 8, have_ := u.have_ + n, left := u.left - n, had := had, elems := u.elems ++ es.map (fun e => e.getD (.ofInt 0)) }
  if u.have_ < size then r.setRun u
  else
    let u := { u with unit := u.unit + 1, have_ := 0 }
    match u.op with
    | .wload _ _ _ => if u.unit = units then r.loadEnds u else r.setRun u
    | .tile _ _ _ _ => r.setRun { u with done := true }

/-- A token that fails its parity check (R235, R311, R423). -/
def State.matParity (g n : Nat) (r : Region) (p : PortId) (s : State) : State :=
  let s := s.setRegion g n (({ r with parity := r.parity.drop 1 } : Region).matFault .illegal 0x42 0)
  s.correct 3 (s.columnId g r p.site.row p.site.col)

/-- MATRIX_STREAM_READ: the stream engine reads the next word of the running operation (R299 to R302, R311). A vector that waits
for its row stops the stream (R310). -/
def execEvMatrixStreamRead (spire region : Nat) (s : State) : Host.Outcome State Fault Refusal :=
  match s.matRegion spire region with
  | none => .next s
  | some r =>
    match r.matrix.run with
    | none => .next s
    | some u =>
      if u.done then .next s
      else
        match s.engineRead (r.matrix.rights spire) u.next 8 true with
        | (s, .error v) => .next (s.matFails spire region v)
        | (s, .ok bs) =>
          match s.region spire region with
          | none => .next s
          | some r =>
            let w := wordOf (leNat bs)
            let enters (s : State) : State := s.westEdge spire region u.op.rows (if u.left = 0 then .control else .data) w
            match r.parity with
            | p :: _ => .next (enters (s.matParity spire region r p))
            | [] => .next (enters (s.setRegion spire region (if u.left = 0 then r.takeHeader u w else r.takeData u w)))

/-! ## The array -/

/-- One cell's step for one column (R85): `north` and the result are accumulator codes. -/
def cellStep (acc : Option Fmt) (north : Nat) (prods : List FVal) : Nat :=
  match acc with
  | some f => (fAdd f .rne (f.decode north) (f.decode (f.deliver .rne (exactSum .rne prods).1).1)).1
  | none => (((north : Int) + prods.foldl (fun t v => t + v.scaled 0) 0) % (2 ^ 32 : Nat)).toNat

/-- The exact product of an activation and a weight; an omitted weight's product is an exact zero (R85). -/
def product (a : FVal) (w : Option FVal) : FVal :=
  match w with
  | some w => (exactMul a w).1
  | none => FVal.ofInt 0

/-- Result element (m, j) of a vector (R298): the fold over the cell rows from north to south. -/
def columnSum (sh : TileShape) (vec : List FVal) (col : List (Option FVal)) (cold : Nat) : Nat :=
  (List.range sh.ur).foldl (fun north r =>
    cellStep (tileAcc sh.fmt) north
      (List.zipWith product ((vec.drop (r * sh.k)).take sh.k) ((col.drop (r * sh.k)).take sh.k))) cold

/-- A result row (R298) from a vector, the weights and the bytes of the destination's old contents. -/
def resultRow (sh : TileShape) (vec : List FVal) (w : Weights) (cold : List Byte) : List Byte :=
  (List.range sh.width).flatMap (fun j =>
    let north := if sh.acc then leNat ((cold.drop (j * sh.e)).take sh.e) else 0
    leBytes sh.e (columnSum sh vec ((w.cols.drop (j * sh.depth)).take sh.depth) north))

/-- The cells that a shape uses (R298). -/
def Region.tileCells (sh : TileShape) (r : Region) : List Site :=
  (List.range sh.ur).flatMap (fun row => (r.columns.take sh.uc).map (fun col => ⟨row, col, 0⟩))

/-- The cells that wait for the drain (R310, R406). -/
def Region.drainCells (r : Region) : List Site :=
  match r.matrix.run with
  | some u =>
    match u.op, u.done with
    | .tile _ sh _ _, true => r.tileCells sh
    | _, _ => []
  | none => []

/-- The cells of a tile have computed a row: they are FIRED in this cycle (R406). (log 35: DESIGN CHOICE.) -/
def Region.cellsFire (sh : TileShape) (r : Region) : Region := { r with fired := (r.fired ++ r.tileCells sh).eraseDups }

/-- A row has been stored (R309, R310): FROW counts it; the stream goes on or the tile ends. -/
def Region.rowStored (u : MatRun) (r : Region) : Region :=
  let (_, units, _) := u.op.layout
  let r := r.withMatrix (fun m => { m with frow := m.frow + 1 })
  if u.unit = units then r.opEnds else r.setRun { u with done := false, elems := [] }

/-- ROW_DRAIN: the row of the vector read is computed and stored, after its ACC load (R298, R310, R311). -/
def execEvRowDrain (spire region : Nat) (s : State) : Host.Outcome State Fault Refusal :=
  match s.matRegion spire region with
  | none => .next s
  | some r =>
    match r.matrix.run, r.matrix.weights with
    | some u, some w =>
      match u.op, u.done with
      | .tile _ sh dst pitch, true =>
        let c := r.matrix.rights spire
        let va := dst + wordOf (u.unit - 1) * pitch
        let (s, old) := if sh.acc then s.engineRead c va (sh.width * sh.e) true else (s, .ok [])
        match old with
        | .error v => .next (s.matFails spire region v)
        | .ok cold =>
          match s.engineStore c va (resultRow sh u.elems w cold) true with
          | (s, some v) => .next (s.matFails spire region v)
          | (s, none) =>
            match s.region spire region with
            | none => .next s
            | some r => .next (s.setRegion spire region ((r.rowStored u).cellsFire sh))
      | _, _ => .next s
    | _, _ => .next s

/-- MATRIX_HALT: a region with HALT set that runs nothing enters HALTED (R314, R379). -/
def execEvMatrixHalt (spire region : Nat) (s : State) : Host.Outcome State Fault Refusal :=
  match s.matRegion spire region with
  | none => .next s
  | some r =>
    if r.halt = true ∧ r.matrix.run = none ∧ (r.st = .empty ∨ r.st = .busy ∨ r.st = .halted) then
      .next (s.setRegion spire region { r with st := .halted, quiet := true })
    else .next s

end Sys2Proof.Machine
end

