-- ==== Sys2Proof/Machine/System.lean ====
section
/-! DEFINITION. CSR instructions, TLBI, saving and restoring threads, SLOTCTL and RGNSET (R292 to R294, R358 to R382). -/

namespace Sys2Proof.Machine

/-! ## CSRs -/

/-- SENDST (R156). -/
def Slot.sendst (v : Slot) : Word := wordOf (atBit v.drops.toNat 16 + atBit (bit v.sBad) 2 + atBit (bit v.sRef) 1 + bit v.sStale)

/-- TSTAT (R361). -/
def Slot.tstat (v : Slot) : Word :=
  wordOf (atBit (bit (!v.events.isEmpty)) 5 + atBit (bit v.nest) 4 + atBit v.pprv.code 2 + v.prv.code)

/-- WDOG (R134). -/
def Slot.wdog (v : Slot) : Word := wordOf (atBit (bit v.wSlp) 33 + atBit (bit v.wFired) 32 + v.wLimit.toNat)

/-- The address bits of PTBR (R359) and the fields of TNODE (R220). -/
def ptbrMask : Word := 0xFFFFFFFFF000#64
def tnodeMask : Word := 0xFFFFFFFFFF80#64

/-- A CSR read (R359). -/
def State.csrRead (s : State) (n : Nat) : Word :=
  let v := s.thr
  if n = 0x001 then v.fcsr
  else if n = 0x002 then v.sendst
  else if n = 0x080 then s.cycleOf s.tid
  else if n = 0x081 then s.time
  else if n = 0x100 then v.tvec
  else if n = 0x101 then v.tstat
  else if n = 0x102 then v.tepc
  else if n = 0x103 then v.tcause.setWidth 64
  else if n = 0x104 then v.tsub
  else if n = 0x105 then v.tval
  else if n = 0x106 then v.tnode
  else if n = 0x107 then v.tscr0
  else if n = 0x108 then v.tscr1
  else if n = 0x109 then v.wdog
  else if n = 0x10A then v.asid.setWidth 64
  else if n = 0x10B then v.ptbr
  else if 0x10C ≤ n ∧ n ≤ 0x110 then v.kwin[(n - 0x10C) % 5]'(Nat.mod_lt _ (by decide))
  else 0

/-- TSTAT written (R361): PPRV takes no 3 and no value above PRV. -/
def Slot.setTstat (w : Word) (v : Slot) : Slot :=
  let pprv := match Priv.ofCode (fld w 2 2) with
    | some p => if p.code ≤ v.prv.code then p else v.pprv
    | none => v.pprv
  { v with nest := w.getLsbD 4, pprv := pprv }

/-- SENDST written (R156, R360): `w` for the RW field, `c` for the bits to clear. -/
def Slot.setSendst (w c : Word) (v : Slot) : Slot :=
  { v with
    drops := w.extractLsb' 16 8
    sBad := v.sBad && !c.getLsbD 2
    sRef := v.sRef && !c.getLsbD 1
    sStale := v.sStale && !c.getLsbD 0 }

/-- WDOG written (R134, R360). -/
def Slot.setWdog (w c : Word) (v : Slot) : Slot :=
  { v with wSlp := w.getLsbD 33, wFired := v.wFired && !c.getLsbD 32, wLimit := w.setWidth 32 }

/-- A CSR written (R359, R360); a read-only one keeps its value. -/
def Slot.csrWrite (n : Nat) (w c : Word) (v : Slot) : Slot :=
  if n = 0x001 then v.setFcsr w
  else if n = 0x002 then v.setSendst w c
  else if n = 0x100 then { v with tvec := codeAddr w }
  else if n = 0x101 then v.setTstat w
  else if n = 0x102 then { v with tepc := codeAddr w }
  else if n = 0x103 then { v with tcause := w.setWidth 8 }
  else if n = 0x104 then { v with tsub := w }
  else if n = 0x105 then { v with tval := w }
  else if n = 0x106 then { v with tnode := w &&& tnodeMask }
  else if n = 0x107 then { v with tscr0 := w }
  else if n = 0x108 then { v with tscr1 := w }
  else if n = 0x109 then v.setWdog w c
  else if n = 0x10A then { v with asid := w.setWidth 12 }
  else if n = 0x10B then { v with ptbr := w &&& ptbrMask }
  else if 0x10C ≤ n ∧ n ≤ 0x110 then { v with kwin := v.kwin.set ((n - 0x10C) % 5) w (Nat.mod_lt _ (by decide)) }
  else v

/-- A CSR instruction (R48, R358, R360): what it writes is told by the old value, or it writes nothing. -/
def csrOp (word : BitVec 32) (g : Guard) (d : Reg) (n : BitVec 10) (f : State → Word → Option (Word × Word)) (s : State) :
    Host.Outcome State Fault Refusal :=
  let go (s : State) : State :=
    let old := s.csrRead n.toNat
    match f s old with
    | some (w, c) => (s.setThr (s.thr.csrWrite n.toNat w c)).retX d old
    | none => s.retX d old
  if 0x100 ≤ n.toNat then kernelOnly word g go s else guarded g go s

/-- CSRRW (R360). -/
def execCsrrw (g : Guard) (d a : Reg) (n : BitVec 10) (s : State) : Host.Outcome State Fault Refusal :=
  csrOp (packI g 0x3A d.val a.val n.toNat) g d n (fun s _ => some (s.getX a, s.getX a)) s

/-- CSRRS (R360): W1C bits stay. -/
def execCsrrs (g : Guard) (d a : Reg) (n : BitVec 10) (s : State) : Host.Outcome State Fault Refusal :=
  csrOp (packI g 0x3B d.val a.val n.toNat) g d n (fun s old => if a = 0 then none else some (old ||| s.getX a, 0)) s

/-- CSRRC (R360). -/
def execCsrrc (g : Guard) (d a : Reg) (n : BitVec 10) (s : State) : Host.Outcome State Fault Refusal :=
  csrOp (packI g 0x3C d.val a.val n.toNat) g d n (fun s old => if a = 0 then none else some (old &&& ~~~(s.getX a), s.getX a)) s

/-! ## TLBI -/

/-- The spires of a scope's part of the machine that holds spire `g` (R181). -/
def spiresOf (g : Nat) (sc : Scope) : List Nat :=
  match sc with
  | .core | .spire => [g]
  | .die => (List.range Config.spiresPerDie).map (fun i => g / 80 * 80 + i)
  | .package | .system => List.range Config.spires

/-- Whether a TLBI drops an entry (R371). -/
def TlbEntry.dropped (kind : Nat) (asid : BitVec 12) (va : Nat) (e : TlbEntry) : Bool :=
  match kind with
  | 0 => e.hits asid va
  | 1 => !e.glob && decide (e.asid = asid)
  | 2 => !e.glob
  | _ => true

/-- A sync word that a thread of spire `g` waits on is checked and translated again, so that it does not go on with a dropped
translation (R371). (log 88: DEDUCED.) -/
def State.rewait (g : Nat) (s : State) : State :=
  s.slots.foldl (fun s e =>
    match e.2.park with
    | some ⟨_, .sync _ true _, since, raised, n⟩ =>
      if tidSpire e.1 = g then
        let s := s.setSlot e.1 { e.2 with park := some ⟨.sync, .wait .now, since, raised, n⟩ }
        { s with waits := s.waits.filter (fun w => decide (w.2 ≠ e.1)) }
      else s
    | _ => s) s

/-- TLBI (R371): a release; the entries go; it ends when no access under way has used one. -/
def execTlbi (g : Guard) (d a b : Reg) (s : State) : Host.Outcome State Fault Refusal :=
  kernelOnly (packR g 0x3D d.val a.val b.val 0) g (fun s =>
    let va := (s.getX a).toNat
    let c := s.getX b
    let scope : Option Scope := match fld c 2 3 with
      | 1 => some .spire
      | 2 => some .die
      | 3 => some .package
      | _ => none
    match scope with
    | none => s.retX d 3
    | some sc =>
      if fld c 28 36 ≠ 0 ∨ fld c 5 11 ≠ 0 then s.retX d 3
      else
        s.release .mem sc (fun s =>
          let (s, n) := s.tick
          let s : State := (spiresOf (tidSpire s.tid) sc).foldl (fun s h =>
            let sp := s.spire h
            (s.setSpire h { sp with tlb := sp.tlb.filter (fun e => !e.dropped (fld c 0 2) (c.extractLsb' 16 12) va) }).rewait h) s
          s.park .engine (.finish (.flights sc n) d 0))) s

/-! ## Save areas -/

/-- The event causes that a code names (R363). -/
def Cause.ofCode (n : Nat) : Option Cause :=
  [Cause.illegal, .priv, .align, .xspace, .pageR, .pageW, .pageX, .prot, .secondWrite, .srvPoison, .cpyFrozen, .cpyAborted,
    .mergeStop, .metadata, .expectOvf, .group, .ecall, .ebrk, .fpe, .shape].find? (fun c => decide (c.code = n))

/-- The RESUME code of a capture (R374, R376). -/
def Slot.resumeCode (v : Slot) : Nat :=
  if v.poison.isSome then 2
  else
    match v.park with
    | some ⟨_, .answer _, _, _, _⟩ => 1
    | some ⟨_, .flight _ _, _, _, _⟩ => 2
    | _ => 0

/-- The return block that a capture writes (R225, R226): pending, or the poison that waits. -/
def Slot.returnBlock (v : Slot) : List Byte :=
  match v.poison with
  | some (n, sub, val, node) => (Ret.poison sub val node).block n
  | none =>
    match v.park with
    | some ⟨_, .flight _ n, _, _, _⟩ => leBytes 8 (16 * (n - 1)) ++ leBytes 88 0
    | _ => leBytes 96 0

/-- What waits for a thread's boundary: the trap of its instruction that a hold keeps waiting, then its events (R362, R378). -/
def Slot.pending (v : Slot) : List PendEvent :=
  (v.trapDue.map (fun e => (⟨e.1, e.2.1, e.2.2.1⟩ : PendEvent))).toList ++ v.events

/-- SSTATE (R374). -/
def Slot.sstate (v : Slot) : Word :=
  wordOf (atBit v.prv.code 16 + atBit (bit (decide (8 < v.pending.length))) 13 + atBit (min 8 v.pending.length) 9
    + atBit (bit v.inbox.isSome) 8 + atBit (bit v.held) 7 + atBit v.resumeCode 4
    + (v.park.map (fun k => k.reason.code)).getD 0)

/-- The words of a save area up to the return block (R373). -/
def Slot.saveHead (t : Nat) (v : Slot) : List Word :=
  [(v.handle t).setWidth 64, v.pc, v.sstate, v.work.setWidth 64, v.fcsr, v.sendst, v.predWord, v.inbox.getD 0,
    v.asid.setWidth 64, v.ptbr] ++ v.kwin.toList ++ [0]
    ++ [v.tvec, v.tstat, v.tepc, v.tcause.setWidth 64, v.tsub, v.tval, v.tnode, v.tscr0, v.tscr1, 0, 0, 0]
    ++ (List.range 8).flatMap (fun i => match v.pending[i]? with
      | some e => [wordOf e.cause.code, e.sub, e.val]
      | none => [0, 0, 0])

/-- The image of a thread (R373). (log 38: DEDUCED.) -/
def Slot.image (t : Nat) (v : Slot) : List Byte :=
  (v.saveHead t).flatMap (fun w => leBytes 8 w.toNat) ++ v.returnBlock
    ++ (List.range 64).flatMap (fun i => leBytes 8 (v.getX (Fin.ofNat 64 i)).toNat)

/-! ## SLOTSAVE -/

/-- Whether a target is at a boundary, with its accesses performed, no MEM park and no RGNSET (R375). -/
def Slot.boundary (v : Slot) : Bool :=
  v.queue.isEmpty && !v.park.any (fun k => decide (k.reason = .mem) || (match k.op with
    | .rgnset _ _ _ => true
    | _ => false))

/-- What a capture withdraws (R376): the parked instruction leaves wait lists, groups, placement queues and entry ports. -/
def State.withdraw (t : Nat) (s : State) : State :=
  let s := s.withdrawPart t
  let s : State := { s with waits := s.waits.filter (fun e => decide (e.2 ≠ t)) }
  let sp := s.spire (tidSpire t)
  let s := s.setSpire (tidSpire t) { sp with
    places := sp.places.filter (fun p => decide (p.tid ≠ some t)),
    regions := sp.regions.map (fun r => (r.1, r.2.withdraw t)) }
  match (s.slot t).park with
  | some ⟨_, .save h _ _ _ _, _, _, _⟩ => s.unreserve h
  | _ => s

/-- The events beyond eight go to the lantern only (R374). -/
def State.spillEvents (t : Nat) (s : State) : State :=
  let v := s.slot t
  (v.pending.drop 8).foldl (fun s e => s.postDie (tidDie t) 6 e.cause.code ((v.handle t).setWidth 64) e.sub e.val) s

/-- A target captured (R225, R375, R376): its image is written, a redirect made for a record in flight, its slot freed. -/
def State.capture (t key va : Nat) (once : Bool) (s : State) : Except Flt State :=
  let g := tidSpire t
  let v := s.slot t
  let h := v.handle t
  match s.engineWrite g (storePieces [⟨va, key, 1024, false, true, once⟩] va 1024 (v.image t)) with
  | .error f => .error f
  | .ok s =>
    let s := (s.withdraw t).spillEvents t
    let sp := s.spire g
    let s := match v.park with
      | some ⟨_, .flight n _, _, _, _⟩ =>
        s.setSpire g { sp with redirects := sp.redirects ++ [(⟨tidTag t, n, h, key + 0x1A0⟩ : Redirect)] }
      | _ => s
    let d := s.die (tidDie t)
    let s := s.setDie (tidDie t) { d with
      absent := d.absent.map (fun (e : Absent) => if e.handle = h then { e with launch := v.launch, area := some key } else e) }
    let s := s.setSlot t (v.over .free)
    .ok ((s.releaseAt g .package).deliverWaiting (tidCoreKey t))

/-- SLOTSAVE of thread `i` once its entry is reserved (R375): waits for the boundary and a redirect entry, then captures. -/
def State.saveStep (i : Nat) (h : BitVec 24) (key va : Nat) (once : Bool) (d : Reg) (s : State) : State :=
  let t := handleTid h
  let answer (w : Word) (s : State) : State := s.setSlot i ((s.slot i).setX d w).resume
  if !s.lives h then
    answer 1 ((s.unreserve h).dropHeld h)
  else
    let v := s.slot t
    let full := decide (32 ≤ (s.spire (tidSpire t)).redirects.length)
    let flying : Bool := match v.park with
      | some ⟨_, .flight _ _, _, _, _⟩ => true
      | _ => false
    if !v.boundary || (flying && full) then
      match (s.slot i).park with
      | some _ => s
      | none => s.parkAt i .engine (.save h key va once d)
    else
      match s.capture t key va once with
      | .ok s => answer 0 s
      | .error f => (s.unreserve h).faultAt i f

/-- The first three checks of R375 on a handle: a status, or the handle. -/
def State.checkTarget (s : State) (x : Word) (bad : Bool) : Except Word (BitVec 24) :=
  let h : BitVec 24 := x.setWidth 24
  let t := handleTid h
  if fld x 24 40 ≠ 0 ∨ tidValid t = false ∨ tidSpire t ≠ tidSpire s.tid ∨ h = s.thr.handle s.tid ∨ bad = true then .error 3
  else if s.lives h = false then .error 1
  else if s.thr.prv.code < (s.slot t).prv.code then .error 2
  else .ok h

/-- SLOTSAVE (R375, R376). (log 37: DEDUCED.) -/
def execSlotsave (g : Guard) (d a b : Reg) (s : State) : Host.Outcome State Fault Refusal :=
  kernelOnly (packR g 0x3D d.val a.val b.val 1) g (fun s =>
    let area := s.getX b
    match s.checkTarget (s.getX a) (decide (area.toNat % 1024 ≠ 0)) with
    | .error st => s.retX d st
    | .ok h =>
      let die := tidDie (handleTid h)
      if s.isAbsent h then s.retX d 1
      else if Config.absentEntries ≤ (s.die die).absent.length then s.retX d 4
      else
        s.access (Acc.store area 1024) (fun cs s =>
          let e := s.die die
          let s := s.setDie die { e with absent := e.absent ++ [⟨h, none, [], none⟩] }
          s.saveStep s.tid h (keyAt cs area.toNat) area.toNat (cs.any Chunk.once) d)) s

/-! ## SLOTLOAD -/

/-- Word `i` of an image. -/
def imgWord (bs : List Byte) (off : Nat) : Word := wordOf (fieldAt bs off 8)

/-- Whether a reserved bit of an image is set (R373, R374); bits 1:0 of a pc are zero always (R36). (log 71: DEDUCED.) -/
def imgReserved (bs : List Byte) : Bool :=
  let w (o : Nat) : Word := imgWord bs o
  decide (w 0x000 &&& ~~~0xFFFFFF#64 ≠ 0) || decide (w 0x008 &&& 3#64 ≠ 0) || decide (w 0x010 &&& ~~~0x33FFF#64 ≠ 0)
    || decide (w 0x018 &&& ~~~0xFFFFFFFF#64 ≠ 0) || decide (w 0x020 &&& ~~~0x73F3F#64 ≠ 0)
    || decide (w 0x028 &&& ~~~0xFF0007#64 ≠ 0) || decide (w 0x030 &&& ~~~0xFF#64 ≠ 0)
    || decide (w 0x040 &&& ~~~0xFFF#64 ≠ 0) || decide (w 0x048 &&& ~~~ptbrMask ≠ 0)
    || decide (w 0x080 ≠ codeAddr (w 0x080)) || decide (w 0x088 &&& ~~~0x3F#64 ≠ 0) || decide (w 0x090 ≠ codeAddr (w 0x090))
    || decide (w 0x098 &&& ~~~0xFF#64 ≠ 0) || decide (w 0x0B0 &&& ~~~tnodeMask ≠ 0)
    || decide (fieldAt bs 0x0C8 24 ≠ 0) || decide (w 0x1A0 &&& ~~~0x73#64 ≠ 0)

/-- The events of an image; none when a code names no cause. -/
def imgEvents (bs : List Byte) (n : Nat) : Option (List PendEvent) :=
  (List.range n).mapM (fun i =>
    let o := 0x0E0 + 24 * i
    (Cause.ofCode (fieldAt bs o 8)).map (fun c => ⟨c, imgWord bs (o + 8), imgWord bs (o + 16)⟩))

/-- The registers, CSRs and inbox of an image, in a slot that keeps its watchdog (R377). An image whose FCSR holds RM 5, 6 or 7 is
loaded with the rest of that FCSR and RM at RNE, as in a slot after reset. (log 97: DESIGN CHOICE.) -/
def Slot.load (bs : List Byte) (prv : Priv) (evs : List PendEvent) (launch : Option (Nat × Nat)) (v : Slot) : Slot :=
  let w (o : Nat) : Word := imgWord bs o
  let st := w 0x010
  let u : Slot := { Slot.reset with
    st := .run, held := st.getLsbD 7, gen := (w 0x000).extractLsb' 16 8, pc := w 0x008
    x := Vector.ofFn (fun i => if i.val = 0 then 0 else w (0x200 + 8 * i.val))
    p := Vector.ofFn (fun i => decide (i.val ≠ 0) && (w 0x030).getLsbD i.val)
    drops := (w 0x028).extractLsb' 16 8, sBad := (w 0x028).getLsbD 2, sRef := (w 0x028).getLsbD 1, sStale := (w 0x028).getLsbD 0
    wSlp := v.wSlp, wFired := v.wFired, wLimit := v.wLimit
    tvec := w 0x080, tepc := w 0x090, tcause := (w 0x098).setWidth 8, tsub := w 0x0A0, tval := w 0x0A8, tnode := w 0x0B0
    tscr0 := w 0x0B8, tscr1 := w 0x0C0
    nest := (w 0x088).getLsbD 4, pprv := (Priv.ofCode (fld (w 0x088) 2 2)).getD .user, prv := prv
    asid := (w 0x040).setWidth 12, ptbr := w 0x048
    kwin := Vector.ofFn (fun i => w (0x050 + 8 * i.val))
    work := (w 0x018).setWidth 32, inbox := if st.getLsbD 8 then some (w 0x038) else none
    queue := v.queue, events := evs, launch := launch }
  u.setFcsr (w 0x020)

/-- The d field of the instruction word at a thread's pc, fetched in its own address space; none when it cannot be. -/
def State.fieldD (t : Nat) (s : State) : State × Option Reg :=
  let v := s.slot t
  let c := v.ctx (tidSpire t)
  let (s, r) := s.checkNow c { Acc.load v.pc 4 with kind := .fetch }
  match r with
  | .pass cs =>
    let (s, bs) := State.readPieces c.g (piecesOf cs v.pc.toNat 4) s
    (s, some (Fin.ofNat 64 (leNat bs / 65536)))
  | _ => (s, none)

/-- The held answer of a restored thread (R376). (log 41: DEDUCED.) -/
def State.heldAnswer (h : BitVec 24) (s : State) : State × Option Word :=
  let d := s.die (tidDie (handleTid h))
  let mine (e : Held) : Option Word := match e with
    | .answer k w => if k = h then some w else none
    | .msg _ _ => none
  (s.setDie (tidDie (handleTid h)) { d with holding := d.holding.filter (fun e => (mine e).isNone) }, d.holding.findSome? mine)

/-- RESUME 1 (R377): the answer is given, or the thread parks SEND for it. -/
def State.resumeAnswer (t : Nat) (ansv : Bool) (answer : Word) (s : State) : State :=
  let (s, held) := s.heldAnswer ((s.slot t).handle t)
  let (s, d) := s.fieldD t
  match d with
  | none => s
  | some d =>
    match (if ansv then some answer else held) with
    | some w => s.setSlot t ((s.slot t).setX d w).resume
    | none => s.parkAt t .send (.answer d)

/-- The redirect entry of a thread (R225). -/
def Spire.redirect (sp : Spire) (h : BitVec 24) : Option Redirect := sp.redirects.find? (fun d => decide (d.handle = h))

/-- RESUME 2 (R227). -/
def State.resumeCall (t : Nat) (bs : List Byte) (s : State) : State :=
  let g := tidSpire t
  let v := s.slot t
  let st := imgWord bs 0x1A0
  let n := fld st 4 3 + 1
  if fld st 0 2 = 1 then
    s.setSlot t (v.setReturns ((List.range n).map (fun i => imgWord bs (0x1C0 + 8 * i))) 1).resume
  else if fld st 0 2 = 2 then
    s.setSlot t { v with poison := some (n, imgWord bs 0x1A8, imgWord bs 0x1B0, imgWord bs 0x1B8) }
  else
    let sp := s.spire g
    match sp.redirect (v.handle t) with
    | none => s
    | some d =>
      (s.setSpire g { sp with redirects := sp.redirects.filter (fun e => decide (e ≠ d)) }).parkAt t .srv (.flight d.region n)

/-- A thread restored from its image into its slot (R377), with the statuses that its SENDs have met since (R156). -/
def State.restore (t : Nat) (bs : List Byte) (prv : Priv) (evs : List PendEvent) (s : State) : State :=
  let h : BitVec 24 := (imgWord bs 0).setWidth 24
  let st := imgWord bs 0x010
  let own := (s.die (tidDie t)).absent.find? (fun e => decide (e.handle = h))
  let v := (s.slot t).load bs prv evs (own.bind Absent.launch)
  let s := s.setSlot t (((own.map Absent.sends).getD []).foldl (fun v st => v.sendStatus st) v)
  let s := s.unreserve h
  match fld st 4 2 with
  | 1 => s.resumeAnswer t (st.getLsbD 6) (imgWord bs 0x078)
  | 2 => s.resumeCall t bs
  | _ => s

/-- An image's effect (R377). -/
def State.loadImage (d : Reg) (bs : List Byte) (s : State) : State :=
  let h : BitVec 24 := (imgWord bs 0).setWidth 24
  let t := handleTid h
  let st := imgWord bs 0x010
  let nev := fld st 9 4
  let lost := fld st 4 2 = 2 ∧ (fld (imgWord bs 0x1A0) 0 2 = 3
    ∨ (fld (imgWord bs 0x1A0) 0 2 = 0 ∧ ((s.spire (tidSpire t)).redirect h).isNone = true))
  match Priv.ofCode (fld st 16 2), imgEvents bs (min nev 8) with
  | some prv, some evs =>
    if imgReserved bs = true ∨ fld st 4 2 = 3 ∨ 8 < nev ∨ (st.getLsbD 13 = true ∧ nev ≠ 8) ∨ tidSpire t ≠ tidSpire s.tid
        ∨ tidValid t = false ∨ s.isAbsent h = false ∨ lost then s.retX d 3
    else if s.thr.prv.code < prv.code then s.retX d 2
    else if (s.slot t).st ≠ .free then s.retX d 1
    else (s.restore t bs prv evs).retX d 0
  | _, _ => s.retX d 3

/-- SLOTLOAD (R377). -/
def execSlotload (g : Guard) (d a : Reg) (s : State) : Host.Outcome State Fault Refusal :=
  kernelOnly (packR g 0x3D d.val a.val 0 2) g (fun s =>
    let area := s.getX a
    if area.toNat % 1024 ≠ 0 then s.retX d 3
    else
      s.drained .mem (fun s => s.access (Acc.load area 1024) (fun cs s =>
        let (s, bs) := State.readPieces (tidSpire s.tid) (piecesOf cs area.toNat 1024) s
        s.loadImage d bs))) s

/-! ## SLOTCTL -/

/-- The slot-state code of R378. -/
def Slot.stateCode (v : Slot) : Nat :=
  if v.held then 4
  else match v.st with
    | .free => 0
    | .run => 1
    | .park => 2
    | .drain => 3
    | .ended => 1

/-- What QUERY reports of a slot (R378, R415). -/
def Slot.query (v : Slot) : Word :=
  wordOf (atBit (fld v.pc 2 46) 18 + atBit v.prv.code 16 + atBit v.gen.toNat 8
    + atBit ((v.park.map (fun k => k.reason.code)).getD 0) 4 + atBit (bit v.held) 3 + v.stateCode)

/-- SLOTCTL (R378). (log 39: DEDUCED.) -/
def execSlotctl (g : Guard) (d a b : Reg) (s : State) : Host.Outcome State Fault Refusal :=
  kernelOnly (packR g 0x3D d.val a.val b.val 3) g (fun s =>
    let c := s.getX b
    match s.checkTarget (s.getX a) (decide (fld c 2 62 ≠ 0) || decide (fld c 0 2 = 3)) with
    | .error st => s.retX d st
    | .ok h =>
      let t := handleTid h
      let v := s.slot t
      if fld c 0 2 = 0 then s.retX d v.query
      else (s.setSlot t { v with held := decide (fld c 0 2 = 1) }).retX d 0) s

/-! ## RGNSET -/

/-- The cells of two rectangles meet. -/
def rectsMeet (r o : Region) : Bool :=
  decide (r.orow < o.orow + o.rows ∧ o.orow < r.orow + r.rows ∧ r.ocol < o.ocol + o.cols ∧ o.ocol < r.ocol + r.cols)

/-- Whether a rectangle shares a cell with a region of its die (R293). -/
def State.overlaps (s : State) (g : Nat) (r : Region) : Bool :=
  (spiresOf g .die).any (fun h => (s.spire h).regions.any (fun e => rectsMeet r e.2))

/-- Whether a rectangle crosses an edge of its origin's anvil (R295). -/
def crossesAnvil (r : Region) : Bool :=
  decide (r.orow / 16 ≠ (r.orow + r.rows - 1) / 16 ∨ r.ocol / 40 ≠ (r.ocol + r.cols - 1) / 40)

/-- The region that a CREATE asks for (R292). -/
def regionOf (x c : Word) : Region :=
  Region.create (fld x 0 8) (8 * fld x 8 8) (fld x 24 8 + 1) (fld x 32 10 + 1) (fld c 4 2) (c.extractLsb' 20 12) (fld c 34 6)

/-- CREATE (R293, R295): the intervals of a kind-2 region's sites begin (R407). (log 35: DEDUCED.) -/
def State.createRegion (g n : Nat) (x c : Word) (s : State) : State × Word :=
  let r := regionOf x c
  if ((s.spire g).region n).isSome then (s, 1)
  else if 99 < fld x 8 8 ∨ 256 < r.orow + r.rows ∨ 800 < r.ocol + r.cols then (s, 2)
  else if r.siteSpire g 0 0 ≠ g then (s, 4)
  else if (r.kind = 2 ∧ crossesAnvil r = true) ∨ s.overlaps g r = true then (s, 2)
  else
    let s := s.setRegion g n r
    (if r.kind = 2 then s.turnIntervals g r true else s, 0)

/-- DELETE (R293, R295, R407). -/
def State.deleteRegion (g n : Nat) (s : State) : State × Word :=
  match s.region g n with
  | none => (s, 1)
  | some r =>
    if r.st ≠ .empty ∨ (r.kind = 2 ∧ r.matrix.owner.isSome = true) then (s, 5)
    else
      let s := s.turnIntervals g r false
      let sp := s.spire g
      (s.setSpire g { sp with regions := tdel n sp.regions }, 0)

/-- What RGNSET does in the table of spire `h`, and what it writes (R292, R293). -/
def State.rgnset (h : Nat) (x c : Word) (s : State) : State × Word :=
  let n := fld c 8 6
  let op := fld c 0 2
  let bad := fld c 40 24 ≠ 0 ∨ fld c 32 2 ≠ 0 ∨ fld c 14 6 ≠ 0 ∨ fld c 6 2 ≠ 0 ∨ fld c 2 2 ≠ 0 ∨ op = 3
  let badCreate := op = 0 ∧ (fld c 4 2 = 3 ∨ fld x 42 22 ≠ 0 ∨ fld x 16 8 ≠ 0 ∨ (fld c 4 2 ≠ 1 ∧ fld c 20 12 ≠ 0))
  if bad ∨ badCreate then (s, 3)
  else if op = 2 then (s, (((s.spire h).region n).map Region.rstat).getD 0)
  else if op = 1 then s.deleteRegion h n
  else s.createRegion h n x c

/-- RGNSET whose park clears (R293): the region is made or freed, if the checks still pass, and X[d] written. (log 44: DEDUCED.) -/
def State.rgnsetDone (t : Nat) (x c : Word) (d : Reg) (s : State) : State :=
  let (s, st) := s.rgnset (tidSpire t) x c
  s.setSlot t ((s.slot t).setX d st).resume

/-- RGNSET (R292 to R295): a CREATE or DELETE that passes its checks parks ENGINE. (log 44: DEDUCED.) -/
def execRgnset (g : Guard) (d a b : Reg) (s : State) : Host.Outcome State Fault Refusal :=
  kernelOnly (packR g 0x3D d.val a.val b.val 4) g (fun s =>
    let c := s.getX b
    let st := (s.rgnset (tidSpire s.tid) (s.getX a) c).2
    if st = 0 ∧ fld c 0 2 ≠ 2 then s.park .engine (.rgnset (s.getX a) c d) else s.retX d st) s

end Sys2Proof.Machine
end

