-- ==== Sys2Proof/Machine/Debug.lean ====
section
/-! DEFINITION. The TRACE family, cuts by MARK, the common trigger, snapshots, trace rings and cycle classes (R406, R407, R410 to
R418). -/

namespace Sys2Proof.Machine

/-! ## The TRACE family -/

/-- The SOURCE of a record about a thread (R417). -/
def threadSource (h : BitVec 24) : BitVec 32 := h.setWidth 32

/-- TRACE (R412). -/
def execTrace (g : Guard) (a b : Reg) (s : State) : Host.Outcome State Fault Refusal :=
  guarded g (fun s =>
    let h := tidSpire s.tid
    let ctl := (s.spire h).dbg.trctl
    if ctl.getLsbD 0 && ctl.getLsbD 1 then
      (s.traceRec h ⟨1, 0, threadSource (s.thr.handle s.tid), s.time, s.getX a, s.getX b⟩).advance
    else s.advance) s

/-- A cut abandoned or its stop released (R411, R413): markers still on their way are gone. -/
def Region.resumeCut (r : Region) : Region :=
  let drop (qs : List (PortId × List Token)) : List (PortId × List Token) :=
    (qs.map (fun q => (q.1, q.2.filter (fun t => !t.marker)))).filter (fun q => !q.2.isEmpty)
  { r with
    queues := drop r.queues, squeues := drop r.squeues, crossings := r.crossings.filter (fun c => !c.tok.marker)
    stalled := r.stalled.filter (fun k => !k.tok.marker), cut := ⟨r.cut.id, 0, false, [], []⟩ }

/-- A cut abandoned by an UNLOAD or a FORCE (R411): CUTSTAT is 0 again. -/
def Region.dropCut (r : Region) : Region := { r.resumeCut with cut := ⟨0, 0, false, [], []⟩ }

/-- MARK (R413). -/
def execMark (g : Guard) (d a : Reg) (s : State) : Host.Outcome State Fault Refusal :=
  kernelOnly (packR g 0x3E d.val a.val 0 1) g (fun s =>
    let x := s.getX a
    let h := tidSpire s.tid
    let n := fld x 0 6
    let op := fld x 24 2
    let r := s.region h n
    if op = 3 ∨ fld x 6 2 ≠ 0 ∨ fld x 26 38 ≠ 0 ∨ r.any (fun r => decide (r.kind = 2)) = true then s.retX d 3
    else
      match r with
      | none => s.retX d 1
      | some r =>
        if r.st = .empty ∨ r.st = .loading then s.retX d 1
        else if r.st = .swapping ∨ (op ≠ 2 ∧ r.cut.state = 1) then s.retX d 5
        else
          (s.setRegion h n (if op = 2 then r.resumeCut else r.startCut (x.extractLsb' 8 16) (decide (op = 1)))).retX d 0) s

/-- SNAP (R414): the trigger falls in the thread's issue cycle. (log 45: DEDUCED.) (log 48: DEDUCED.) -/
def execSnap (g : Guard) (d : Reg) (s : State) : Host.Outcome State Fault Refusal :=
  kernelOnly (packR g 0x3E d.val 0 0 2) g (fun s =>
    let h := tidSpire s.tid
    let s := s.trigger s.now
    let q := ((s.spire h).dbg.seq).setWidth 64
    (s.probeRec h 4 0 (threadSource (s.thr.handle s.tid)) q 0).retX d q) s

/-- DBGTRIG: a rising edge at the input pin (R414). -/
def execEvDbgtrig (s : State) : Host.Outcome State Fault Refusal := .next (s.trigger s.now)

/-! ## Cycle classes -/

/-- The node that a place selects (R236): in a two-armed cell the one of the arm that the ctl head names. -/
def Region.chosen (st : Site) (r : Region) : Option PNode :=
  match r.cell st with
  | [] => none
  | [n] => some n
  | ns => (r.dataHead st 3).bind (fun t => ns.find? (fun n => decide (n.arm = fld t.payload 0 1)))

/-- The ports that a node reads in its next firing (R236, R252, R254, R255), in ascending order: of a JOIN or a MUX the input that it
has chosen, of a RECIRC port a only while it admits. (log 46: DEDUCED.) -/
def Region.reads (sh : Bool) (n : PNode) (r : Region) : List Nat :=
  let op := nodeOp n.word
  let v := r.nodeState sh n.site n.arm
  let head (q : Nat) : Option Token := r.head n.site q
  if op = 0x3E then [0]
  else if op = 0x21 then [bit (v.joinsB ((nodeMod n.word).getLsbD 0) head)]
  else if op = 0x22 then
    match v.open_ with
    | some (b, _) => [bit b]
    | none =>
      match r.dataHead n.site 3 with
      | some c => [bit (c.payload.getLsbD 0), 3]
      | none => [3]
  else if op = 0x23 then
    (if (head 1).isSome ∨ ((n.exts.head?.map BitVec.toNat).getD 0 : Int) ≤ v.count then [1] else [0])
  else nodeReads op (nodeMod n.word).toNat

/-- The ports that the node selected at a place reads (R236, R406): a two-armed cell's ctl port too. -/
def Region.readPorts (sh : Bool) (st : Site) (r : Region) : List Nat :=
  match r.chosen st with
  | some n => if (r.cell st).length ≤ 1 then r.reads sh n else (r.reads sh n).filter (fun q => decide (q ≠ 3)) ++ [3]
  | none => if (r.cell st).isEmpty then [] else [3]

/-- The place whose ports feed a cell: a copy of a replicated node has its node's (R278). -/
def Region.fed (st : Site) (r : Region) : Site :=
  match (r.planeAt st).2.bind (fun p => p.nodes.find? (fun n => n.cells.contains st)) with
  | some n => n.site
  | none => st

/-- Whether the next firing of a place's node is that of the copy in a cell (R265, R278): one with no copies has all its own. -/
def Region.copyNext (sh : Bool) (base st : Site) (r : Region) : Bool :=
  (r.cell base).all (fun n => decide (n.rep ≤ 1) || decide ((n.copyAt ((r.nodeState sh base n.arm).pos % n.rep)).site = st))

/-- Whether an end-of-stream waits at a place for its shadow plane (R287, R406). -/
def Region.waitsShadow (st : Site) (r : Region) : Bool :=
  decide (r.st = .swapping) && !(r.planeAt st).1 && !r.shadowReady (r.cell st) && match r.cellTurn st with
    | .ends _ k _ => decide (k = .endStream)
    | .ret t => decide (t.kind = .endStream)
    | _ => false

/-- The class of a place (R406), as the index of its LIVE counter; a copy of a replicated node that is not the next to fire has no
token (R265). (log 46: DEDUCED.) -/
def Region.placeClass (st : Site) (r : Region) : Nat :=
  let sh := (r.planeAt st).1
  let base := r.fed st
  if r.st = .loading ∨ r.waitsShadow base = true then 7
  else if r.fired.contains st then 0
  else if r.drainCells.contains st then 5
  else if (r.cell base).isEmpty || (r.cut.stop && decide (r.cut.state = 1 ∨ r.cut.state = 3) && r.cut.passed.contains base)
      || !r.copyNext sh base st then 8
  else
    match (r.readPorts sh base).find? (fun q => (r.head base q).isNone) with
    | some q => if (r.connected base).any (fun p => (r.head base p).isSome) then 1 + q else 8
    | none =>
      match r.chosen base with
      | none => 8
      | some n => if !r.outRoom sh n (4 * n.arm) then 5 else if !r.outRoom sh n (4 * n.arm + 1) then 6 else 8

/-- The places of a region's planes, each once. -/
def Region.places (r : Region) : List Site :=
  ((r.active.map (fun p => p.nodes.flatMap PNode.cells)).getD []
    ++ (r.shadow.map (fun p => p.nodes.flatMap PNode.cells)).getD []).eraseDups

/-- The slot or cell that a place is part of: the two nodes of an entry-return slot share theirs (R231, R406). -/
def Site.slot (st : Site) : Site := if st.unit = 14 then { st with unit := 13 } else st

/-- The class of a cell or slot (R406): the first row of the table that fits one of its places. -/
def Region.slotClass (sl : Site) (r : Region) (ps : List Site) : Nat :=
  let cs := (ps.filter (fun st => decide (st.slot = sl))).map r.placeClass
  if cs.contains 7 then 7 else cs.foldl min 8

/-- A cycle of the cells and slots of a region (R406, R407): each has one class; IDLE is what remains. -/
def State.sampleRegion (g n : Nat) (r : Region) (s : State) : State :=
  let s :=
    if r.st = .loading then r.sites.foldl (fun s x => s.mapRegionSite g r x.1 x.2 (SiteCount.add 7 (slotsOf x.2))) s
    else
      let ps := (r.places ++ r.drainCells ++ r.fired).eraseDups
      (ps.map Site.slot).eraseDups.foldl (fun s sl =>
        let c := r.slotClass sl ps
        if c = 8 then s else s.mapRegionSite g r sl.row sl.col (SiteCount.add c 1)) s
  s.mapRegion g n (fun r => { r with fired := [], spent := [] })

/-- Whether the anvils of a spire have a cycle at the present one (R419). -/
def State.ticks (s : State) (g : Nat) : Bool :=
  decide (s.islandCycles (3 * g + 1) ≠ ({ s with now := s.now - 1 } : State).islandCycles (3 * g + 1))

/-- The end of a cycle in every region whose anvils have one: the classes counted (R406), and what tokens on their way come to
(R236, R274, R409). -/
def State.cycleEnds (s : State) : State :=
  s.spires.foldl (fun s e =>
    if s.ticks e.1 then e.2.regions.foldl (fun s x => (s.sampleRegion e.1 x.1 x.2).arrivals e.1 x.1) s else s) s

/-! ## Snapshots -/

/-- Bits 86:64 of a token (R232), with the presence bit of R415. -/
def Token.upper (t : Token) : Word :=
  let body := atBit (bit t.poison) 21 + atBit t.tag.toNat 13 + atBit t.dim 10 + atBit t.kind.code 8 + t.valid.toNat
  let ones (w n : Nat) : Nat := ((List.range w).map (fun i => n / 2 ^ i % 2)).sum
  wordOf (atBit 1 23 + atBit ((ones 22 body + ones 64 t.payload.toNat) % 2) 22 + body)

/-- SSTAT (R415). -/
def sstatWord (seq cls : Nat) (depths : Nat) : Word := wordOf (atBit seq 48 + atBit cls 16 + depths)

/-- The first token of a port's queue (R288, R415): the active plane's stand before the shadow plane's. -/
def Region.front (st : Site) (q : Nat) (r : Region) : Option Token :=
  (queueOf ⟨st, q⟩ r.queues ++ queueOf ⟨st, q⟩ r.squeues).head?.filter (fun t => decide (t.due ≤ r.clock))

/-- The snapshot of a compute site of a region (R415). -/
def Region.siteSnap (seq : Nat) (row col : Nat) (r : Region) : List (Nat × Word) :=
  let st : Site := ⟨row, col, 0⟩
  let waits (q : Nat) : Nat := ((queueOf ⟨st, q⟩ r.queues ++ queueOf ⟨st, q⟩ r.squeues).filter (fun t => decide (t.due ≤ r.clock))).length
  let depth (q : Nat) : Nat := min (waits q) portDepth * 16 ^ q
  (0xA0, sstatWord seq (r.placeClass st) (depth 0 + depth 1 + depth 2 + depth 3))
    :: (List.range 4).flatMap (fun q => match r.front st q with
      | some t => [(0xB0 + 16 * q, t.payload), (0xB8 + 16 * q, t.upper)]
      | none => [])

/-- Free values drawn for a list of offsets (log 3). -/
def State.freeAt : List Nat → State → State × List (Nat × Word)
  | [], s => (s, [])
  | o :: rest, s =>
    let (s, w) := s.freeWord
    let (s, l) := State.freeAt rest s
    (s, (o, w) :: l)

/-- The snapshot of a port-column site of a region: how its slots share SSTAT and the head tokens is not stated, so all but SEQ
is a free value (log 3). -/
def State.slotSnap (seq : Nat) (s : State) : State × List (Nat × Word) :=
  let (s, w) := s.freeWord
  let (s, l) := State.freeAt [0xB0, 0xB8, 0xC0, 0xC8, 0xD0, 0xD8, 0xE0, 0xE8] s
  (s, (0xA0, sstatWord seq 0 0 ||| (w &&& 0x1FFFFF#64)) :: l)

/-- A site of a region of spire `g` latched (R415), when its counters are those of spire `h`. (log 46: DESIGN CHOICE.) -/
def State.latchSite (h seq g : Nat) (r : Region) (s : State) (x : Nat × Nat) : State :=
  if r.siteSpire g x.1 x.2 ≠ h then s
  else
    let (s, l) := if portColumn (r.ocol + x.2) then s.slotSnap seq else (s, r.siteSnap seq x.1 x.2)
    s.mapSite h (r.siteKey x.1 x.2) (fun c => { c with snap := l })

/-- Every site of a spire latched (R415): IDLE and empty outside the regions. -/
def State.latchSites (h : Nat) (s : State) : State :=
  let seq := (s.spire h).dbg.seq.toNat
  let s := (List.range 2560).foldl (fun s k => s.mapSite h k (fun c => { c with snap := [(0xA0, sstatWord seq 8 0)] })) s
  (spiresOf h .die).foldl (fun s g =>
    (s.spire g).regions.foldl (fun s e => e.2.sites.foldl (State.latchSite h seq g e.2) s) s) s

/-- The slots, channels and contexts latched (R416). -/
def State.latchBlock (h : Nat) (s : State) : State :=
  let sp := s.spire h
  let slots := (List.range 256).map (fun i => (i, (s.slot (mkTid h (i / 16) (i % 16))).query))
  let chans := (List.range 16).flatMap (fun ch =>
    [(2 * ch, (sp.channel ch).cstat), (2 * ch + 1, (sp.channel ch).wm.setWidth 64)])
  let ctxs := [0, 1].map (fun c => (c, (sp.context c).reg false 0))
  s.setSpire h { sp with dbg := { sp.dbg with
    arm := false, latchAt := none, slotsnap := slots, chsnap := chans, mcsnap := ctxs } }

/-- SNAPSHOT_LATCH: an armed spire latches at the 16th cycle after the trigger (R414, R415, R416). -/
def execEvSnapshotLatch (spire : Nat) (s : State) : Host.Outcome State Fault Refusal :=
  match (s.spire spire).dbg.latchAt with
  | none => .next s
  | some c => if c ≤ s.now then .next ((s.latchSites spire).latchBlock spire) else .next s

/-! ## Trace rings -/

/-- The bytes of a trace record (R417). -/
def TraceRec.bytes (r : TraceRec) : List Byte :=
  leBytes 8 (atBit r.source.toNat 32 + atBit (r.sub % 256) 8 + r.kind % 256) ++ leBytes 8 r.time.toNat
    ++ leBytes 8 r.data0.toNat ++ leBytes 8 r.data1.toNat

/-- TRACE_WRITE: the oldest record of a spire's FIFO is written to its ring, while the ring has room (R418).
(log 47: DESIGN CHOICE.) -/
def execEvTraceWrite (spire : Nat) (s : State) : Host.Outcome State Fault Refusal :=
  let sp := s.spire spire
  let d := sp.dbg
  match d.fifo with
  | [] => .next s
  | r :: rest =>
    if (d.trw - d.trr).toNat < 2 ^ d.trsize then
      let k := d.trbase.toNat + 32 * (d.trw.toNat % 2 ^ d.trsize)
      let s := s.setSpire spire { sp with dbg := { d with fifo := rest, trw := d.trw + 1 } }
      .next (if (s.home k).cached then s.homeStore spire k r.bytes else s)
    else .next s

end Sys2Proof.Machine
end

