-- ==== Sys2Proof/Machine/Command.lean ====
section
/-! DEFINITION. Host command queues: register writes from outside, packets, the start of commands, LAUNCH, BIND, WAIT, SIGNAL,
REGION, COPY, FENCE, and the completion of commands (R290, R291, R379, R384 to R397, R399, R400, R408, R437). -/

namespace Sys2Proof.Machine

/-! ## Registers written from outside -/

/-- Whether the host's writes reach a die (R14, R426, R428): die 0 has the link, and the die accepts queue writes. -/
def State.hostReaches (s : State) (die : Nat) : Bool := s.die0.booted && (s.die die).booted

/-- Whether a die exposes its register block to the host (R14, R384, R428): one in RECOVERY still does; die 1's lies across the
bridge of a working die 0. -/
def State.hostSees (s : State) (die : Nat) : Bool := decide (die = 0) || s.die0.booted

/-- The offset in the device-register range of an offset of BAR0 (R384). -/
def barOffset (o : Nat) : Option Nat :=
  if o < 0x40000 then some (0x1000000000 + o)
  else if o < 0x60000 then some (0x1100000000 + (o - 0x40000))
  else none

/-- Whether the host reaches a register of the queues or of a die (R384, R428). -/
def State.hostOpen (s : State) (o : Nat) : Bool :=
  if 0x1000000000 ≤ o ∧ o < 0x1000040000 then s.hostReaches (o / 0x1000 % 64 / 32)
  else if 0x1100000000 ≤ o ∧ o < 0x1100020000 then s.hostSees (o / 0x10000 % 2)
  else true

/-- The host writes bytes at an offset of BAR0 (R384, R448). -/
def State.barWrite (o : Nat) (bs : List Byte) (s : State) : State :=
  (regCuts (bs.length / 8 + 2) o bs).foldl (fun s c =>
    match barOffset c.1 with
    | some k => if s.hostOpen k then s.devPiece (deviceBase + k) c.2 else s
    | none => s) s

/-- The host reads `n` bytes at an offset of BAR0 (R384, R448); what it reads where BAR0 exposes nothing, the spec does not say.
(log 90: DESIGN CHOICE.) -/
def State.barRead (o n : Nat) (s : State) : State :=
  (regCuts (n / 8 + 2) o (List.replicate n 0)).foldl (fun s c =>
    let m := c.2.length
    let (s, bs) := match barOffset c.1 with
      | some k => if s.hostOpen k then (s, s.devRead (deviceBase + k) m) else State.peerBytes m s
      | none => State.peerBytes m s
    { s with barData := s.barData ++ bs }) { s with barData := [] }

/-- A queue changed by a host write. -/
def State.hostQueue (q : Nat) (f : State → State) (s : State) : Host.Outcome State Fault Refusal :=
  .next (if s.hostReaches (q / 32) then f s else s)

/-- WIDX_WRITE: the doorbell (R386). -/
def execEvWidxWrite (q v : Nat) (s : State) : Host.Outcome State Fault Refusal :=
  s.hostQueue q (fun s => s.setQueue q ((s.queue q).writeWidx (BitVec.ofNat 32 v)))

/-- QSTAT_ERR: 1 written to ERR (R385, R386). -/
def execEvQstatErr (q : Nat) (s : State) : Host.Outcome State Fault Refusal :=
  s.hostQueue q (fun s => s.setQueue q (s.queue q).writeErr)

/-- QSTAT_FAULT: 1 written to FAULT (R385, R396). -/
def execEvQstatFault (q : Nat) (s : State) : Host.Outcome State Fault Refusal := s.hostQueue q (State.writeFault q)

/-- QSTAT_ABORT: 1 written to ABORT (R385, R396). -/
def execEvQstatAbort (q : Nat) (s : State) : Host.Outcome State Fault Refusal := s.hostQueue q (State.writeAbort q)

/-- EVR_WRITE: the host has read events (R385, R401). -/
def execEvEvrWrite (q v : Nat) (s : State) : Host.Outcome State Fault Refusal :=
  s.hostQueue q (State.writeQueueReg q 0x48 (BitVec.allOnes 64) (wordOf v))

/-- REFUSED_WRITE (R280, R291). -/
def execEvRefusedWrite (spire region v : Nat) (s : State) : Host.Outcome State Fault Refusal :=
  .next (s.mapRegion spire region (Region.setRefused (BitVec.ofNat 32 v)))

/-- NODE_STATE_WRITE: a write at an offset of a region's node-state registers (R290). -/
def execEvNodeStateWrite (spire region o : Nat) (s : State) : Host.Outcome State Fault Refusal :=
  .next (s.mapRegion spire region (Region.clearNode (o / 0x200) (o % 0x200 / 8) (BitVec.allOnes 64)))

/-- RCTL_WRITE (R379, R380, R314). -/
def execEvRctlWrite (spire region v : Nat) (s : State) : Host.Outcome State Fault Refusal :=
  .next (s.mapRegion spire region (Region.setHalt (decide (v % 2 = 1))))

/-- BKCFG_WRITE: BKCFGk (R408, R409). -/
def execEvBkcfgWrite (spire region k v : Nat) (s : State) : Host.Outcome State Fault Refusal :=
  .next (s.mapRegion spire region (Region.write (0x40 + 16 * (k % 4)) (BitVec.allOnes 64) (wordOf v)))

/-- REGISTER_WRITE: the register at an offset of the device range (R7, R448), where the host reaches it (R428). -/
def execEvRegisterWrite (o v : Nat) (s : State) : Host.Outcome State Fault Refusal :=
  .next (if s.hostOpen o then s.writeDevReg (o / 8 * 8) (BitVec.allOnes 64) (wordOf v) else s)

/-! ## Packets -/

/-- Where a packet lies (R386). -/
def Queue.packetAt (v : Queue) (i : BitVec 32) : Nat := ringKey v.loc v.qbase + 64 * (i.toNat % 2 ^ v.log2n)

/-- The words of a packet (R386, R388). -/
def State.packet (s : State) (q : Nat) (i : BitVec 32) : Vector Word 8 :=
  let k := (s.queue q).packetAt i
  Vector.ofFn (fun j => if s.ringMemory (k + 8 * j.val) then wordOf (leNat (s.homeRead (k + 8 * j.val) 8)) else 0)

/-- The bits that words 2 to 6 of an opcode may set (R389); none for an unknown opcode. -/
def packetMask (op : Nat) : Option (List Word) :=
  let all := BitVec.allOnes 64
  match op with
  | 1 => some [all, all, 0x3FFFFFFFFFFFF, all, 0]
  | 2 => some [0x3FFF, all, 0xFF, 0, 0]
  | 3 => some [all, 3, 0, 0, 0]
  | 4 => some [all, 3, all, 0, 0]
  | 5 => some [all, 3, all, 0xFF, 0]
  | 6 => some [all, all, 0xFF, 0, 0]
  | 7 => some [0xFFF, all, all, all, 0xF]
  | 8 => some [0, 0, 0, 0, 0]
  | _ => none

def packetOp (ws : Vector Word 8) : Nat := fld ws[0] 0 8
/-- The SIG and IRQ flags of a packet (R388), and whether BARRIER, FENCE or SIGNAL makes it wait for earlier ones (R387). -/
def packetSig (ws : Vector Word 8) : Bool := ws[0].getLsbD 8 && decide (ws[1] ≠ 0)
def packetIrq (ws : Vector Word 8) : Bool := ws[0].getLsbD 9
def packetWaits (ws : Vector Word 8) : Bool := ws[0].getLsbD 10 || decide (packetOp ws = 4 ∨ packetOp ws = 8)
/-- The COUNT, FIRST, LAST and PRIV of a LAUNCH (R389). -/
def launchCount (ws : Vector Word 8) : Nat := fld ws[4] 0 32
def launchFirst (ws : Vector Word 8) : Nat := fld ws[4] 32 8
def launchLast (ws : Vector Word 8) : Nat := fld ws[4] 40 8
def launchPriv (ws : Vector Word 8) : Nat := fld ws[4] 48 2

/-- Whether the fields of a packet lie in their ranges (R388, R389, R391). -/
def packetFields (ws : Vector Word 8) (masks : List Word) : Bool :=
  let op := packetOp ws
  let spire (w : Word) : Bool := decide (fld w 0 8 < Config.spires)
  let extra := [ws[2], ws[3], ws[4], ws[5], ws[6]].zip masks |>.any (fun x => decide (x.1 &&& ~~~x.2 ≠ 0))
  decide (fld ws[0] 11 21 = 0 ∧ ws[7] = 0) && !extra
    && (decide (op ≠ 1) || decide (1 ≤ launchCount ws ∧ launchFirst ws ≤ launchLast ws ∧ launchLast ws < Config.spires
      ∧ launchPriv ws ≤ 1 ∧ ws[2].toNat % 4 = 0))
    && (decide (op ≠ 2) || (spire ws[2] && decide (1 ≤ ws[4].toNat ∧ ws[4].toNat ≤ 64)))
    && (decide (op ≠ 4 ∧ op ≠ 5) || decide (ws[3].toNat ≠ 3))
    && (decide (op ≠ 5) || decide (1 ≤ ws[5].toNat ∧ ws[5].toNat ≤ 64))
    && (decide (op ≠ 6) || spire ws[4])
    && (decide (op ≠ 7) || (spire ws[2] && decide (1 ≤ ws[6].toNat ∧ ws[6].toNat ≤ 8)))

/-- The code with which a packet halts its queue (R389), if it does. -/
def Queue.badPacket (v : Queue) (ws : Vector Word 8) : Option (BitVec 8) :=
  match packetMask (packetOp ws) with
  | none => some 0x40#8
  | some masks =>
    if !packetFields ws masks then some 0x41#8
    else if !v.privk && (decide (packetOp ws = 6) || (decide (packetOp ws = 1) && decide (launchPriv ws = 1))) then some 0x47#8
    else none

/-! ## Starts -/

/-- Whether a started command holds back later starts (R387, R392). -/
def Cmd.blocks (c : Cmd) : Bool :=
  match c.work with
  | .wait => true
  | .launch placed _ _ => !c.done && decide (placed < launchCount c.words)
  | _ => false

/-- Whether a queue can start its next command (R386, R387). -/
def State.canStart (s : State) (q : Nat) : Bool :=
  let v := s.queue q
  v.en && !v.err && decide (v.widx ≠ v.ridx) && !v.cmds.any Cmd.blocks
    && (v.cmds.isEmpty || !packetWaits (s.packet q v.ridx))

/-- How long after the queue served last a queue's turn comes (R387). -/
def Die.turn (d : Die) (die q : Nat) : Nat := (q + 64 - d.served.getD (32 * die + 31) - 1) % 32

/-- Whether a die that accepts commands, its lantern powered, starts a command of this queue next (R16, R34, R387, R428). -/
def State.chosen (s : State) (q : Nat) : Bool :=
  let die := q / 32
  let d := s.die die
  let before (r : Nat) : Bool := decide ((s.queue q).prio < (s.queue r).prio)
    || (decide ((s.queue q).prio = (s.queue r).prio) && decide (d.turn die r < d.turn die q))
  d.booted && decide ((s.island (480 + 16 * die + 11)).st = 1) && decide (q < 64) && s.canStart q
    && !((List.range 32).any (fun i => s.canStart (32 * die + i) && before (32 * die + i)))

/-- A command started (R387, R389): a bad packet halts the queue, and so does one with an uncorrectable error (R425); a packet of
another kind is left. (log 57: DESIGN CHOICE.) (log 92: DEDUCED.) -/
def State.startCmd (q : Nat) (mine : Vector Word 8 → Bool) (work : Vector Word 8 → CmdWork) (act : Cmd → State → State)
    (s : State) : State :=
  if !s.chosen q then s
  else
    let v := s.queue q
    let ws := s.packet q v.ridx
    let served (s : State) : State := s.setDie (q / 32) { s.die (q / 32) with served := some q }
    let k := v.packetAt v.ridx
    if (s.badIn k 64).isSome then served ((s.heal k 64).setQueue q (v.halt (BitVec.ofNat 8 Cause.pageR.code)))
    else
    match v.badPacket ws with
    | some code => served (s.setQueue q (v.halt code))
    | none =>
      if !mine ws then s
      else
        let c : Cmd := ⟨v.ridx, ws, work ws, none, false, false⟩
        act c (served (s.setQueue q { v with ridx := v.ridx + 1, cmds := v.cmds ++ [c] }))

/-- A command's access tried again, for the first started command that waits for it; otherwise the next packet started. -/
def State.runCmd (q : Nat) (pending : Cmd → Bool) (mine : Vector Word 8 → Bool) (work : Vector Word 8 → CmdWork)
    (act : Cmd → State → State) (s : State) : State :=
  match (s.queue q).cmds.find? (fun c => pending c && !c.done && c.stalled.isNone) with
  | some c => act c s
  | none => s.startCmd q mine work act

def isOp (op : Nat) (ws : Vector Word 8) : Bool := decide (packetOp ws = op)
def isOpSub (op sub : Nat) (ws : Vector Word 8) : Bool := isOp op ws && decide (fld ws[3] 0 2 = sub)

/-- A command has nothing more to do: its completion follows. -/
def State.cmdDone (q : Nat) (c : Cmd) (s : State) : State := s.updateCmd q c.idx.toNat (fun c => { c with done := true })

def State.setWork (q : Nat) (c : Cmd) (w : CmdWork) (s : State) : State :=
  s.updateCmd q c.idx.toNat (fun c => { c with work := w })

/-! ## The lantern's accesses -/

/-- The rights of a queue's commands (R391, R396): the queue's address space, for an agent of spire `g`. -/
def Queue.ctx (v : Queue) (g : Nat) : Ctx := ⟨g, v.asid, v.ptbr, Vector.replicate 5 0, .lantern⟩

/-- The lantern of a queue's die as an agent: of no spire, its number follows those of the spires. (log 40: DEDUCED.) -/
def State.lanternCtx (s : State) (q : Nat) : Ctx := (s.queue q).ctx (Config.spires + q / 32)

/-- The bytes of checked runs at their homes. -/
def State.chunkBytes (s : State) (cs : List Chunk) : List Byte :=
  cs.flatMap (fun k => if s.home k.key = .device then s.devRead k.key k.len else s.homeRead k.key k.len)

/-- A read by the lantern in a queue's address space, at the homes. -/
def State.lanternRead (c : Ctx) (a : Acc) (s : State) : State × Except Flt (List Byte) :=
  let (s, v) := s.engineCheck c a false
  match v with
  | .pass cs => (s, .ok (s.chunkBytes cs))
  | .fault f => (s, .error f)
  | .miss va | .hold (⟨va, _, _, _, _, _⟩ :: _) => (s, .error (fltAt .pageR 4 va))
  | .hold [] => (s, .error (fltAt .pageR 4 a.va.toNat))

/-- COND on a word (R62, R395): COND 0 reads none, COND 3 asks for no full/empty bit. (log 94: DESIGN CHOICE.) -/
def State.condHolds (c : Ctx) (cond : Nat) (va : Word) (s : State) : State × Except Flt Bool :=
  if cond = 0 then (s, .ok true)
  else
    let a : Acc := { Acc.load va 8 with strict := true, sync := decide (cond = 1 ∨ cond = 2) }
    let (s, v) := s.engineCheck c a false
    match v with
    | .pass cs =>
      let w := wordOf (leNat (s.chunkBytes cs))
      let full := s.isFull (keyAt cs va.toNat)
      (s, .ok (if cond = 1 then full else if cond = 2 then !full else decide (cbArrived w = cbPending w)))
    | .fault f => (s, .error f)
    | .miss _ | .hold _ => (s, .error (fltAt .pageR 4 va.toNat))

/-! ## LAUNCH -/

/-- A started LAUNCH in its die's FIFO (R392). -/
def State.enterFifo (q : Nat) (c : Cmd) (s : State) : State :=
  let d := s.die (q / 32)
  if d.fifo.contains (q, c.idx) then s else s.setDie (q / 32) { d with fifo := d.fifo ++ [(q, c.idx)] }

/-- A LAUNCH enters its die's FIFO as it starts, and its argument block is read (R391, R392). (log 61: DEDUCED.) -/
def State.launchArgs (q : Nat) (c : Cmd) (s : State) : State :=
  let s := s.enterFifo q c
  if c.words[3] = 0 then s.setWork q c (.launch 0 0 (List.replicate 8 0))
  else
    let (s, r) := s.lanternRead (s.lanternCtx q) (Acc.load c.words[3] 64)
    match r with
    | .error f => s.stallCmd q c.idx.toNat f
    | .ok bs => s.setWork q c (.launch 0 0 ((List.range 8).map (fun i => wordOf (fieldAt bs (8 * i) 8))))

/-- LAUNCH (R389, R391). -/
def execEvLaunch (q : Nat) (s : State) : Host.Outcome State Fault Refusal :=
  .next (s.runCmd q (fun c => decide (c.work = .launch 0 0 [])) (isOp 1) (fun _ => .launch 0 0 []) (State.launchArgs q))

/-- The first FREE slot of a range in ascending spire, core and slot, of cores that are powered (R392, R419). (log 62: DEDUCED.) -/
def State.launchSlot (s : State) (first last : Nat) : Option Nat :=
  ((List.range (last + 1 - first)).filter (fun i => decide ((s.island (3 * (first + i))).st = 1))).findSome?
    (fun i => (List.range 16).findSome? (fun c => s.freeSlot (first + i) c))

/-- The KWIN words of a LAUNCH (R391). -/
def launchKwin (first last : Nat) : Vector Word 5 :=
  Vector.ofFn (fun i => wordOf (((List.range 32).map (fun b =>
    if first ≤ 32 * i.val + b ∧ 32 * i.val + b ≤ last then 3 * 2 ^ (2 * b) else 0)).sum))

/-- A thread of a LAUNCH started in a slot (R138, R391). -/
def State.placeThread (q : Nat) (c : Cmd) (n : Nat) (args : List Word) (t : Nat) (s : State) : State :=
  let v := s.queue q
  let ws := c.words
  let prv : Priv := if launchPriv ws = 1 then .kernel else .user
  s.claim t s.now s.now (fun u =>
    { u.setArgs args with
      pc := ws[2], work := BitVec.ofNat 32 n, asid := v.asid, ptbr := v.ptbr, tvec := codeAddr ws[5], prv := prv
      kwin := launchKwin (launchFirst ws) (launchLast ws), launch := some (q, c.idx.toNat) })

/-- The LAUNCHes of a FIFO with threads still to place, oldest first: queue and command. -/
def State.launches (s : State) (die : Nat) : List (Nat × Cmd) :=
  (s.die die).fifo.filterMap (fun e =>
    ((s.queue e.1).cmds.find? (fun c => decide (c.idx = e.2) && !c.done)).map (fun c => (e.1, c)))

/-- One thread placed, of the oldest LAUNCH that can place one (R392): `older` holds those before it; one whose arguments are still to
be read places none. -/
def State.placeFrom (die : Nat) : List (Nat × Cmd) → List Cmd → State → State
  | [], _, s => s
  | (q, c) :: rest, older, s =>
    let first := launchFirst c.words
    let last := launchLast c.words
    let held := older.any (fun o => decide (launchFirst o.words ≤ last ∧ first ≤ launchLast o.words))
    match c.work, (if held then none else s.launchSlot first last) with
    | .launch _ _ [], _ => State.placeFrom die rest (older ++ [c]) s
    | .launch placed exited args, some t =>
      let s := (s.placeThread q c placed args t).setWork q c (.launch (placed + 1) exited args)
      if placed + 1 < launchCount c.words then s
      else
        let d := s.die die
        s.setDie die { d with fifo := d.fifo.filter (fun e => decide (e ≠ (q, c.idx))) }
    | _, _ => State.placeFrom die rest (older ++ [c]) s

/-- LAUNCH_PLACE: the lantern places the next thread that it can (R139, R392). -/
def execEvLaunchPlace (die : Nat) (s : State) : Host.Outcome State Fault Refusal :=
  .next (State.placeFrom die (s.launches die) [] s)

/-! ## BIND -/

/-- A descriptor (R394) with its BINDING entry; none where it is malformed. -/
def readDesc (entries : List BindEntry) (bs : List Byte) : Option BindDesc :=
  let d : BindDesc := ⟨fieldAt bs 0 4, imgWord bs 8, fieldAt bs 16 8⟩
  if fieldAt bs 4 4 = 0 ∧ fieldAt bs 24 8 = 0 ∧ d.len % 8 = 0 ∧ d.entry < entries.length then some d else none

/-- The ports of a BIND (R394, R437): those of its descriptors, in descriptor order, and every SINK port. -/
def boundPorts (entries : List BindEntry) (ds : List BindDesc) : List BoundPort :=
  (List.range entries.length).filterMap (fun i =>
    let mine := ds.filter (fun d => decide (d.entry = i))
    let sink := (entries[i]?).any BindEntry.sink
    if mine.isEmpty && !sink then none else some ⟨i, mine, 0, false, false, false, false, mine.isEmpty⟩)

/-- A BIND reads its descriptor array (R394, R396): it is then in force. -/
def State.bindRead (q : Nat) (c : Cmd) (s : State) : State :=
  let g := fld c.words[2] 0 8
  let n := fld c.words[2] 8 6
  let k := c.words[4].toNat
  let v := s.queue q
  let (s, o) := s.lanternRead (s.lanternCtx q) (Acc.load c.words[3] (32 * k))
  match o with
  | .error f => s.stallCmd q c.idx.toNat f
  | .ok bs =>
    let entries := ((s.region g n).map Region.entries).getD []
    match (List.range k).mapM (fun i => readDesc entries ((bs.drop (32 * i)).take 32)) with
    | none => s.failCmd q c.idx.toNat 0x41 0
    | some ds =>
      let b : BindState := ⟨q, c.idx.toNat, v.asid, v.ptbr, boundPorts entries ds, 0, []⟩
      s.mapRegion g n (fun r => { r with
        binds := r.binds ++ [b], casid := v.asid, cptbr := v.ptbr, cprv := .lantern })

/-- A BIND starts (R394, R437): the check of its region, made once, then the reading. -/
def State.bindStart (q : Nat) (c : Cmd) (s : State) : State :=
  if (s.region (fld c.words[2] 0 8) (fld c.words[2] 8 6)).any (fun r => decide (r.kind = 1 ∧ r.st = .placed)) then s.bindRead q c
  else s.failCmd q c.idx.toNat 0x41 0

/-- Whether a BIND has still to read its descriptors. -/
def State.bindPending (s : State) (q : Nat) (c : Cmd) : Bool :=
  match c.work with
  | .bind g n => !((s.region g n).any (fun r => r.binds.any (fun b => decide (b.queue = q ∧ b.packet = c.idx.toNat))))
  | _ => false

/-- BIND (R389, R394, R437). -/
def execEvBind (q : Nat) (s : State) : Host.Outcome State Fault Refusal :=
  match (s.queue q).cmds.find? (fun c => s.bindPending q c && !c.done && c.stalled.isNone) with
  | some c => .next (s.bindRead q c)
  | none => .next (s.startCmd q (isOp 2) (fun ws => .bind (fld ws[2] 0 8) (fld ws[2] 8 6)) (State.bindStart q))

/-- The port of an entry in a BIND. -/
def BindState.port (b : BindState) (k : Nat) : Option BoundPort := b.ports.find? (fun p => decide (p.entry = k))

/-- A port of a BIND changed. -/
def Region.mapPort (b : BindState) (k : Nat) (f : BoundPort → BoundPort) (r : Region) : Region :=
  { r with binds := r.binds.map (fun a =>
      if a.queue = b.queue ∧ a.packet = b.packet then
        { a with ports := a.ports.map (fun p => if p.entry = k then f p else p) }
      else a) }

/-- The first descriptor of a port is used up: the next follows, or the port has closed its last (R437). -/
def BoundPort.nextDesc (p : BoundPort) : BoundPort :=
  { p with descs := p.descs.drop 1, moved := 0, ended := (p.descs.drop 1).isEmpty }

/-- An end-of-stream counted at a sink (R62). -/
def Region.countEos (k : Nat) (r : Region) : Region :=
  if (r.entries[k]?).any BindEntry.sink then { r with sinkEos := tset k ((tget k r.sinkEos).getD 0 + 1) r.sinkEos } else r

/-- The rights of a BIND's accesses (R394): the region's owning spire in the queue's address space. -/
def BindState.ctx (b : BindState) (g : Nat) : Ctx := ⟨g, b.asid, b.ptbr, Vector.replicate 5 0, .lantern⟩

/-- A port's access faults (R394, R396): the port is held and its BIND stalls. -/
def State.portStalls (g n : Nat) (b : BindState) (k : Nat) (f : Flt) (s : State) : State :=
  (s.mapRegion g n (Region.mapPort b k (fun p => { p with held := true }))).stallCmd b.queue b.packet f

/-- The node of a kind at a place in the plane that the place serves. -/
def Region.portNode (r : Region) (op : Nat) (st : Site) : Option PNode :=
  ((r.planeAt st).2.bind (fun p => p.nodeAt st)).filter (fun n => decide (nodeOp n.word = op))

/-- One step of an inbound port (R394, R437). -/
def State.inboundStep (g n : Nat) (r : Region) (b : BindState) (p : BoundPort) (d : BindDesc) (node : PNode) (s : State) : State :=
  if 8 * p.moved < d.len then
    let (s, o) := s.engineRead (b.ctx g) (d.base + wordOf (8 * p.moved)) 8 true
    match o with
    | .ok bs =>
      let last := decide (8 * (p.moved + 1) = d.len)
      let t : Token := ⟨false, 0, if last then 1 else 0, .data, 0xFF, wordOf (leNat bs), 0⟩
      (s.mapRegion g n (Region.mapPort b p.entry (fun p => { p with moved := p.moved + 1 }))).enterPort g n node.outside t
    | .error (.fault f) => s.portStalls g n b p.entry f
    | .error _ => s
  else
    (s.setRegion g n ((r.mapPort b p.entry BoundPort.nextDesc).countEos p.entry)).enterPort g n node.outside (endToken .endStream 0 false)

/-- BIND_INBOUND: the inbound port of entry `k` sends its next token (R394, R437). (log 17: DESIGN CHOICE.) -/
def execEvBindInbound (spire region k : Nat) (s : State) : Host.Outcome State Fault Refusal :=
  match s.region spire region with
  | none => .next s
  | some r =>
    match r.entries[k]?, r.binds.find? (fun b => (b.port k).any (fun p => !p.descs.isEmpty)) with
    | some e, some b =>
      match (b.port k).map (fun p => (p, p.descs)), r.portNode 0x3E e.site with
      | some (p, d :: _), some node =>
        if e.dir = 0 ∧ p.held = false ∧ b.ports.any BoundPort.lost = false ∧ r.hasRoom node.outside = true then .next (s.inboundStep spire region r b p d node)
        else .next s
      | _, _ => .next s
    | _, _ => .next s

/-- The RETURN places of a region's planes. -/
def Region.returnSites (r : Region) : List Site :=
  let of (p : Option Plane) : List Site :=
    (p.map (fun q => (q.nodes.filter (fun n => decide (nodeOp n.word = 0x3F))).map PNode.site)).getD []
  (of r.active ++ of r.shadow).eraseDups

/-- The outbound place of index `k`: the entry's, or beyond the entries a RETURN that no entry names. -/
def Region.outboundSite (r : Region) (k : Nat) : Option Site :=
  match r.entries[k]? with
  | some e => if e.dir = 1 then some e.site else none
  | none => (r.returnSites.filter (fun st => !r.entries.any (fun e => decide (e.site = st))))[k - r.entries.length]?

/-- The first token of an outbound place taken away. -/
def Region.takeOut (st : Site) (r : Region) : Region :=
  let q : PortId := ⟨st, outboundPort⟩
  { r with queues := setQueueOf q ((queueOf q r.queues).drop 1) r.queues }

/-- The CMD_ERROR of a port's first poisoned token (R394): the region's fault for its tag, or ILLEGAL. -/
def State.reportPoison (b : BindState) (r : Region) (tag : BitVec 8) (s : State) : State :=
  match (s.queue b.queue).cmds.find? (fun c => decide (c.idx.toNat = b.packet)) with
  | none => s
  | some c =>
    match r.faults.find? (fun f => decide (f.tag = tag)) with
    | some f => s.cmdError b.queue c.idx c.words f.cause.code f.val
    | none => s.cmdError b.queue c.idx c.words 0x01 0

/-- A data token at an outbound port of a BIND (R394, R437): the k-th is written to its place; beyond LEN, or after the port's last
descriptor, it is discarded and counted; a port that a poisoned token has closed writes nothing. -/
def State.outboundData (g n k : Nat) (st : Site) (b : BindState) (p : BoundPort) (t : Token) (r : Region) (s : State) : State :=
  let taken := r.takeOut st
  let spilt (r : Region) : Region := { r with binds := r.binds.map (fun a =>
    if a.queue = b.queue ∧ a.packet = b.packet then { a with ovf := a.ovf + 1 } else a) }
  let spent := match p.descs with
    | [] => !p.bare
    | d :: _ => decide (d.len ≤ 8 * p.moved)
  let on (p : BoundPort) : BoundPort := if spent then p else { p with moved := p.moved + 1 }
  let taken := if spent then spilt taken else taken
  if p.closed then s.setRegion g n (taken.mapPort b k on)
  else if t.poison then
    let r := taken.mapPort b k (fun p => { on p with closed := true })
    let r := { r with binds := r.binds.map (fun a =>
      if a.queue = b.queue ∧ a.packet = b.packet then { a with seen := a.seen ++ [t.tag] } else a) }
    (s.setRegion g n r).reportPoison b r t.tag
  else
    match p.descs with
    | [] => s.setRegion g n taken
    | d :: _ =>
      if spent then s.setRegion g n taken
      else
        let done (r : Region) : Region := (r.takeOut st).mapPort b k on
        if t.valid = 0 then s.mapRegion g n done
        else
          let a : MemAcc := ⟨⟨0, 0, 0⟩, true, t.tag, 0, 0, d.base + wordOf (8 * p.moved), 8, false, t.payload, t.valid, false, false, 0, false⟩
          let (s, o) := s.nodeStore false (b.ctx g) a
          match o with
          | .done _ => s.mapRegion g n done
          | .fault f => s.portStalls g n b k f
          | .waits => s

/-- A poisoned end token at an outbound port (R394): the port closes, and reports it when no token has closed it. -/
def State.endPoisons (g n k : Nat) (b : BindState) (p : BoundPort) (t : Token) (r : Region) (s : State) : State :=
  if t.poison && !p.closed then
    let r := r.mapPort b k (fun p => { p with closed := true })
    let r := { r with binds := r.binds.map (fun a =>
      if a.queue = b.queue ∧ a.packet = b.packet then { a with seen := a.seen ++ [t.tag] } else a) }
    (s.setRegion g n r).reportPoison b r t.tag
  else s.setRegion g n r

/-- One token taken at an outbound place (R394, R437). -/
def State.outboundStep (g n k : Nat) (st : Site) (r : Region) (t : Token) (s : State) : State :=
  let taken := r.takeOut st
  -- the oldest BIND whose port is not ended, else the youngest that had the port
  let mine := r.binds.filter (fun b => (b.port k).isSome)
  let b := (mine.find? (fun b => (b.port k).any (fun p => !p.ended))).orElse (fun _ => mine.getLast?)
  match t.kind, b.bind (fun b => (b.port k).map (fun p => (b, p))) with
  | .endStream, some (b, p) =>
    s.endPoisons g n k b p t ((if p.ended then taken else taken.mapPort b k BoundPort.nextDesc).countEos k)
  | .endStream, none => s.setRegion g n (taken.countEos k)
  | .data, some (b, p) => if p.held then s else s.outboundData g n k st b p t r
  | .endTile, some (b, p) => s.endPoisons g n k b p t taken
  | _, _ => s.setRegion g n taken

/-- BIND_OUTBOUND: the outbound port of entry `k` takes its next token (R394, R437). -/
def execEvBindOutbound (spire region k : Nat) (s : State) : Host.Outcome State Fault Refusal :=
  match s.region spire region with
  | none => .next s
  | some r =>
    match r.outboundSite k with
    | none => .next s
    | some st =>
      match queueOf ⟨st, outboundPort⟩ r.queues with
      | [] => .next s
      | t :: _ => .next ((s.outboundStep spire region k st r t).endLost spire region)

/-! ## WAIT and SIGNAL -/

/-- The word of a WAIT read (R395). -/
def State.waitStep (q : Nat) (c : Cmd) (s : State) : State :=
  let (s, r) := s.condHolds (s.lanternCtx q) (fld c.words[3] 0 2) c.words[2]
  match r with
  | .error f => s.stallCmd q c.idx.toNat f
  | .ok true => s.cmdDone q c
  | .ok false => s

/-- WAIT (R389, R395). -/
def execEvWait (q : Nat) (s : State) : Host.Outcome State Fault Refusal :=
  .next (s.runCmd q (fun c => decide (c.work = .wait)) (isOp 3) (fun _ => .wait) (State.waitStep q))

/-- A SIGNAL's write (R397): done, or stalled on its fault. -/
def State.signalStep (q : Nat) (write : Ctx → Word → Word → State → State × SignalEnd) (c : Cmd) (s : State) : State :=
  let (s, f) := write (s.lanternCtx q) c.words[2] c.words[4] s
  match f with
  | .fault f => s.stallCmd q c.idx.toNat f
  | .waits => s
  | .made => s.cmdDone q c

/-- The SIGNAL commands (R389, R397). -/
def signalOp (sub q : Nat) (write : Ctx → Word → Word → State → State × SignalEnd) (s : State) :
    Host.Outcome State Fault Refusal :=
  .next (s.runCmd q (fun c => decide (c.work = .signal) && isOpSub 4 sub c.words) (isOpSub 4 sub) (fun _ => .signal)
    (State.signalStep q write))

/-- SIGNAL_STF (R397). -/
def execEvSignalStf (q : Nat) (s : State) : Host.Outcome State Fault Refusal :=
  signalOp 0 q (fun c va v s => s.signalSync c .stf va v .system false) s

/-- SIGNAL_ARRIVE (R397). -/
def execEvSignalArrive (q : Nat) (s : State) : Host.Outcome State Fault Refusal :=
  signalOp 1 q (fun c va v s => s.signalSync c .arrive va v .system false) s

/-- SIGNAL_AADD (R397). -/
def execEvSignalAadd (q : Nat) (s : State) : Host.Outcome State Fault Refusal :=
  signalOp 2 q (fun c va v s => s.signalAdd c va v false) s

/-! ## REGION, COPY and FENCE -/

/-- REGION's effect (R399). -/
def State.regionStep (q : Nat) (c : Cmd) (s : State) : State :=
  let (s, st) := s.rgnset (fld c.words[4] 0 8) c.words[2] c.words[3]
  if st ≠ 0 ∧ fld c.words[3] 0 2 ≠ 2 then s.failCmd q c.idx.toNat (0x50 + st.toNat) st else s.cmdDone q c

/-- REGION (R389, R399). -/
def execEvRegion (q : Nat) (s : State) : Host.Outcome State Fault Refusal :=
  .next (s.runCmd q (fun _ => false) (isOp 6) (fun _ => .region) (State.regionStep q))

/-- The shape of level descriptors (R320, R400), in their order; none where one breaks R320. -/
def copyLevels (bs : List Byte) : Nat → Option CopyShape
  | 0 => some CopyShape.reset
  | n + 1 => (copyLevels bs n).bind (fun sh => sh.write (imgWord bs (16 * n)) (imgWord bs (16 * n + 8)))

/-- COPY's levels read and its copy issued (R400): a staging shape that a thread owns refuses it, as it would another thread's CPY
(R322). (log 89: DEDUCED.) -/
def State.copyStep (q : Nat) (c : Cmd) (s : State) : State :=
  let g := fld c.words[2] 0 8
  let ch := fld c.words[2] 8 4
  let n := c.words[6].toNat
  let idx := c.idx.toNat
  let sig : Word := if packetSig c.words then c.words[1] else 0
  let (s, o) := s.lanternRead (s.lanternCtx q) (Acc.load c.words[5] (16 * n))
  match o with
  | .error f => s.stallCmd q idx f
  | .ok bs =>
    match copyLevels bs n with
    | none => s.failCmd q idx 0x41 3
    | some sh =>
      if ((s.spire g).channel ch).owner ≠ none then s.failCmd q idx 0x41 2
      else
      match copyFault g sh c.words[4] sig false with
      | some f => s.failCmd q idx f.cause.code f.val
      | none =>
        let seq := (s.spire g).copySeq
        if !s.copyRoom g ch seq then s
        else
          ((s.numberCopy g).enqueueCopy g ch sh c.words[3] c.words[4] sig (.command q idx) ((s.queue q).ctx g) none seq).setWork q c
            (.copy g ch (some seq))

/-- COPY (R389, R400). -/
def execEvCopy (q : Nat) (s : State) : Host.Outcome State Fault Refusal :=
  .next (s.runCmd q (fun c => match c.work with
      | .copy _ _ none => true
      | _ => false)
    (isOp 7) (fun ws => .copy (fld ws[2] 0 8) (fld ws[2] 8 4) none) (State.copyStep q))

/-- FENCE (R387, R389): complete at its start. -/
def execEvFence (q : Nat) (s : State) : Host.Outcome State Fault Refusal :=
  .next (s.runCmd q (fun _ => false) (isOp 8) (fun _ => .fence) (State.cmdDone q))

/-! ## Completion -/

/-- Whether a command has come to its end (R389, R393, R394). -/
def State.cmdOver (s : State) (q : Nat) (c : Cmd) : Bool :=
  c.done ||
    match c.work with
    | .launch placed exited _ => decide (placed = launchCount c.words ∧ exited = launchCount c.words)
    | .bind g n =>
      (s.region g n).any (fun r => (r.binds.find? (fun b => decide (b.queue = q ∧ b.packet = c.idx.toNat))).any (fun b =>
        (List.range r.entries.length).all (fun i => !(r.entries[i]?).any BindEntry.sink || (b.port i).any BoundPort.ended)))
    | _ => false

/-- The spires whose caches hold what a command wrote (R393, R394, R400). -/
def Cmd.writers (c : Cmd) : List Nat :=
  match c.work with
  | .launch _ _ _ =>
    (List.range (launchLast c.words + 1 - launchFirst c.words)).map (fun i => launchFirst c.words + i)
  | .bind g _ => [g]
  | .copy g _ _ => [g]
  | _ => []

/-- What a BIND leaves as it ends (R394, R239): an overflow is reported, the faults it has reported leave their slots. -/
def State.bindEnds (q : Nat) (c : Cmd) (s : State) : State :=
  match c.work with
  | .bind g n =>
    match s.region g n with
    | none => s
    | some r =>
      match r.binds.find? (fun b => decide (b.queue = q ∧ b.packet = c.idx.toNat)) with
      | none => s
      | some b =>
        let r := { r with
          binds := r.binds.filter (fun a => decide (a ≠ b))
          faults := r.faults.filter (fun f => !b.seen.contains f.tag) }
        let s := s.setRegion g n r
        if 0 < b.ovf then s.cmdError q c.idx c.words 0x44 0 else s
  | _ => s

/-- The completion signal of a command (R397): a release at SYSTEM of its writes; a fault writes a CMD_ERROR event. -/
def State.completionSignal (q : Nat) (c : Cmd) (s : State) : State :=
  if packetSig c.words && !c.sigDone then
    let ctx := s.lanternCtx q
    let (s, host) := s.inHost ctx c.words[1]
    let (s, f) := if host then s.signalAdd ctx c.words[1] 1 false else s.signalSync ctx .arrive c.words[1] 0 .system false
    match f with
    | .fault f => s.cmdError q c.idx c.words f.cause.code f.val
    | .made | .waits => s
  else s

/-- COMMAND_COMPLETE: the started command of packet `k` completes (R393, R394, R397). -/
def execEvCommandComplete (q k : Nat) (s : State) : Host.Outcome State Fault Refusal :=
  match (s.queue q).cmds.find? (fun c => decide (c.idx.toNat = k)) with
  | none => .next s
  | some c =>
    if !s.cmdOver q c || (!c.writers.isEmpty && !s.peersAcked) then .next s
    else
      let s := c.writers.foldl (fun s g => s.writeBackAll g) (s.bindEnds q c)
      let s := s.completionSignal q c
      let v := s.queue q
      let s := if packetIrq c.words then { s with msix := s.msix ++ [v.msix.toNat] } else s
      let d := s.die (q / 32)
      .next ((s.setQueue q { v with cmds := v.cmds.filter (fun e => decide (e.idx ≠ c.idx)) }).setDie (q / 32)
        { d with fifo := d.fifo.filter (fun e => decide (e ≠ (q, c.idx))) })

end Sys2Proof.Machine
end

