-- ==== Sys2Proof/Machine/FloatOps.lean ====
section
/-! DEFINITION. Scalar floating point and conversions (R107 to R123). -/

namespace Sys2Proof.Machine

/-- A result with its flags goes to a general register, zero above its width (R108), or traps FPE (R110). -/
def fpResult (g : Guard) (d : Reg) (f : State → Nat × Flags) (s : State) : Host.Outcome State Fault Refusal :=
  guarded g (fun s => let r := f s; s.raise r.2 (fun s => s.retX d (BitVec.ofNat 64 r.1))) s

/-- A source read in a format (R69, R108). -/
def State.fsrc (s : State) (f : Fmt) (a : Reg) : FVal := f.decode (s.getX a).toNat

/-- A binary member of R112, rounding in FCSR.RM read at issue (R111). -/
def fpBinary (g : Guard) (d a b : Reg) (f : Fmt) (op : RMode → FVal → FVal → Nat × Flags) (s : State) :
    Host.Outcome State Fault Refusal :=
  fpResult g d (fun s => op s.thr.rm (s.fsrc f a) (s.fsrc f b)) s

/-- A unary member of R112. -/
def fpUnary (g : Guard) (d a : Reg) (f : Fmt) (op : RMode → FVal → Nat × Flags) (s : State) :
    Host.Outcome State Fault Refusal :=
  fpResult g d (fun s => op s.thr.rm (s.fsrc f a)) s

/-- FMIN and FMAX (R114). -/
def fpMinMax (g : Guard) (d a b : Reg) (f : Fmt) (greater : Bool) (s : State) : Host.Outcome State Fault Refusal :=
  fpResult g d (fun s => fMinMax f greater (s.getX a).toNat (s.getX b).toNat) s

/-- FABS and FNEG (R115): the new sign from the old. -/
def fpSign (g : Guard) (d a : Reg) (f : Fmt) (sign : Bool → Bool) (s : State) : Host.Outcome State Fault Refusal :=
  fpResult g d (fun s => fSignOp f (sign (f.signOf (s.getX a).toNat)) (s.getX a).toNat [s.fsrc f a]) s

/-- FCPYS (R115). -/
def fpCopySign (g : Guard) (d a b : Reg) (f : Fmt) (s : State) : Host.Outcome State Fault Refusal :=
  fpResult g d (fun s => fSignOp f (f.signOf (s.getX b).toNat) (s.getX a).toNat [s.fsrc f a, s.fsrc f b]) s

/-- FCLASS (R116). -/
def fpClass (g : Guard) (d a : Reg) (f : Fmt) (s : State) : Host.Outcome State Fault Refusal :=
  fpResult g d (fun s => (fClass f (s.getX a).toNat, sigFlags [s.fsrc f a])) s

/-- The fused members (R119): the product's and the addend's signs as the entry has them. -/
def fpFused (g : Guard) (d a b : Reg) (f : Fmt) (negProduct negAddend : Bool) (s : State) :
    Host.Outcome State Fault Refusal :=
  fpResult g d (fun s =>
    let x := s.fsrc f a
    let c := s.fsrc f d
    fMulAdd f s.thr.rm (if negProduct then x.neg else x) (s.fsrc f b) (if negAddend then c.neg else c)) s

/-- The compares (R120). -/
def fpCompare (g : Guard) (p : PReg) (a b : Reg) (f : Fmt) (c : FCond) (s : State) : Host.Outcome State Fault Refusal :=
  guarded g (fun s =>
    let r := fCompare f c (s.getX a).toNat (s.getX b).toNat
    s.raise r.2 (fun s => s.retP p r.1)) s

/-- A conversion to an integer of `n` bits, 64-bit extended as its row says (R121, R122). -/
def cvtToInt (g : Guard) (d a : Reg) (f : Fmt) (lo hi : Int) (ext : Int → Word) (s : State) :
    Host.Outcome State Fault Refusal :=
  guarded g (fun s =>
    let r := narrowInt lo hi s.thr.rm (s.fsrc f a)
    s.raise r.2 (fun s => s.retX d (ext r.1))) s

/-- A conversion from an integer (R122); 0 gives +0 in every mode. (log 95: DESIGN CHOICE.) -/
def cvtFromInt (g : Guard) (d a : Reg) (f : Fmt) (v : Word → Int) (s : State) : Host.Outcome State Fault Refusal :=
  fpResult g d (fun s => f.deliver s.thr.rm (.ofInt (v (s.getX a)))) s

/-- FADD_S (R112). -/
def execFaddS (g : Guard) (d a b : Reg) (s : State) : Host.Outcome State Fault Refusal :=
  fpBinary g d a b fp32 (fun rm x y => fAdd fp32 rm x y) s

/-- FSUB_S (R112). -/
def execFsubS (g : Guard) (d a b : Reg) (s : State) : Host.Outcome State Fault Refusal :=
  fpBinary g d a b fp32 (fun rm x y => fAdd fp32 rm x y.neg) s

/-- FMUL_S (R112). -/
def execFmulS (g : Guard) (d a b : Reg) (s : State) : Host.Outcome State Fault Refusal :=
  fpBinary g d a b fp32 (fun rm x y => fMul fp32 rm x y) s

/-- FDIV_S (R112). -/
def execFdivS (g : Guard) (d a b : Reg) (s : State) : Host.Outcome State Fault Refusal :=
  fpBinary g d a b fp32 (fun rm x y => fDiv fp32 rm x y) s

/-- FSQRT_S (R112). -/
def execFsqrtS (g : Guard) (d a : Reg) (s : State) : Host.Outcome State Fault Refusal :=
  fpUnary g d a fp32 (fun rm x => fSqrt fp32 rm x) s

/-- FMIN_S (R114). -/
def execFminS (g : Guard) (d a b : Reg) (s : State) : Host.Outcome State Fault Refusal :=
  fpMinMax g d a b fp32 false s

/-- FMAX_S (R114). -/
def execFmaxS (g : Guard) (d a b : Reg) (s : State) : Host.Outcome State Fault Refusal :=
  fpMinMax g d a b fp32 true s

/-- FABS_S (R115). -/
def execFabsS (g : Guard) (d a : Reg) (s : State) : Host.Outcome State Fault Refusal :=
  fpSign g d a fp32 (fun _ => false) s

/-- FNEG_S (R115). -/
def execFnegS (g : Guard) (d a : Reg) (s : State) : Host.Outcome State Fault Refusal :=
  fpSign g d a fp32 (fun sg => !sg) s

/-- FCPYS_S (R115). -/
def execFcpysS (g : Guard) (d a b : Reg) (s : State) : Host.Outcome State Fault Refusal :=
  fpCopySign g d a b fp32 s

/-- FCLASS_S (R116). -/
def execFclassS (g : Guard) (d a : Reg) (s : State) : Host.Outcome State Fault Refusal :=
  fpClass g d a fp32 s

/-- FRCP_S (R117). -/
def execFrcpS (g : Guard) (d a : Reg) (s : State) : Host.Outcome State Fault Refusal :=
  fpUnary g d a fp32 (fun _ x => fRcp x) s

/-- FRSQ_S (R117). -/
def execFrsqS (g : Guard) (d a : Reg) (s : State) : Host.Outcome State Fault Refusal :=
  fpUnary g d a fp32 (fun _ x => fRsq x) s

/-- FEXP2_S (R117). -/
def execFexp2S (g : Guard) (d a : Reg) (s : State) : Host.Outcome State Fault Refusal :=
  fpUnary g d a fp32 (fun _ x => fExp2 x) s

/-- FLOG2_S (R117). -/
def execFlog2S (g : Guard) (d a : Reg) (s : State) : Host.Outcome State Fault Refusal :=
  fpUnary g d a fp32 (fun _ x => fLog2 x) s

/-- FTANH_S (R117). -/
def execFtanhS (g : Guard) (d a : Reg) (s : State) : Host.Outcome State Fault Refusal :=
  fpUnary g d a fp32 (fun _ x => fTanh x) s

/-- FMAC_S (R119). -/
def execFmacS (g : Guard) (d a b : Reg) (s : State) : Host.Outcome State Fault Refusal :=
  fpFused g d a b fp32 false false s

/-- FMSC_S (R119). -/
def execFmscS (g : Guard) (d a b : Reg) (s : State) : Host.Outcome State Fault Refusal :=
  fpFused g d a b fp32 false true s

/-- FNMAC_S (R119). -/
def execFnmacS (g : Guard) (d a b : Reg) (s : State) : Host.Outcome State Fault Refusal :=
  fpFused g d a b fp32 true false s

/-- FCEQ_S (R120). -/
def execFceqS (g : Guard) (p : PReg) (a b : Reg) (s : State) : Host.Outcome State Fault Refusal :=
  fpCompare g p a b fp32 .eq s

/-- FCLT_S (R120). -/
def execFcltS (g : Guard) (p : PReg) (a b : Reg) (s : State) : Host.Outcome State Fault Refusal :=
  fpCompare g p a b fp32 .lt s

/-- FCLE_S (R120). -/
def execFcleS (g : Guard) (p : PReg) (a b : Reg) (s : State) : Host.Outcome State Fault Refusal :=
  fpCompare g p a b fp32 .le s

/-- FCUN_S (R120). -/
def execFcunS (g : Guard) (p : PReg) (a b : Reg) (s : State) : Host.Outcome State Fault Refusal :=
  fpCompare g p a b fp32 .un s

/-- FADD_D (R112). -/
def execFaddD (g : Guard) (d a b : Reg) (s : State) : Host.Outcome State Fault Refusal :=
  fpBinary g d a b fp64 (fun rm x y => fAdd fp64 rm x y) s

/-- FSUB_D (R112). -/
def execFsubD (g : Guard) (d a b : Reg) (s : State) : Host.Outcome State Fault Refusal :=
  fpBinary g d a b fp64 (fun rm x y => fAdd fp64 rm x y.neg) s

/-- FMUL_D (R112). -/
def execFmulD (g : Guard) (d a b : Reg) (s : State) : Host.Outcome State Fault Refusal :=
  fpBinary g d a b fp64 (fun rm x y => fMul fp64 rm x y) s

/-- FDIV_D (R112). -/
def execFdivD (g : Guard) (d a b : Reg) (s : State) : Host.Outcome State Fault Refusal :=
  fpBinary g d a b fp64 (fun rm x y => fDiv fp64 rm x y) s

/-- FSQRT_D (R112). -/
def execFsqrtD (g : Guard) (d a : Reg) (s : State) : Host.Outcome State Fault Refusal :=
  fpUnary g d a fp64 (fun rm x => fSqrt fp64 rm x) s

/-- FMIN_D (R114). -/
def execFminD (g : Guard) (d a b : Reg) (s : State) : Host.Outcome State Fault Refusal :=
  fpMinMax g d a b fp64 false s

/-- FMAX_D (R114). -/
def execFmaxD (g : Guard) (d a b : Reg) (s : State) : Host.Outcome State Fault Refusal :=
  fpMinMax g d a b fp64 true s

/-- FABS_D (R115). -/
def execFabsD (g : Guard) (d a : Reg) (s : State) : Host.Outcome State Fault Refusal :=
  fpSign g d a fp64 (fun _ => false) s

/-- FNEG_D (R115). -/
def execFnegD (g : Guard) (d a : Reg) (s : State) : Host.Outcome State Fault Refusal :=
  fpSign g d a fp64 (fun sg => !sg) s

/-- FCPYS_D (R115). -/
def execFcpysD (g : Guard) (d a b : Reg) (s : State) : Host.Outcome State Fault Refusal :=
  fpCopySign g d a b fp64 s

/-- FCLASS_D (R116). -/
def execFclassD (g : Guard) (d a : Reg) (s : State) : Host.Outcome State Fault Refusal :=
  fpClass g d a fp64 s

/-- FMAC_D (R119). -/
def execFmacD (g : Guard) (d a b : Reg) (s : State) : Host.Outcome State Fault Refusal :=
  fpFused g d a b fp64 false false s

/-- FMSC_D (R119). -/
def execFmscD (g : Guard) (d a b : Reg) (s : State) : Host.Outcome State Fault Refusal :=
  fpFused g d a b fp64 false true s

/-- FNMAC_D (R119). -/
def execFnmacD (g : Guard) (d a b : Reg) (s : State) : Host.Outcome State Fault Refusal :=
  fpFused g d a b fp64 true false s

/-- FCEQ_D (R120). -/
def execFceqD (g : Guard) (p : PReg) (a b : Reg) (s : State) : Host.Outcome State Fault Refusal :=
  fpCompare g p a b fp64 .eq s

/-- FCLT_D (R120). -/
def execFcltD (g : Guard) (p : PReg) (a b : Reg) (s : State) : Host.Outcome State Fault Refusal :=
  fpCompare g p a b fp64 .lt s

/-- FCLE_D (R120). -/
def execFcleD (g : Guard) (p : PReg) (a b : Reg) (s : State) : Host.Outcome State Fault Refusal :=
  fpCompare g p a b fp64 .le s

/-- FCUN_D (R120). -/
def execFcunD (g : Guard) (p : PReg) (a b : Reg) (s : State) : Host.Outcome State Fault Refusal :=
  fpCompare g p a b fp64 .un s

/-- CVT_S_D (R121). -/
def execCvtSD (g : Guard) (d a : Reg) (s : State) : Host.Outcome State Fault Refusal :=
  fpUnary g d a fp64 (fun rm x => fp32.narrow rm x) s

/-- CVT_H_S (R121). -/
def execCvtHS (g : Guard) (d a : Reg) (s : State) : Host.Outcome State Fault Refusal :=
  fpUnary g d a fp32 (fun rm x => fp16.narrow rm x) s

/-- CVT_BF_S (R121). -/
def execCvtBfS (g : Guard) (d a : Reg) (s : State) : Host.Outcome State Fault Refusal :=
  fpUnary g d a fp32 (fun rm x => bf16.narrow rm x) s

/-- CVT_E4_S (R121). -/
def execCvtE4S (g : Guard) (d a : Reg) (s : State) : Host.Outcome State Fault Refusal :=
  fpUnary g d a fp32 (fun rm x => e4m3.narrow rm x) s

/-- CVT_E5_S (R121). -/
def execCvtE5S (g : Guard) (d a : Reg) (s : State) : Host.Outcome State Fault Refusal :=
  fpUnary g d a fp32 (fun rm x => e5m2.narrow rm x) s

/-- CVT_D_S (R121). -/
def execCvtDS (g : Guard) (d a : Reg) (s : State) : Host.Outcome State Fault Refusal :=
  fpUnary g d a fp32 (fun _ x => fp64.widen x) s

/-- CVT_S_H (R121). -/
def execCvtSH (g : Guard) (d a : Reg) (s : State) : Host.Outcome State Fault Refusal :=
  fpUnary g d a fp16 (fun _ x => fp32.widen x) s

/-- CVT_S_BF (R121). -/
def execCvtSBf (g : Guard) (d a : Reg) (s : State) : Host.Outcome State Fault Refusal :=
  fpUnary g d a bf16 (fun _ x => fp32.widen x) s

/-- CVT_S_E4 (R121). -/
def execCvtSE4 (g : Guard) (d a : Reg) (s : State) : Host.Outcome State Fault Refusal :=
  fpUnary g d a e4m3 (fun _ x => fp32.widen x) s

/-- CVT_S_E5 (R121). -/
def execCvtSE5 (g : Guard) (d a : Reg) (s : State) : Host.Outcome State Fault Refusal :=
  fpUnary g d a e5m2 (fun _ x => fp32.widen x) s

/-- CVT_W_S (R122). -/
def execCvtWS (g : Guard) (d a : Reg) (s : State) : Host.Outcome State Fault Refusal :=
  cvtToInt g d a fp32 (-2147483648) 2147483647 (fun i => BitVec.ofInt 64 i) s

/-- CVT_WU_S (R122). -/
def execCvtWuS (g : Guard) (d a : Reg) (s : State) : Host.Outcome State Fault Refusal :=
  cvtToInt g d a fp32 0 4294967295 (fun i => BitVec.ofInt 64 i) s

/-- CVT_L_D (R122). -/
def execCvtLD (g : Guard) (d a : Reg) (s : State) : Host.Outcome State Fault Refusal :=
  cvtToInt g d a fp64 (-9223372036854775808) 9223372036854775807 (fun i => BitVec.ofInt 64 i) s

/-- CVT_S_W (R122). -/
def execCvtSW (g : Guard) (d a : Reg) (s : State) : Host.Outcome State Fault Refusal :=
  cvtFromInt g d a fp32 (fun w => (w.setWidth 32).toInt) s

/-- CVT_S_WU (R122). -/
def execCvtSWu (g : Guard) (d a : Reg) (s : State) : Host.Outcome State Fault Refusal :=
  cvtFromInt g d a fp32 (fun w => ((w.setWidth 32).toNat : Int)) s

/-- CVT_D_L (R122). -/
def execCvtDL (g : Guard) (d a : Reg) (s : State) : Host.Outcome State Fault Refusal :=
  cvtFromInt g d a fp64 (fun w => w.toInt) s

end Sys2Proof.Machine
end

