-- ==== Sys2Proof/Machine/Integer.lean ====
section
/-! DEFINITION. The integer, immediate, compare and predicate instructions (R89 to R106). -/

namespace Sys2Proof.Machine

/-- A result computed from X[a] and X[b] (R90: every source is read before the destination is written). -/
def aluOp (g : Guard) (d a b : Reg) (f : Word → Word → Word) (s : State) : Host.Outcome State Fault Refusal :=
  guarded g (fun s => s.retX d (f (s.getX a) (s.getX b))) s

/-- A result computed from X[a]. -/
def unaryOp (g : Guard) (d a : Reg) (f : Word → Word) (s : State) : Host.Outcome State Fault Refusal :=
  guarded g (fun s => s.retX d (f (s.getX a))) s

/-- A compare into a predicate (R102, R103). -/
def cmpOp (g : Guard) (p : PReg) (c : CmpCond) (x y : State → Word) (s : State) : Host.Outcome State Fault Refusal :=
  guarded g (fun s => s.retP p (c.holds (x s) (y s))) s

/-- Predicate logic (R105). -/
def predOp (g : Guard) (d : PReg) (f : State → Bool) (s : State) : Host.Outcome State Fault Refusal :=
  guarded g (fun s => s.retP d (f s)) s

/-- ADD (R94). -/
def execAdd (g : Guard) (d a b : Reg) (s : State) : Host.Outcome State Fault Refusal :=
  aluOp g d a b (fun a b => a + b) s

/-- SUB (R94). -/
def execSub (g : Guard) (d a b : Reg) (s : State) : Host.Outcome State Fault Refusal :=
  aluOp g d a b (fun a b => a - b) s

/-- MUL (R94). -/
def execMul (g : Guard) (d a b : Reg) (s : State) : Host.Outcome State Fault Refusal :=
  aluOp g d a b (fun a b => a * b) s

/-- MULH (R94). -/
def execMulh (g : Guard) (d a b : Reg) (s : State) : Host.Outcome State Fault Refusal :=
  aluOp g d a b (fun a b => mulHigh a b) s

/-- MULHU (R94). -/
def execMulhu (g : Guard) (d a b : Reg) (s : State) : Host.Outcome State Fault Refusal :=
  aluOp g d a b (fun a b => mulHighU a b) s

/-- DIV (R95). -/
def execDiv (g : Guard) (d a b : Reg) (s : State) : Host.Outcome State Fault Refusal :=
  aluOp g d a b (fun a b => divS a b) s

/-- DIVU (R95). -/
def execDivu (g : Guard) (d a b : Reg) (s : State) : Host.Outcome State Fault Refusal :=
  aluOp g d a b (fun a b => divU a b) s

/-- REM (R95). -/
def execRem (g : Guard) (d a b : Reg) (s : State) : Host.Outcome State Fault Refusal :=
  aluOp g d a b (fun a b => remS a b) s

/-- REMU (R95). -/
def execRemu (g : Guard) (d a b : Reg) (s : State) : Host.Outcome State Fault Refusal :=
  aluOp g d a b (fun a b => remU a b) s

/-- AND (R94). -/
def execAnd (g : Guard) (d a b : Reg) (s : State) : Host.Outcome State Fault Refusal :=
  aluOp g d a b (fun a b => a &&& b) s

/-- OR (R94). -/
def execOr (g : Guard) (d a b : Reg) (s : State) : Host.Outcome State Fault Refusal :=
  aluOp g d a b (fun a b => a ||| b) s

/-- XOR (R94). -/
def execXor (g : Guard) (d a b : Reg) (s : State) : Host.Outcome State Fault Refusal :=
  aluOp g d a b (fun a b => a ^^^ b) s

/-- SHL (R94). -/
def execShl (g : Guard) (d a b : Reg) (s : State) : Host.Outcome State Fault Refusal :=
  aluOp g d a b (fun a b => a <<< shAmt b) s

/-- SHR (R94). -/
def execShr (g : Guard) (d a b : Reg) (s : State) : Host.Outcome State Fault Refusal :=
  aluOp g d a b (fun a b => a >>> shAmt b) s

/-- SRA (R94). -/
def execSra (g : Guard) (d a b : Reg) (s : State) : Host.Outcome State Fault Refusal :=
  aluOp g d a b (fun a b => a.sshiftRight (shAmt b)) s

/-- ROT (R94). -/
def execRot (g : Guard) (d a b : Reg) (s : State) : Host.Outcome State Fault Refusal :=
  aluOp g d a b (fun a b => a.rotateRight (shAmt b)) s

/-- ADDW (R96). -/
def execAddw (g : Guard) (d a b : Reg) (s : State) : Host.Outcome State Fault Refusal :=
  aluOp g d a b (fun a b => sext32 (low32 a + low32 b)) s

/-- SUBW (R96). -/
def execSubw (g : Guard) (d a b : Reg) (s : State) : Host.Outcome State Fault Refusal :=
  aluOp g d a b (fun a b => sext32 (low32 a - low32 b)) s

/-- MULW (R96). -/
def execMulw (g : Guard) (d a b : Reg) (s : State) : Host.Outcome State Fault Refusal :=
  aluOp g d a b (fun a b => sext32 (low32 a * low32 b)) s

/-- SHLW (R96). -/
def execShlw (g : Guard) (d a b : Reg) (s : State) : Host.Outcome State Fault Refusal :=
  aluOp g d a b (fun a b => sext32 (low32 a <<< shAmtW b)) s

/-- SHRW (R96). -/
def execShrw (g : Guard) (d a b : Reg) (s : State) : Host.Outcome State Fault Refusal :=
  aluOp g d a b (fun a b => sext32 (low32 a >>> shAmtW b)) s

/-- SRAW (R96). -/
def execSraw (g : Guard) (d a b : Reg) (s : State) : Host.Outcome State Fault Refusal :=
  aluOp g d a b (fun a b => sext32 ((low32 a).sshiftRight (shAmtW b))) s

/-- MIN (R97). -/
def execMin (g : Guard) (d a b : Reg) (s : State) : Host.Outcome State Fault Refusal :=
  aluOp g d a b (fun a b => minS a b) s

/-- MAX (R97). -/
def execMax (g : Guard) (d a b : Reg) (s : State) : Host.Outcome State Fault Refusal :=
  aluOp g d a b (fun a b => maxS a b) s

/-- MINU (R97). -/
def execMinu (g : Guard) (d a b : Reg) (s : State) : Host.Outcome State Fault Refusal :=
  aluOp g d a b (fun a b => minU a b) s

/-- MAXU (R97). -/
def execMaxu (g : Guard) (d a b : Reg) (s : State) : Host.Outcome State Fault Refusal :=
  aluOp g d a b (fun a b => maxU a b) s

/-- ABS (R97). -/
def execAbs (g : Guard) (d a : Reg) (s : State) : Host.Outcome State Fault Refusal :=
  unaryOp g d a (fun a => absS a) s

/-- CLZ (R97). -/
def execClz (g : Guard) (d a : Reg) (s : State) : Host.Outcome State Fault Refusal :=
  unaryOp g d a (fun a => countLeading a) s

/-- CTZ (R97). -/
def execCtz (g : Guard) (d a : Reg) (s : State) : Host.Outcome State Fault Refusal :=
  unaryOp g d a (fun a => countTrailing a) s

/-- POPC (R97). -/
def execPopc (g : Guard) (d a : Reg) (s : State) : Host.Outcome State Fault Refusal :=
  unaryOp g d a (fun a => popCount a) s

/-- BREV (R97). -/
def execBrev (g : Guard) (d a : Reg) (s : State) : Host.Outcome State Fault Refusal :=
  unaryOp g d a (fun a => bitReverse a) s

/-- BSWAP (R97). -/
def execBswap (g : Guard) (d a : Reg) (s : State) : Host.Outcome State Fault Refusal :=
  unaryOp g d a (fun a => byteSwap a) s

/-- SEXTB (R97). -/
def execSextb (g : Guard) (d a : Reg) (s : State) : Host.Outcome State Fault Refusal :=
  unaryOp g d a (fun a => (a.setWidth 8).signExtend 64) s

/-- SEXTH (R97). -/
def execSexth (g : Guard) (d a : Reg) (s : State) : Host.Outcome State Fault Refusal :=
  unaryOp g d a (fun a => (a.setWidth 16).signExtend 64) s

/-- SEXTW (R97). -/
def execSextw (g : Guard) (d a : Reg) (s : State) : Host.Outcome State Fault Refusal :=
  unaryOp g d a (fun a => (a.setWidth 32).signExtend 64) s

/-- ZEXTB (R97). -/
def execZextb (g : Guard) (d a : Reg) (s : State) : Host.Outcome State Fault Refusal :=
  unaryOp g d a (fun a => (a.setWidth 8).setWidth 64) s

/-- ZEXTH (R97). -/
def execZexth (g : Guard) (d a : Reg) (s : State) : Host.Outcome State Fault Refusal :=
  unaryOp g d a (fun a => (a.setWidth 16).setWidth 64) s

/-- ZEXTW (R97). -/
def execZextw (g : Guard) (d a : Reg) (s : State) : Host.Outcome State Fault Refusal :=
  unaryOp g d a (fun a => (a.setWidth 32).setWidth 64) s

/-- ADDI (R98). -/
def execAddi (g : Guard) (d a : Reg) (i : BitVec 10) (s : State) : Host.Outcome State Fault Refusal :=
  unaryOp g d a (fun a => a + imm10 i) s

/-- ANDI (R98). -/
def execAndi (g : Guard) (d a : Reg) (i : BitVec 10) (s : State) : Host.Outcome State Fault Refusal :=
  unaryOp g d a (fun a => a &&& imm10 i) s

/-- ORI (R98). -/
def execOri (g : Guard) (d a : Reg) (i : BitVec 10) (s : State) : Host.Outcome State Fault Refusal :=
  unaryOp g d a (fun a => a ||| imm10 i) s

/-- XORI (R98). -/
def execXori (g : Guard) (d a : Reg) (i : BitVec 10) (s : State) : Host.Outcome State Fault Refusal :=
  unaryOp g d a (fun a => a ^^^ imm10 i) s

/-- SHLI (R99). -/
def execShli (g : Guard) (d a : Reg) (n : BitVec 6) (s : State) : Host.Outcome State Fault Refusal :=
  unaryOp g d a (fun a => a <<< n.toNat) s

/-- SHRI (R99). -/
def execShri (g : Guard) (d a : Reg) (n : BitVec 6) (s : State) : Host.Outcome State Fault Refusal :=
  unaryOp g d a (fun a => a >>> n.toNat) s

/-- SRAI (R99). -/
def execSrai (g : Guard) (d a : Reg) (n : BitVec 6) (s : State) : Host.Outcome State Fault Refusal :=
  unaryOp g d a (fun a => a.sshiftRight n.toNat) s

/-- ROTI (R99). -/
def execRoti (g : Guard) (d a : Reg) (n : BitVec 6) (s : State) : Host.Outcome State Fault Refusal :=
  unaryOp g d a (fun a => a.rotateRight n.toNat) s

/-- LUI (R100). -/
def execLui (g : Guard) (d : Reg) (i : BitVec 16) (s : State) : Host.Outcome State Fault Refusal :=
  guarded g (fun s => s.retX d (immUpper i)) s

/-- LIX (R100). -/
def execLix (g : Guard) (d : Reg) (i : BitVec 16) (s : State) : Host.Outcome State Fault Refusal :=
  unaryOp g d d (fun a => (a <<< 16) ||| i.setWidth 64) s

/-- SHADD1 (R101). -/
def execShadd1 (g : Guard) (d a b : Reg) (s : State) : Host.Outcome State Fault Refusal :=
  aluOp g d a b (fun a b => a + (b <<< 1)) s

/-- SHADD2 (R101). -/
def execShadd2 (g : Guard) (d a b : Reg) (s : State) : Host.Outcome State Fault Refusal :=
  aluOp g d a b (fun a b => a + (b <<< 2)) s

/-- SHADD3 (R101). -/
def execShadd3 (g : Guard) (d a b : Reg) (s : State) : Host.Outcome State Fault Refusal :=
  aluOp g d a b (fun a b => a + (b <<< 3)) s

/-- SHADD4 (R101). -/
def execShadd4 (g : Guard) (d a b : Reg) (s : State) : Host.Outcome State Fault Refusal :=
  aluOp g d a b (fun a b => a + (b <<< 4)) s

/-- CEQ (R102). -/
def execCeq (g : Guard) (p : PReg) (a b : Reg) (s : State) : Host.Outcome State Fault Refusal :=
  cmpOp g p .eq (fun s => s.getX a) (fun s => s.getX b) s

/-- CNE (R102). -/
def execCne (g : Guard) (p : PReg) (a b : Reg) (s : State) : Host.Outcome State Fault Refusal :=
  cmpOp g p .ne (fun s => s.getX a) (fun s => s.getX b) s

/-- CLT (R102). -/
def execClt (g : Guard) (p : PReg) (a b : Reg) (s : State) : Host.Outcome State Fault Refusal :=
  cmpOp g p .lt (fun s => s.getX a) (fun s => s.getX b) s

/-- CLTU (R102). -/
def execCltu (g : Guard) (p : PReg) (a b : Reg) (s : State) : Host.Outcome State Fault Refusal :=
  cmpOp g p .ltu (fun s => s.getX a) (fun s => s.getX b) s

/-- CLE (R102). -/
def execCle (g : Guard) (p : PReg) (a b : Reg) (s : State) : Host.Outcome State Fault Refusal :=
  cmpOp g p .le (fun s => s.getX a) (fun s => s.getX b) s

/-- CLEU (R102). -/
def execCleu (g : Guard) (p : PReg) (a b : Reg) (s : State) : Host.Outcome State Fault Refusal :=
  cmpOp g p .leu (fun s => s.getX a) (fun s => s.getX b) s

/-- CTST (R102). -/
def execCtst (g : Guard) (p : PReg) (a b : Reg) (s : State) : Host.Outcome State Fault Refusal :=
  cmpOp g p .tst (fun s => s.getX a) (fun s => s.getX b) s

/-- CEQI (R103). -/
def execCeqi (g : Guard) (p : PReg) (a : Reg) (i : BitVec 10) (s : State) : Host.Outcome State Fault Refusal :=
  cmpOp g p .eq (fun s => s.getX a) (fun _ => imm10 i) s

/-- CNEI (R103). -/
def execCnei (g : Guard) (p : PReg) (a : Reg) (i : BitVec 10) (s : State) : Host.Outcome State Fault Refusal :=
  cmpOp g p .ne (fun s => s.getX a) (fun _ => imm10 i) s

/-- CLTI (R103). -/
def execClti (g : Guard) (p : PReg) (a : Reg) (i : BitVec 10) (s : State) : Host.Outcome State Fault Refusal :=
  cmpOp g p .lt (fun s => s.getX a) (fun _ => imm10 i) s

/-- CLTUI (R103). -/
def execCltui (g : Guard) (p : PReg) (a : Reg) (i : BitVec 10) (s : State) : Host.Outcome State Fault Refusal :=
  cmpOp g p .ltu (fun s => s.getX a) (fun _ => imm10 i) s

/-- CLEI (R103). -/
def execClei (g : Guard) (p : PReg) (a : Reg) (i : BitVec 10) (s : State) : Host.Outcome State Fault Refusal :=
  cmpOp g p .le (fun s => s.getX a) (fun _ => imm10 i) s

/-- CLEUI (R103). -/
def execCleui (g : Guard) (p : PReg) (a : Reg) (i : BitVec 10) (s : State) : Host.Outcome State Fault Refusal :=
  cmpOp g p .leu (fun s => s.getX a) (fun _ => imm10 i) s

/-- CTSTI (R103). -/
def execCtsti (g : Guard) (p : PReg) (a : Reg) (i : BitVec 10) (s : State) : Host.Outcome State Fault Refusal :=
  cmpOp g p .tst (fun s => s.getX a) (fun _ => imm10 i) s

/-- PAND (R105). -/
def execPand (g : Guard) (d a b : PReg) (s : State) : Host.Outcome State Fault Refusal :=
  predOp g d (fun s => s.getP a && s.getP b) s

/-- POR (R105). -/
def execPor (g : Guard) (d a b : PReg) (s : State) : Host.Outcome State Fault Refusal :=
  predOp g d (fun s => s.getP a || s.getP b) s

/-- PXOR (R105). -/
def execPxor (g : Guard) (d a b : PReg) (s : State) : Host.Outcome State Fault Refusal :=
  predOp g d (fun s => s.getP a != s.getP b) s

/-- PANDN (R105). -/
def execPandn (g : Guard) (d a b : PReg) (s : State) : Host.Outcome State Fault Refusal :=
  predOp g d (fun s => s.getP a && !s.getP b) s

/-- PNOT (R105). -/
def execPnot (g : Guard) (d a : PReg) (s : State) : Host.Outcome State Fault Refusal :=
  predOp g d (fun s => !s.getP a) s

/-- PMOV (R105). -/
def execPmov (g : Guard) (d a : PReg) (s : State) : Host.Outcome State Fault Refusal :=
  predOp g d (fun s => s.getP a) s

/-- PSET (R105). -/
def execPset (g : Guard) (a : Reg) (s : State) : Host.Outcome State Fault Refusal :=
  guarded g (fun s => s.setThr (s.thr.setPreds (s.getX a)).step) s

/-- PGET (R105). -/
def execPget (g : Guard) (d : Reg) (s : State) : Host.Outcome State Fault Refusal :=
  guarded g (fun s => s.retX d s.thr.predWord) s

end Sys2Proof.Machine
end

