-- ==== Sys2Proof/Machine/Hash.lean ====
section
/-! DEFINITION. SHA-256 and the verification of LMS signatures, parameter sets LMS_SHA256_M32_H15 and LMOTS_SHA256_N32_W4, as
R427 names them. (log 91: PRESUMED.) -/

namespace Sys2Proof.Machine

/-! ## SHA-256 -/

/-- Whether no number from 2 to `n` divides `p`. -/
def noDivisor (p : Nat) : Nat → Bool
  | 0 => true
  | n + 1 => (n = 0 || p % (n + 1) ≠ 0) && noDivisor p n

/-- The primes below 312, of which there are 64. -/
def shaPrimes : List Nat := (List.range 312).filter (fun p => decide (2 ≤ p) && noDivisor p (p - 1))

/-- The greatest number below 2^`n` above `lo` bits already found whose `e`-th power is at most `x`, bit by bit. -/
def rootFrom (e x : Nat) : Nat → Nat → Nat
  | 0, lo => lo
  | n + 1, lo => rootFrom e x n (if (lo + 2 ^ n) ^ e ≤ x then lo + 2 ^ n else lo)

/-- The first 32 bits of the fraction of the `e`-th root of a prime. -/
def rootBits (e p : Nat) : BitVec 32 := BitVec.ofNat 32 (rootFrom e (p * 2 ^ (32 * e)) 37 0)

/-- The 64 round constants, from the cube roots of the first 64 primes. -/
def shaK : List (BitVec 32) := shaPrimes.map (rootBits 3)

/-- The chaining value: its eight words, `a` first. -/
abbrev ShaState := List (BitVec 32)

/-- The first chaining value, from the square roots of the first eight primes. -/
def ShaState.init : ShaState := (shaPrimes.take 8).map (rootBits 2)

/-- The exclusive or of rotations of a word. -/
def spun (x : BitVec 32) (ns : List Nat) : BitVec 32 := ns.foldl (fun y n => y ^^^ x.rotateRight n) 0

/-- One round with its constant and its schedule word, already added. -/
def ShaState.round (v : ShaState) (kw : BitVec 32) : ShaState :=
  match v with
  | [a, b, c, d, e, f, g, h] =>
    let pick := (e &&& f) ||| (g &&& ~~~e)
    let most := (a &&& (b ||| c)) ||| (b &&& c)
    let feed := kw + h + pick + spun e [6, 11, 25]
    [feed + most + spun a [2, 13, 22], a, b, c, feed + d, e, f, g]
  | _ => v

/-- The message schedule grown by `n` words, the last word first. -/
def shaGrow : Nat → List (BitVec 32) → List (BitVec 32)
  | 0, ws => ws
  | n + 1, ws =>
    let back (k : Nat) : BitVec 32 := ws.getD (k - 1) 0
    let early := spun (back 15) [7, 18] ^^^ (back 15) >>> 3
    let late := spun (back 2) [17, 19] ^^^ (back 2) >>> 10
    shaGrow n ((back 16 + back 7 + early + late) :: ws)

/-- Bytes as words, the first byte highest. -/
def beWords : Nat → List Byte → List (BitVec 32)
  | 0, _ => []
  | n + 1, bs => (bs.getD 0 0 ++ bs.getD 1 0 ++ bs.getD 2 0 ++ bs.getD 3 0) :: beWords n (bs.drop 4)

/-- The bytes of a number, the highest first. -/
def beBytes : Nat → Nat → List Byte
  | 0, _ => []
  | n + 1, x => BitVec.ofNat 8 (x / 2 ^ (8 * n)) :: beBytes n x

/-- One block of 64 bytes. -/
def ShaState.block (v : ShaState) (bs : List Byte) : ShaState :=
  let ws := (shaGrow 48 (beWords 16 bs).reverse).reverse
  let mixed := (List.zipWith (· + ·) shaK ws).foldl ShaState.round v
  List.zipWith (· + ·) v mixed

/-- `n` blocks. -/
def shaBlocks : Nat → List Byte → ShaState → ShaState
  | 0, _, v => v
  | n + 1, bs, v => shaBlocks n (bs.drop 64) (v.block (bs.take 64))

/-- SHA-256. -/
def sha256 (bs : List Byte) : List Byte :=
  let n := (bs.length + 72) / 64
  let padded := bs ++ 0x80#8 :: (List.replicate (64 * n - 9 - bs.length) 0 ++ beBytes 8 (8 * bs.length))
  (shaBlocks n padded ShaState.init).flatMap (fun w => beBytes 4 w.toNat)

/-! ## LMS -/

/-- The 67 digits of four bits that a one-time signature signs: those of a digest, then those of their checksum. -/
def otsDigits (q : List Byte) : List Nat :=
  let digits (bs : List Byte) : List Nat := bs.flatMap (fun b => [b.toNat / 16, b.toNat % 16])
  let ds := digits q
  ds ++ (digits (beBytes 2 ((ds.map (fun d => 15 - d)).sum * 16))).take 3

/-- A chain of hashes from digit `j` on, `n` steps of it (LMOTS). -/
def otsChain (head : List Byte) (i : Nat) : Nat → Nat → List Byte → List Byte
  | 0, _, t => t
  | n + 1, j, t => otsChain head i n (j + 1) (sha256 (head ++ beBytes 2 i ++ beBytes 1 j ++ t))

/-- The one-time public key that a signature leads to. -/
def otsKey (ident : List Byte) (q : Nat) (c : List Byte) (ys : List Byte) (msg : List Byte) : List Byte :=
  let head := ident ++ beBytes 4 q
  let digits := otsDigits (sha256 (head ++ [0x81, 0x81] ++ c ++ msg))
  let z (i : Nat) : List Byte :=
    let a := digits.getD i 0
    otsChain head i (15 - a) a ((ys.drop (32 * i)).take 32)
  sha256 (head ++ [0x80, 0x80] ++ (List.range 67).flatMap z)

/-- The root of the tree that a node leads to over `n` levels. -/
def lmsRoot (ident : List Byte) : Nat → Nat → List Byte → List Byte → List Byte
  | 0, _, _, t => t
  | n + 1, node, path, t =>
    let p := path.take 32
    let pair := if node % 2 = 1 then p ++ t else t ++ p
    lmsRoot ident n (node / 2) (path.drop 32) (sha256 (ident ++ beBytes 4 (node / 2) ++ [0x83, 0x83] ++ pair))

/-- The bytes of a signature (R427). -/
def lmsSize : Nat := 2668

/-- Whether a signature of a message verifies under a public key of 56 bytes (R427). -/
def lmsVerify (key msg sig : List Byte) : Bool :=
  let at_ (bs : List Byte) (o n : Nat) : List Byte := (bs.drop o).take n
  let ident := at_ key 8 16
  let q := ((at_ sig 0 4).foldl (fun n b => n * 256 + b.toNat) 0)
  let leaf := otsKey ident q (at_ sig 8 32) (at_ sig 40 2144) msg
  decide (key.length = 56 ∧ sig.length = lmsSize ∧ q < 2 ^ 15)
    && decide (at_ key 0 8 = [0, 0, 0, 7, 0, 0, 0, 3])
    && decide (at_ sig 4 4 = [0, 0, 0, 3]) && decide (at_ sig 2184 4 = [0, 0, 0, 7])
    && decide (lmsRoot ident 15 (2 ^ 15 + q) (at_ sig 2188 480)
      (sha256 (ident ++ beBytes 4 (2 ^ 15 + q) ++ [0x82, 0x82] ++ leaf)) = at_ key 24 32)

/-! ## The device's identity (R427, R429, R430)

The key is made from secrets that the spec leaves open (`Config.identityName`, `Config.identitySecret`, `Config.identitySalt`; log 3) as
the standard makes one. -/

/-- `n` bytes of an open value. -/
def openBytes (n : Nat) (f : Nat → Byte) : List Byte := (List.range n).map f

/-- The name of the key, and what its one-time key `q` hashes first. -/
def identityName : List Byte := openBytes 16 Config.identityName
def otsHead (q : Nat) : List Byte := identityName ++ beBytes 4 q

/-- The end of chain `i` of one-time key `q` after `n` steps. -/
def otsStep (q n i : Nat) : List Byte := otsChain (otsHead q) i n 0 (openBytes 32 (Config.identitySecret q i))

/-- The one-time public key `q`. -/
def otsPublic (q : Nat) : List Byte := sha256 (otsHead q ++ [0x80, 0x80] ++ (List.range 67).flatMap (otsStep q 15))

/-- A node of the key's tree, `n` levels above the leaves. -/
def identityNode : Nat → Nat → List Byte
  | 0, node => sha256 (identityName ++ beBytes 4 node ++ [0x82, 0x82] ++ otsPublic (node - 2 ^ 15))
  | n + 1, node =>
    sha256 (identityName ++ beBytes 4 node ++ [0x83, 0x83] ++ (identityNode n (2 * node) ++ identityNode n (2 * node + 1)))

/-- The public key of the device's identity. -/
noncomputable def identityKey : List Byte := [0, 0, 0, 7, 0, 0, 0, 3] ++ identityName ++ identityNode 15 1

/-- The nodes beside the way from a node up over `n` levels, the first one `l` levels above the leaves. -/
def identityPath : Nat → Nat → Nat → List Byte
  | 0, _, _ => []
  | n + 1, l, node => identityNode l (if node % 2 = 1 then node - 1 else node + 1) ++ identityPath n (l + 1) (node / 2)

/-- The device's signature of a message with leaf `q` (R427, R429). -/
def identitySign (q : Nat) (msg : List Byte) : List Byte :=
  let salt := openBytes 32 (Config.identitySalt q msg)
  let digits := otsDigits (sha256 (otsHead q ++ [0x81, 0x81] ++ salt ++ msg))
  beBytes 4 q ++ [0, 0, 0, 3] ++ salt ++ (List.range 67).flatMap (fun i => otsStep q (digits.getD i 0) i)
    ++ [0, 0, 0, 7] ++ identityPath 15 0 (2 ^ 15 + q)

end Sys2Proof.Machine
end

