-- ==== Sys2Proof/Machine/Sequence.lean ====
section
/-! DEFINITION. CONFIG commands: objects, sections and bindings checked, the sequencing program, unloading (R58 to R62, R283 to
R286, R379, R398). -/

namespace Sys2Proof.Machine

/-! ## Objects -/

/-- A section header of an object (R59), as far as a CONFIG command reads it. -/
structure SecHead where
  idx   : Nat
  ty    : Nat
  flags : Nat
  off   : Nat
  size  : Nat
  link  : Nat
  deriving DecidableEq, Repr

/-- What reading an object comes to. -/
inductive ObjRead (α : Type) where
  | ok (v : α)
  | malformed
  | fault (f : Flt)

/-- The bytes of a section header (R59). -/
def readSecHead (idx : Nat) (bs : List Byte) : SecHead :=
  ⟨idx, fieldAt bs 0 4, fieldAt bs 4 4, fieldAt bs 8 8, fieldAt bs 16 8, fieldAt bs 36 4⟩

/-- Whether a loader accepts a section of an object at an address (R60): its type, and that it ends within the addresses that
the object may take (log 42). -/
def SecHead.accepted (obj : Word) (h : SecHead) : Bool :=
  (decide (1 ≤ h.ty ∧ h.ty ≤ 9) || decide (0x1000 ≤ h.ty ∧ h.ty ≤ 0xFFFF))
    && (decide (h.flags / 8 % 2 = 1) || decide (obj.toNat + h.off + h.size ≤ 281474976710656))

/-- The section headers of an object, from the last (R58, R59). (log 42: DESIGN CHOICE.) -/
def State.secHeads (c : Ctx) (obj : Word) (table : Nat) : Nat → State → State × ObjRead (List SecHead)
  | 0, s => (s, .ok [])
  | n + 1, s =>
    let (s, rest) := State.secHeads c obj table n s
    match rest with
    | .ok hs =>
      let (s, r) := s.lanternRead c (Acc.load (obj + wordOf (table + 48 * n)) 48)
      match r with
      | .error f => (s, .fault f)
      | .ok bs =>
        let h := readSecHead n bs
        (s, if h.accepted obj then .ok (hs ++ [h]) else .malformed)
    | o => (s, o)

/-- The contents of the sections that the command reads: CONFIG, BINDING and SEQUENCE (R60). -/
def State.secBytes (c : Ctx) (obj : Word) : List SecHead → State → State × ObjRead (List (SecHead × List Byte))
  | [], s => (s, .ok [])
  | h :: rest, s =>
    if h.ty < 7 ∨ 9 < h.ty then State.secBytes c obj rest s
    else
      let (s, r) : State × Except Flt (List Byte) :=
        if h.flags / 8 % 2 = 1 then (s, .ok (List.replicate h.size 0))
        else if h.size = 0 then (s, .ok [])
        else s.lanternRead c (Acc.load (obj + wordOf h.off) h.size)
      match r with
      | .error f => (s, .fault f)
      | .ok bs =>
        let (s, o) := State.secBytes c obj rest s
        match o with
        | .ok xs => (s, .ok ((h, bs) :: xs))
        | o => (s, o)

/-- An object's sections read (R58 to R60). -/
def State.readObject (c : Ctx) (obj : Word) (s : State) : State × ObjRead (List (SecHead × List Byte)) :=
  let (s, r) := s.lanternRead c (Acc.load obj 64)
  match r with
  | .error f => (s, .fault f)
  | .ok h =>
    if fieldAt h 0 4 ≠ 0x52504550 ∨ fieldAt h 4 2 ≠ 1 then (s, .malformed)
    else
      let (s, o) := State.secHeads c obj (fieldAt h 16 8) (fieldAt h 12 4) s
      match o with
      | .ok hs => State.secBytes c obj hs s
      | .malformed => (s, .malformed)
      | .fault f => (s, .fault f)

/-! ## Checks -/

/-- A BINDING entry of a plane (R285); none where it is malformed. -/
def readBinding (p : Plane) (bs : List Byte) : Option BindEntry :=
  let block := fieldAt bs 4 1
  let node := fieldAt bs 5 1
  let dir := fieldAt bs 6 1
  let fmt := fieldAt bs 7 1
  let flags := fieldAt bs 8 4
  match p.find block node with
  | none => none
  | some n =>
    if ((dir = 0 ∧ nodeOp n.word = 0x3E) ∨ (dir = 1 ∧ nodeOp n.word = 0x3F)) ∧ (fmt ≤ 9 ∨ fmt = 0xFF) ∧ flags < 2
        ∧ fieldAt bs 12 20 = 0 then some ⟨block, node, dir, fmt, decide (flags = 1), n.site⟩
    else none

/-- A BINDING section (R285); none where it is malformed. -/
def readBindings (p : Plane) (bs : List Byte) : Option (List BindEntry) :=
  if bs.length % 32 ≠ 0 then none
  else
    match (List.range (bs.length / 32)).mapM (fun i => readBinding p ((bs.drop (32 * i)).take 32)) with
    | none => none
    | some es =>
      if (es.map BindEntry.site).Nodup ∧ (p.kind ≠ 1 ∨ es.any BindEntry.sink = true) then some es else none

/-- The sequencing program (R62). -/
def readProgram (bs : List Byte) : List SeqStep :=
  (List.range (bs.length / 16)).map (fun i =>
    let o := 16 * i
    ⟨fieldAt bs o 1, fieldAt bs (o + 1) 1, fieldAt bs (o + 2) 1, fieldAt bs (o + 4) 4, imgWord bs (o + 8), imgWord bs o⟩)

/-- The CONFIG sections with the bindings of their first BINDING (R284, R285); none where a check fails. A section's address, which
keys it in the hearth (R62), is the object's plus OFFSET. (log 94: DESIGN CHOICE.) -/
def readSections (obj : Word) (xs : List (SecHead × List Byte)) : Option (List Section) :=
  let binding (i : Nat) : Option (List Byte) :=
    (xs.find? (fun x => decide (x.1.ty = 8 ∧ x.1.link = i))).map Prod.snd
  (xs.filter (fun x => decide (x.1.ty = 7))).mapM (fun x =>
    if greatestImage < imageTotal x.2 then none
    else
      match parseImage x.2 with
      | none => none
      | some p =>
        match binding x.1.idx with
        | none => some ⟨x.1.idx, obj + wordOf x.1.off, x.2.take (imageTotal x.2), p, []⟩
        | some bs => (readBindings p bs).map (fun es => ⟨x.1.idx, obj + wordOf x.1.off, x.2.take (imageTotal x.2), p, es⟩))

/-- Every BINDING section is well formed and names a CONFIG section (R59, R285). -/
def bindingsOk (secs : List Section) (xs : List (SecHead × List Byte)) : Bool :=
  (xs.filter (fun x => decide (x.1.ty = 8))).all (fun x =>
    match secs.find? (fun c => decide (c.idx = x.1.link)) with
    | none => false
    | some c => (readBindings c.plane x.2).isSome)

/-- R285 for the sections that LOAD steps place: one BINDING each, with an entry for every ENTRY and RETURN. -/
def loadsOk (secs : List Section) (prog : List SeqStep) (xs : List (SecHead × List Byte)) : Bool :=
  (prog.filter (fun st => decide (st.op = 1))).all (fun st =>
    match secs.find? (fun c => decide (c.idx = st.arg0)) with
    | none => true
    | some c =>
      decide (c.plane.kind ≠ 1) ||
        (decide ((xs.filter (fun x => decide (x.1.ty = 8 ∧ x.1.link = c.idx))).length = 1)
          && c.plane.nodes.all (fun n => decide (nodeOp n.word ≠ 0x3E ∧ nodeOp n.word ≠ 0x3F)
              || c.binds.any (fun e => decide (e.site = n.site)))))

/-- An object's sections and program, checked before any site is written (R398); none where it is malformed. Its first SEQUENCE
section is the program, in whole steps; without one the program is empty. (log 94: DESIGN CHOICE; log 43: DESIGN CHOICE.) -/
def checkObject (obj : Word) (xs : List (SecHead × List Byte)) : Option (List Section × List SeqStep) :=
  let prog := readProgram (((xs.find? (fun x => decide (x.1.ty = 9))).map Prod.snd).getD [])
  match readSections obj xs with
  | none => none
  | some secs => if bindingsOk secs xs && loadsOk secs prog xs then some (secs, prog) else none

/-! ## The program -/

/-- A program error (R62, R398, R401): a SEQ_ERROR event names the step; the command ends. (log 60: DESIGN CHOICE.) -/
def State.seqError (q : Nat) (c : Cmd) (i : Int) (first : Word) (s : State) : State :=
  (State.post ⟨7, q, q / 32, (i % (2 ^ 32 : Nat)).toNat, c.idx.setWidth 64, first, packetTag c.words, 0⟩ s).cmdDone q c

/-- The program of a command goes on with a step (R62): one outside it, or with an OP or COND outside its values, is an error. COND is
checked on every step, REGION on those that use it. (log 94: DESIGN CHOICE.) -/
def State.seqGoto (q : Nat) (c : Cmd) (i : Int) (s : State) : State :=
  match c.work with
  | .load secs prog _ map =>
    if i < 0 then s.seqError q c i 0
    else
      match prog[i.toNat]? with
      | none => s.seqError q c i 0
      | some st =>
        if 7 < st.op ∨ 3 < st.cond then s.seqError q c i st.first
        else s.setWork q c (.load secs prog i.toNat map)
  | _ => s

/-- The region map of a CONFIG command (R398): spire and region of each entry. -/
def readMap (bs : List Byte) (n : Nat) : List (Nat × Nat) :=
  (List.range n).map (fun i => (fieldAt bs (4 * i) 1, fieldAt bs (4 * i + 1) 1 % 64))

/-- The map and the object of a LOAD read and checked (R398). -/
def State.loadStart (q : Nat) (c : Cmd) (s : State) : State :=
  let ctx := s.lanternCtx q
  let n := c.words[5].toNat
  let idx := c.idx.toNat
  let (s, m) := s.lanternRead ctx (Acc.load c.words[4] (4 * n))
  match m with
  | .error f => s.stallCmd q idx f
  | .ok mb =>
    let (s, o) := s.readObject ctx c.words[2]
    match o with
    | .fault f => s.stallCmd q idx f
    | .malformed => s.failCmd q idx 0x42 0
    | .ok xs =>
      match checkObject c.words[2] xs with
      | none => s.failCmd q idx 0x42 0
      | some (secs, prog) =>
        let w : CmdWork := .load secs prog 0 (readMap mb n)
        (s.setWork q c w).seqGoto q { c with work := w } 0

/-- CONFIG_LOAD (R389, R398). -/
def execEvConfigLoad (q : Nat) (s : State) : Host.Outcome State Fault Refusal :=
  .next (s.runCmd q (fun c => match c.work with
      | .load _ _ _ [] => true
      | _ => false)
    (isOpSub 5 0) (fun _ => .load [] [] 0 []) (State.loadStart q))

/-- The step that the started LOAD of packet `k` executes, when its OP is the one given. -/
def seqStep (op q k : Nat) (act : Cmd → List Section → Nat → SeqStep → List (Nat × Nat) → State → State) (s : State) :
    Host.Outcome State Fault Refusal :=
  match (s.queue q).cmds.find? (fun c => decide (c.idx.toNat = k) && !c.done && c.stalled.isNone) with
  | none => .next s
  | some c =>
    match c.work with
    | .load secs prog i map =>
      match prog[i]? with
      | some st => if map ≠ [] ∧ st.op = op then .next (act c secs i st map s) else .next s
      | none => .next s
    | _ => .next s

/-- The region that a step names (R62, R398); a program error where it names none of kind 1. -/
def State.onStepRegion (q : Nat) (c : Cmd) (i : Nat) (st : SeqStep) (map : List (Nat × Nat))
    (go : Nat → Nat → Region → State → State) (s : State) : State :=
  match map[st.region]? with
  | none => s.seqError q c i st.first
  | some (g, n) =>
    match s.region g n with
    | some r => if r.kind = 1 then go g n r s else s.seqError q c i st.first
    | none => s.seqError q c i st.first

/-- The CONFIG section that a step names for a region: of kind 1 and of its shape (R270, R286); where ARG0 names none, the step is a
program error. (log 94: DESIGN CHOICE.) -/
def stepSection (secs : List Section) (st : SeqStep) (r : Region) : Option Section :=
  (secs.find? (fun c => decide (c.idx = st.arg0))).filter (fun c =>
    decide (c.plane.kind = 1 ∧ c.plane.rows = r.rows ∧ c.plane.cols = r.cols))

/-- SEQ_END: the program ends and the LOAD completes (R62, R398). -/
def execEvSeqEnd (q k : Nat) (s : State) : Host.Outcome State Fault Refusal :=
  seqStep 0 q k (fun c _ _ _ _ s => s.cmdDone q c) s

/-- What a LOADING stream region is reserved for: a command, by its queue and packet index. -/
def cmdMark (q : Nat) (c : Cmd) : Nat := (q + 1) * 2 ^ 32 + c.idx.toNat

/-- SEQ_LOAD: a section placed in its region once that is EMPTY; the region passes through LOADING to PLACED (R62, R269). -/
def execEvSeqLoad (q k : Nat) (s : State) : Host.Outcome State Fault Refusal :=
  seqStep 1 q k (fun c secs i st map s => s.onStepRegion q c i st map (fun g n r s =>
    match stepSection secs st r with
    | none => s.seqError q c i st.first
    | some x =>
      let v := s.queue q
      if r.st = .empty then
        let sp := s.spire g
        let sp := if (sp.image v.asid x.addr).isSome then sp else sp.insertImage ⟨v.asid, x.addr, x.bytes, 0⟩
        ((s.setSpire g sp).setRegion g n (r.receive x.plane v.asid x.addr (some (cmdMark q c)))).turnIntervals g r true
      else if r.st = .loading ∧ r.reserved = some (cmdMark q c) then
        (s.loadPlane g n x.plane (fun r => { r with
          casid := v.asid, cptbr := v.ptbr, cprv := .lantern
          entries := x.binds, binds := [], sinkEos := [], eosTaken := 0 })).seqGoto q c (i + 1)
      else s)) s

/-- SEQ_SWAP: the region is armed with a section for its shadow plane (R62, R286). -/
def execEvSeqSwap (q k : Nat) (s : State) : Host.Outcome State Fault Refusal :=
  seqStep 2 q k (fun c secs i st map s => s.onStepRegion q c i st map (fun g n r s =>
    match stepSection secs st r with
    | none => s.seqError q c i st.first
    | some x =>
      if r.st ≠ .placed then s.seqError q c i st.first
      else
        (s.setRegion g n { r with
          st := .swapping, shadow := some x.plane, written := [], swapped := [], passed := [], sentEnd := [], squeues := [], snodes := []
          }).seqGoto q c (i + 1))) s

/-- The sink end-of-streams that a region has counted (R62). -/
def Region.sinkCount (r : Region) : Nat :=
  let sinks := (List.range r.entries.length).filter (fun i => (r.entries[i]?).any BindEntry.sink)
  ((sinks.map (fun i => (tget i r.sinkEos).getD 0)).min?).getD 0

/-- SEQ_WAITEOS: takes one counted sink end-of-stream, or waits (R62). -/
def execEvSeqWaiteos (q k : Nat) (s : State) : Host.Outcome State Fault Refusal :=
  seqStep 3 q k (fun c _ i st map s => s.onStepRegion q c i st map (fun g n r s =>
    if r.eosTaken < r.sinkCount then (s.setRegion g n { r with eosTaken := r.eosTaken + 1 }).seqGoto q c (i + 1) else s)) s

/-- SEQ_WAITC: waits until COND holds; a fault of the read is a program error (R62). -/
def execEvSeqWaitc (q k : Nat) (s : State) : Host.Outcome State Fault Refusal :=
  seqStep 4 q k (fun c _ i st _ s =>
    let (s, r) := s.condHolds (s.lanternCtx q) st.cond st.arg1
    match r with
    | .error _ => s.seqError q c i st.first
    | .ok true => s.seqGoto q c (i + 1)
    | .ok false => s) s

/-- SEQ_SKIPC: moves by ARG0 steps, relative to the next step, if COND holds (R62). -/
def execEvSeqSkipc (q k : Nat) (s : State) : Host.Outcome State Fault Refusal :=
  seqStep 5 q k (fun c _ i st _ s =>
    let (s, r) := s.condHolds (s.lanternCtx q) st.cond st.arg1
    match r with
    | .error _ => s.seqError q c i st.first
    | .ok true => s.seqGoto q c ((i : Int) + 1 + (BitVec.ofNat 32 st.arg0).toInt)
    | .ok false => s.seqGoto q c (i + 1)) s

/-- SEQ_PIN: pins the region's image, which is used (R62, R208, R224): the one that its last LOAD placed, after a SWAP too.
(log 60: DEDUCED.) -/
def execEvSeqPin (q k : Nat) (s : State) : Host.Outcome State Fault Refusal :=
  seqStep 6 q k (fun c _ i st map s => s.onStepRegion q c i st map (fun g _ r s =>
    let (status, sp) := ((s.spire g).useImage r.imgAsid r.imgAddr false).pin r.imgAsid r.imgAddr
    if r.st = .empty then s.seqError q c i st.first
    else if status ≠ 0 then (s.setSpire g sp).seqError q c i st.first
    else (s.setSpire g sp).seqGoto q c (i + 1))) s

/-- SEQ_UNPIN: unpins the region's image (R62, R224), named as SEQ_PIN names it. (log 60: DEDUCED.) -/
def execEvSeqUnpin (q k : Nat) (s : State) : Host.Outcome State Fault Refusal :=
  seqStep 7 q k (fun c _ i st map s => s.onStepRegion q c i st map (fun g _ r s =>
    (if r.st = .empty then s else s.setSpire g ((s.spire g).unpin r.imgAsid r.imgAddr).2).seqGoto q c (i + 1))) s

/-! ## Unloading -/

/-- A region unloaded (R398): both planes cleared, EMPTY, HALT clear; its BINDs end with code 0x45. -/
def State.unloadRegion (g n : Nat) (r : Region) (s : State) : State :=
  let s := s.turnIntervals g r false
  let s := s.setRegion g n { (r.clear.setHalt false) with binds := [], entries := [], sinkEos := [], eosTaken := 0 }
  r.binds.foldl (fun s b => s.failCmd b.queue b.packet 0x45 0) s

/-- One step of UNLOAD or FORCE (R398, R411): the map read, HALT set and a cut abandoned; then the wait for QUIET, or with FORCE for
the accesses. -/
def State.unloadStep (q : Nat) (force : Bool) (c : Cmd) (s : State) : State :=
  let idx := c.idx.toNat
  match c.work with
  | .unload (some (g, n)) _ =>
    match s.region g n with
    | none => s.cmdDone q c
    | some r =>
      if (if force then r.accs.isEmpty else r.isQuiet) then (s.unloadRegion g n r).cmdDone q c else s
  | _ =>
    let (s, m) := s.lanternRead (s.lanternCtx q) (Acc.load c.words[4] 4)
    match m with
    | .error f => s.stallCmd q idx f
    | .ok mb =>
      let g := fieldAt mb 0 1
      let n := fieldAt mb 1 1 % 64
      match s.region g n with
      | none => s.failCmd q idx 0x41 0
      | some r =>
        if r.kind ≠ 1 then s.failCmd q idx 0x41 0
        else (s.setRegion g n (r.dropCut.setHalt true)).setWork q c (.unload (some (g, n)) force)

/-- The unloading commands (R398). -/
def unloadOp (sub q : Nat) (force : Bool) (s : State) : Host.Outcome State Fault Refusal :=
  .next (s.runCmd q (fun c => match c.work with
      | .unload _ f => f == force
      | _ => false)
    (isOpSub 5 sub) (fun _ => .unload none force) (State.unloadStep q force))

/-- CONFIG_UNLOAD (R398). -/
def execEvConfigUnload (q : Nat) (s : State) : Host.Outcome State Fault Refusal := unloadOp 1 q false s

/-- CONFIG_FORCE (R398). -/
def execEvConfigForce (q : Nat) (s : State) : Host.Outcome State Fault Refusal := unloadOp 2 q true s

end Sys2Proof.Machine
end

