-- ==== Sys2Proof/Machine/Power.lean ====
section
/-! DEFINITION. Peers, power islands, thermal limits, errors and spares, start-up and attestation (R34, R35, R172, R403 to R405,
R419 to R430). -/

namespace Sys2Proof.Machine

/-! ## Peers -/

/-- The die of a peer port (R14). -/
def portDie (p : Nat) : Nat := p / 6

/-- The first byte beyond what peers may write (R405). -/
def peerSpace : Nat := 0x20000000000

/-- The bytes that a peer's access names. -/
def PeerReq.size (r : PeerReq) : Nat :=
  match r.amo, r.sync with
  | some a, _ => a.size
  | none, some _ => 8
  | none, none => r.data.length

/-- Whether an access lies within its peer's window on the die of its port, and within the peer space (R405). -/
def State.pinned (s : State) (r : PeerReq) : Bool :=
  let d := s.die (portDie (s.peerPort r.peer))
  let lo := (d.pinBase[r.peer % 32]'(Nat.mod_lt _ (by decide))).toNat
  let hi := (d.pinLim[r.peer % 32]'(Nat.mod_lt _ (by decide))).toNat
  decide (lo ≤ r.key ∧ r.key + r.size ≤ hi ∧ r.key + r.size ≤ peerSpace)

/-- An atomic of a peer at its home (R177, R405). -/
def State.peerAmo (a : AmoReq) (s : State) : State :=
  match a.apply (leNat (s.homeRead a.key a.size)) with
  | some x => s.homeWrite a.key (leBytes a.size x)
  | none => s

/-- A sync-word operation of a peer at its home (R174, R403): on a word without a full/empty bit it has no effect. -/
def State.peerSync (r : SyncReq) (s : State) : State :=
  if (s.home r.key).hasBit then
    match r.apply (s.homeWord r.key) (s.isFull r.key) with
    | .done write full _ =>
      let s := match write with
        | some x => s.homeWrite r.key (leBytes 8 x.toNat)
        | none => s
      if r.op = .peekf then s else s.turnBit r.key full
    | _ => s
  else s

/-- PEER_ACCESS: the first access that has arrived from peer `p` is performed at its home, or dropped with a PEER event
(R404, R405). -/
def execEvPeerAccess (p : Nat) (s : State) : Host.Outcome State Fault Refusal :=
  match lfind (fun r => decide (r.peer = p)) s.peerIn with
  | none => .next s
  | some i =>
    match s.peerIn[i]? with
    | none => .next s
    | some r =>
      let s := { s with peerIn := ldel s.peerIn i }
      let port := s.peerPort p
      if !s.pinned r then .next (s.postDie (portDie port) 8 1 (wordOf port) (wordOf p) (wordOf r.key))
      else
        match r.amo, r.sync with
        | some a, _ => .next (s.peerAmo { a with key := r.key })
        | none, some o => .next (s.peerSync { o with key := r.key })
        | none, none => .next (if (s.home r.key).cached then s.homeWrite r.key r.data else s)

/-- PEER_LINK_DOWN: a port's link fails: what is in flight on it is dropped and counted (R404). -/
def execEvPeerLinkDown (p : Nat) (s : State) : Host.Outcome State Fault Refusal :=
  let port := p % 12
  let out := s.peerOut.filter (fun o => decide (o.port = port) && o.posted)
  let inn := s.peerIn.filter (fun r => decide (s.peerPort r.peer = port))
  let s' := { s with
    links := s.links.set port false (Nat.mod_lt _ (by decide))
    peerOut := s.peerOut.filter (fun o => decide (o.port ≠ port))
    peerIn := s.peerIn.filter (fun r => decide (s.peerPort r.peer ≠ port)) }
  .next (s'.postDie (portDie port) 8 2 (wordOf port) (wordOf (out.length + inn.length)) 0)

/-- PEER_LINK_UP: a port's link comes up (R403). -/
def execEvPeerLinkUp (p : Nat) (s : State) : Host.Outcome State Fault Refusal :=
  .next { s with links := s.links.set (p % 12) true (Nat.mod_lt _ (by decide)) }

/-! ## Islands -/

/-- The number of power islands (R34). -/
def islandCount : Nat := 512

/-- The die of an island (R34). -/
def islandDie (i : Nat) : Nat := if i < 480 then i / 240 else (i - 480) / 16

/-- ISLCTL_WRITE (R419). -/
def execEvIslctlWrite (i v : Nat) (s : State) : Host.Outcome State Fault Refusal :=
  .next (if i < islandCount then s.setIsland i ((s.island i).write (BitVec.allOnes 64) (wordOf v)) else s)

/-- Memory without the bytes of keys that a test names; the words that it names become empty (R172). (log 63: DESIGN CHOICE.) -/
def State.wipe (gone : Nat → Bool) (s : State) : State :=
  { s with mem := s.mem.filter (fun c => !gone c.1), full := s.full.filter (fun w => !gone (8 * w)) }

/-- Whether a key lies in the keep of a spire, or in the words of one SRAM die of a die's dome memory. -/
def inKeep (g k : Nat) : Bool := decide (keepKey g 0 ≤ k ∧ k < keepKey g 0 + 4194304)
def inSram (die : Nat) (second : Bool) (k : Nat) : Bool :=
  decide (0x10000000000 + die * 0x80000000 ≤ k ∧ k < 0x10000000000 + (die + 1) * 0x80000000) && (Config.sramDie (k / 8) == second)

/-- The island of die 1's PCI Express controller, which stays gated (R14, R34). -/
def deadIsland : Nat := 508

/-- An island powers up (R141, R172, R419, R423): its counts restart, and so do the windows of its structures'
corrected errors; keep words and an SRAM die's words are zero and empty. Die 1's PCI Express controller stays gated (R14). -/
def State.powerUp (i : Nat) (s : State) : State :=
  if i = deadIsland then s
  else
  let s := s.setIsland i { s.island i with st := 1, vfcur := 0, cyc := 0, since := s.now }
  let s := { s with ecc := s.ecc.map (fun e => if structIsland e.cls e.id = some i then { e with count := 0, win := 0 } else e) }
  if i < 480 then (if i % 3 = 2 then s.wipe (inKeep (i / 3)) else s)
  else if (i - 480) % 16 ≤ 1 then s.wipe (inSram (islandDie i) (decide ((i - 480) % 16 = 1)))
  else s

/-- Whether a queue is empty (R34, R420). -/
def Queue.isIdle (v : Queue) : Bool := v.cmds.isEmpty && decide (v.ridx = v.widx)

/-- Whether every queue of a die is empty (R34). -/
def State.queuesIdle (s : State) (die : Nat) : Bool := (List.range 32).all (fun j => (s.queue (32 * die + j)).isIdle)

/-- Whether an island wants power (R34, R419): its ON asks for it, or it is a lantern's with a queue that is not empty. -/
def State.wantsPower (s : State) (i : Nat) : Bool :=
  (s.island i).on || (decide (480 ≤ i ∧ (i - 480) % 16 = 11) && !s.queuesIdle (islandDie i))

/-- ISLAND_POWER_UP: an island that wants power is CHANGING, then powers up (R34, R419, R420). (log 64: DEDUCED.) -/
def execEvIslandPowerUp (i : Nat) (s : State) : Host.Outcome State Fault Refusal :=
  .next (if islandCount ≤ i ∨ i = deadIsland then s
    else if (s.island i).st = 2 then s.powerUp i
    else if (s.island i).st = 0 ∧ s.wantsPower i = true then s.setIsland i { s.island i with st := 2 }
    else s)

/-- Whether every island of a list is OFF. -/
def State.allOff (s : State) (is : List Nat) : Bool := is.all (fun i => decide ((s.island i).st = 0))

/-- The slots of a spire, as identities. -/
def spireTids (g : Nat) : List Nat := (List.range 256).map (fun i => mkTid g (i / 16) (i % 16))

/-- The keys of a slot's accesses under way (R164, R168). -/
def Slot.keys (v : Slot) : List Nat :=
  v.queue.flatMap (fun e => match e with
    | .store _ ps => ps.map StorePiece.key
    | .amo _ r => [r.key])
  ++ (match v.park.map Park.op with
    | some (.load r) => r.todo.map Piece.key
    | some (.once ps) => ps.map StorePiece.key
    | some (.atomic r _) => [r.key]
    | some (.sync r _ _) => [r.key]
    | some (.fetch line) => [64 * line]
    | some (.save _ k _ _ _) => [k]
    | some (.metadata _ _ _ _ ps _) => ps.map Piece.key
    | _ => [])

/-- The island through which an access to a key passes at its home (R33, R34): that of the LPDDR 5X channel, of the dome memory
controller, of the PCI Express controller or of the peer port. -/
def State.keyIsland (s : State) (k : Nat) : Option Nat :=
  match s.home k with
  | .lpddr d => some (480 + 16 * d + 2 + lpddrChannel k / 8)
  | .dome d => some (480 + 16 * d + (if Config.sramDie (k / 8) then 1 else 0))
  | .host => some (480 + 12)
  | .peer p => some (480 + 16 * portDie (s.peerPort p) + 13 + s.peerPort p % 6 / 2)
  | .keep _ _ | .device | .unbacked => none

/-- The die of a device register (R7, R384, R416, R419): that of its spire, queue, die block or island. -/
def devDie (o : Nat) : Nat :=
  if o < 0xA0000000 then o / 0x1000000 / 80
  else if 0x1000000000 ≤ o ∧ o < 0x1000040000 then o / 0x1000 % 64 / 32
  else if 0x1100000000 ≤ o ∧ o < 0x1100020000 then o / 0x10000 % 2
  else if 0x2000000000 ≤ o ∧ o < 0x20A0000000 then (o - 0x2000000000) / 0x1000000 / 80
  else if 0x3000000000 ≤ o ∧ o < 0x3000001000 then islandDie ((o - 0x3000000000) / 8)
  else 0

/-- The die of a key's home. -/
def State.keyDie (s : State) (k : Nat) : Nat :=
  match s.home k with
  | .keep g _ => g / 80
  | .lpddr d | .dome d => d
  | .peer p => portDie (s.peerPort p)
  | .device => devDie (k - deviceBase)
  | .host | .unbacked => 0

/-- The die of an agent (R10, R15): that of its spire, or of the lantern. -/
def Ctx.die (c : Ctx) : Nat := if c.g < Config.spires then c.g / 80 else c.g - Config.spires

/-- The table entries that a walk reads (R366, R367): `n` levels remain above level 3. -/
def State.walkReads (s : State) (c : Ctx) (va : Nat) : Nat → Nat → List Nat
  | 0, table => [table + va / 65536 % 32 * 16 * 8, table + va / 4096 % 512 * 8]
  | n + 1, table =>
    let k := table + va / 2 ^ (21 + 9 * n) % 512 * 8
    k :: match (s.readPte c.g k).2 with
      | some w => if w.getLsbD 0 && !w.getLsbD 1 then s.walkReads c va n (fld w 12 36 * 4096) else []
      | none => []

/-- An access that an engine is making: its rights, its kind, its address. -/
abbrev EngineAccess : Type := Ctx × (AccKind × Word)

/-- The accesses that a fabric or matrix region is making (R263, R310, R311). -/
def State.regionAccesses (s : State) (g : Nat) (r : Region) : List EngineAccess :=
  r.accs.map (fun a => (s.accessRights g r a, (if a.store then .write else .read, a.addr)))
    ++ (match r.matrix.run with
      | some u => (r.matrix.rights g, (.read, u.next)) :: match u.op with
        | .tile _ _ dst pitch => [(r.matrix.rights g, (.write, dst + wordOf (u.unit - 1) * pitch))]
        | _ => []
      | none => [])
    ++ r.binds.flatMap (fun b => b.ports.flatMap (fun p =>
      match p.descs.head? with
      | some d => [(b.ctx g, (.read, d.base + wordOf (8 * p.moved)))]
      | none => []))

/-- The accesses that a channel's copy is making (R325, R336). -/
def copyAccesses (g : Nat) (c : Channel) : List EngineAccess :=
  match c.activeCopy with
  | some e =>
    if e.st = .landing then
      (e.ctx g, (.read, e.source e.next)) :: (if e.port.isSome then [] else [(e.ctx g, (.write, e.target e.next))])
    else if e.st = .signal then [(e.ctx g, (.write, e.sig))] else []
  | none => []

/-- The accesses that a crucible context is making (R344, R347, R350, R352). -/
def contextAccesses (g : Nat) (v : Context) : List EngineAccess :=
  let at_ (k : AccKind) (w : Word) : EngineAccess := (v.rights g, (k, w))
  (if v.works then v.streams.toList.flatMap (fun z => match z with
      | some z => if z.unread then [at_ .read (z.base + wordOf ((if z.run then 32 else 0) + 16 * z.pos))] else []
      | none => [])
    ++ (if v.spilling then [at_ .write (v.spnext + wordOf (16 * v.wrote))] else []) else [])
  ++ (if v.st = .final then match v.desc with
      | some d => [at_ .write d.kbase, at_ .write d.vbase, at_ .write d.rbase]
      | none => [] else [])
  ++ (match v.setop with
      | some o => if v.st = .setop then
          [at_ .read (o.pbase + wordOf (8 * o.ip)), at_ .read (o.qbase + wordOf (8 * o.iq)), at_ .write (o.outk + wordOf (8 * o.n)),
            at_ .write (o.outi + wordOf (8 * o.n))] else []
      | none => [])

/-- The accesses that a started command of a queue is making itself (R391, R394 to R398, R400). -/
def State.commandAccesses (s : State) (q : Nat) (c : Cmd) : List EngineAccess :=
  let at_ (k : AccKind) (w : Word) : EngineAccess := (s.lanternCtx q, (k, w))
  if c.done then (if packetSig c.words then [at_ .write c.words[1]] else [])
  else if c.stalled.isSome then []
  else
    match c.work with
    | .launch _ _ args => if args.isEmpty then [at_ .read c.words[3]] else []
    | .bind _ _ => [at_ .read c.words[3]]
    | .wait => [at_ .read c.words[2]]
    | .signal => [at_ .write c.words[2]]
    | .load _ _ _ _ => [at_ .read c.words[2], at_ .read c.words[4]]
    | .unload none _ => [at_ .read c.words[4]]
    | .copy _ _ none => [at_ .read c.words[5]]
    | _ => []

/-- The accesses that the engines of the package and the started commands are making. -/
def State.engineAccesses (s : State) : List EngineAccess :=
  s.spires.flatMap (fun e => e.2.regions.flatMap (fun x => s.regionAccesses e.1 x.2)
    ++ e.2.channels.toList.flatMap (copyAccesses e.1) ++ e.2.ctxs.toList.flatMap (contextAccesses e.1))
  ++ s.queues.flatMap (fun e => e.2.cmds.flatMap (s.commandAccesses e.1))

/-- The keys of the accesses under way, each with the die of its agent: those of threads and their walks, and those of the engines and
the started commands. (log 64: DEDUCED.) -/
def State.underWay (s : State) : List (Nat × Nat) :=
  s.slots.flatMap (fun e => (e.2.keys ++ match e.2.park.map Park.op with
    | some (.walk va _ _) => s.walkReads (e.2.ctx (tidSpire e.1)) va 3 (fld e.2.ptbr 12 36 * 4096)
    | _ => []).map (fun k => (tidDie e.1, k)))
  ++ s.engineAccesses.filterMap (fun a => (s.placeOf a.1 a.2.1 a.2.2.toNat).map (fun k => (a.1.die, k)))

/-- Whether a started command of a queue has work of its own to pass to the other die (R16): a thread to place, a region to bind or
configure, a copy to issue. -/
def Cmd.crosses (die : Nat) (map : Nat → Nat) (c : Cmd) : Bool :=
  !c.done && match c.work with
    | .launch n _ _ => decide (n < launchCount c.words) && (decide (map (launchFirst c.words) ≠ die) || decide (map (launchLast c.words) ≠ die))
    | .bind g _ | .copy g _ none => decide (map g ≠ die)
    | .load _ _ _ m => m.any (fun e => decide (map e.1 ≠ die))
    | .unload (some (g, _)) _ => decide (map g ≠ die)
    | .region => decide (map (fld c.words[4] 0 8) ≠ die)
    | _ => false

/-- Whether something is under way between the dies (R15, R16, R420). -/
def State.bridgeBusy (s : State) : Bool :=
  s.underWay.any (fun e => decide (s.keyDie e.2 ≠ e.1))
    || s.queues.any (fun e => e.2.cmds.any (Cmd.crosses (e.1 / 32) (· / 80)))
    || s.net.any (fun m => decide (tidDie (handleTid m.src) ≠ tidDie (dstTid m.dst)))
    || s.kills.any (fun k => decide (tidDie k.killer ≠ tidDie (handleTid k.target)))
    || !s.answers.isEmpty || !s.peersAcked
    || s.peerIn.any (fun r => decide (portDie (s.peerPort r.peer) ≠ s.keyDie r.key))

/-- Whether an access or a command is under way through a die-level island (R420). -/
def State.pathBusy (s : State) (i : Nat) : Bool :=
  let j := (i - 480) % 16
  let named := s.underWay.any (fun e => decide (s.keyIsland e.2 = some i))
  if j = 11 then !s.queuesIdle (islandDie i)
  else if j = 10 then s.bridgeBusy
  else if 13 ≤ j then
    named || s.peerIn.any (fun r => decide (480 + 16 * portDie (s.peerPort r.peer) + 13 + s.peerPort r.peer % 6 / 2 = i))
      || s.peerOut.any (fun o => o.posted && decide (480 + 16 * portDie o.port + 13 + o.port % 6 / 2 = i))
  else named || s.peerIn.any (fun r => decide (s.keyIsland r.key = some i))

/-- Whether an island is idle, so that a requested gate may take effect (R420); no island of a spire is while the spire's trace
FIFO holds a record (R418). -/
def State.islandIdle (s : State) (i : Nat) : Bool :=
  let g := i / 3
  if i < 480 then
    (s.spire g).dbg.fifo.isEmpty &&
    (if i % 3 = 0 then (spireTids g).all (fun t => decide ((s.slot t).st = .free))
    else if i % 3 = 1 then (s.spire g).regions.all (fun e => decide (e.2.st = .empty) && e.2.matrix.owner.isNone)
    else
      s.allOff [3 * g, 3 * g + 1]
        && (List.range 16).all (fun c => (((s.spire g).channel c).queue).all (fun e => decide (e.st = .aborted)))
        && [0, 1].all (fun c => decide ((s.context g c).st = .free)))
  else !s.pathBusy i

/-- The lasting structures that a quiesce replaces, one after another while spares remain (R424). -/
def replaceFrom (due : Ecc → Bool) : List Ecc → List Ecc → List Ecc
  | [], done => done
  | e :: rest, done =>
    let swap := due e && e.lasting && !e.spared && spareLeft e.cls e.id (done ++ e :: rest)
    replaceFrom due rest (done ++ [if swap then { e with lasting := false, spared := true } else e])

/-- The cores of a spire gated (R145, R157, R420): slots, caches and bindings are gone, once the stores that they have issued are
performed; messages for their ports are refused. -/
def State.gateCores (g : Nat) (s : State) : State :=
  let s := (List.range 16).foldl (fun s c =>
    let k := g * 16 + c
    let s := (s.setCore k { s.core k with ports := Vector.replicate 4 none }).deliverWaiting k
    s.setCore k { s.core k with icache := [] }) s
  (spireTids g).foldl (fun s t => (s.flushQueue t).setSlot t Slot.reset) s

/-- The anvils and the hearth of a spire gated (R420): regions with their BINDs, images and redirects are gone. -/
def State.gateAnvils (g : Nat) (s : State) : State :=
  let sp := s.spire g
  let binds := sp.regions.flatMap (fun e => e.2.binds)
  let s := s.setSpire g { sp with regions := [], hearth := [], redirects := [], sites := [] }
  binds.foldl (fun s b => s.failCmd b.queue b.packet 0x45 0) s

/-- The memories and engines of a spire gated (R418, R420): dirty sectors go to their homes, the rest is gone, trace records
still held are counted as lost. -/
def State.gateMemories (g : Nat) (s : State) : State :=
  let copies := (List.range 16).flatMap (fun c => ((s.spire g).channel c).queue)
  let s := copies.foldl (fun s e => s.copyEnds e true false) (s.writeBackAll g)
  let sp := s.spire g
  let d := sp.dbg
  s.setSpire g { sp with
    cache := [], tlb := [], misses := [], groups := [], channels := Vector.replicate 16 Channel.reset,
    ctxs := Vector.replicate 2 Context.reset
    dbg := { d with fifo := [], lostGate := d.lostGate + BitVec.ofNat 32 d.fifo.length } }

/-- A die-level island gated (R420): a lantern's table of absent threads with what it holds for them and the events that it holds; what
waits at a pair of peer ports. The memories' own contents are R172's at the next power-up, and LPDDR 5X keeps its own. (log 62: DEDUCED.) -/
def State.gateDie (i : Nat) (s : State) : State :=
  let j := (i - 480) % 16
  let here (p : Nat) : Bool := decide (480 + 16 * portDie p + 13 + p % 6 / 2 = i)
  if j = 11 then s.setDie (islandDie i) { s.die (islandDie i) with absent := [], holding := [], held := [] }
  else if 13 ≤ j then
    { s with peerOut := s.peerOut.filter (fun o => !here o.port), peerIn := s.peerIn.filter (fun r => !here (s.peerPort r.peer)) }
  else s

/-- An island's contents discarded (R420). -/
def State.gateContents (i : Nat) (s : State) : State :=
  if 480 ≤ i then s.gateDie i
  else if i % 3 = 0 then s.gateCores (i / 3)
  else if i % 3 = 1 then s.gateAnvils (i / 3)
  else s.gateMemories (i / 3)

/-- An island gated (R420, R424). -/
def State.gate (i : Nat) (forced : Bool) (s : State) : State :=
  let s := s.gateContents i
  let s := s.setIsland i { s.island i with st := 0, on := false, forced := forced }
  { s with ecc := replaceFrom (fun e => decide (structIsland e.cls e.id = some i)) s.ecc [] }

/-- ISLAND_GATE: a requested gate takes effect once its island is idle (R420). -/
def execEvIslandGate (i : Nat) (s : State) : Host.Outcome State Fault Refusal :=
  let v := s.island i
  .next (if i < islandCount ∧ v.on = false ∧ v.st = 1 ∧ s.islandIdle i = true then s.gate i false else s)

/-- An island's level set (R141, R419): its cycles so far are kept. -/
def State.setLevel (i n : Nat) (s : State) : State :=
  s.setIsland i { s.island i with vfcur := n, cyc := s.islandCycles i, since := s.now }

/-- VF_CHANGE: the level in force goes one towards the requested one; back from a level that heat has set only below 95 °C (R419,
R421). -/
def execEvVfChange (i : Nat) (s : State) : Host.Outcome State Fault Refusal :=
  let v := s.island i
  if v.st ≠ 1 then .next s
  else if v.vfcur < v.vfreq then .next (s.setLevel i (v.vfcur + 1))
  else if v.vfreq < v.vfcur ∧ v.hot = false then .next (s.setLevel i (v.vfcur - 1))
  else .next s

/-- The cycles of a millisecond (R17). -/
def msCycles : Nat := 1250000

/-- THERMAL_THROTTLE: one level slower for an island at 100 °C or more, a millisecond after its last change, up to level 7; for
`i` = 512, the package power limit, for every island above level 0 (R421). (log 73: DESIGN CHOICE.) -/
def execEvThermalThrottle (i : Nat) (s : State) : Host.Outcome State Fault Refusal :=
  let slower (j : Nat) (s : State) : State :=
    let v := s.island j
    if v.st = 1 ∧ v.vfcur < 7 then s.setLevel j (v.vfcur + 1) else s
  if i < islandCount then
    .next (if 100 ≤ (s.island i).temp.toNat ∧ (s.island i).since + msCycles ≤ s.now then slower i s else s)
  else
    .next (((List.range islandCount).filter (fun j => decide (0 < (s.island j).vfcur))).foldl (fun s j => slower j s) s)

/-- The threads of a spire end as if killed, with no DRAIN (R422): the stores and atomics that they have issued are performed (R151, R393), their
records and copies are gone. -/
def State.endSpire (g : Nat) (s : State) : State :=
  ((spireTids g).filter (fun t => decide ((s.slot t).st ≠ .free))).foldl (fun s t =>
    let h := (s.slot t).handle t
    let s := (s.flushQueue t).performFlight t
    let s := s.setSlot t { s.slot t with park := (s.slot t).park.filter (fun k => !k.op.inFlight) }
    let s := (s.killThread t).endThread .free t
    let sp := s.spire g
    s.setSpire g { sp with
      channels := sp.channels.map (fun c =>
        Channel.startNext { c with queue := c.queue.filter (fun e => decide (e.issuer ≠ .thread h)) })
      regions := sp.regions.map (fun e => (e.1, { e.2 with flights := e.2.flights.filter (fun f => decide (f.tid ≠ t)) })) }) s

/-- An island gated by force, with its THERMAL event (R422); one that is OFF keeps so. -/
def State.forceGate (s : State) (i : Nat) : State :=
  let v := s.island i
  if v.st = 0 then s.setIsland i { v with on := false }
  else
    let s := if i < 480 ∧ i % 3 = 0 then s.endSpire (i / 3) else s
    (s.gate i true).postDie (islandDie i) 9 i (wordOf (islandDie i)) (wordOf v.temp.toNat) 0

/-- The islands that a forced gate takes (R421): those of a spire, or all of a die but its lantern. -/
def forcedIslands (i : Nat) : List Nat :=
  if i < 480 then [3 * (i / 3), 3 * (i / 3) + 1, 3 * (i / 3) + 2]
  else
    let d := islandDie i
    (List.range 240).map (fun j => 240 * d + j)
      ++ ((List.range 16).filter (fun j => decide (j ≠ 11))).map (fun j => 480 + 16 * d + j)

/-- FORCED_GATE: an island at 115 °C or more (R421, R422). -/
def execEvForcedGate (i : Nat) (s : State) : Host.Outcome State Fault Refusal :=
  if islandCount ≤ i ∨ (s.island i).temp.toNat < 115 then .next s
  else
    let s := if i < 480 then s
      else (List.range 32).foldl (fun s j =>
        let q := 32 * islandDie i + j
        s.setQueue q ((s.queue q).halt 0x49#8)) s
    .next ((forcedIslands i).foldl State.forceGate s)

/-! ## Errors -/

/-- ECC_WINDOW: the window of a structure of class `k` and instance `i` has ended (R423, R424). -/
def execEvEccWindow (k i : Nat) (s : State) : Host.Outcome State Fault Refusal :=
  .next (if s.ecc.any (fun e => decide (e.cls = k ∧ e.id = i) && s.windowOver e) then s.closeWindow k i else s)

/-- An uncorrectable error at a thread (R425): what it waits for faults; otherwise a register file is hit and the thread ends as
if killed, with a RAS event of its core. -/
def State.threadError (t : Nat) (s : State) : State :=
  let v := s.slot t
  if v.st = .free then s
  else
    let core := s.coreId t
    let dies (s : State) : State :=
      (s.killThread t).postDie (tidDie t) 10 1 (wordOf core) 0 (boolWord (!spareLeft 1 core s.ecc))
    if v.st = .drain then s
    else
      match v.park with
      | some ⟨_, .load r, _, _, _⟩ =>
        match r.todo with
        | p :: rest => s.faultAt t (fltAt .pageR 5 (rest.foldl (fun m q => min m q.va) p.va))
        | [] => dies s
      | some ⟨_, .atomic r _, _, _, _⟩ => s.faultAt t (fltAt .pageW 5 r.va)
      | some ⟨_, .sync r _ _, _, _, _⟩ =>
        { s.faultAt t (fltAt r.op.kind.pageCause 5 r.va) with waits := s.waits.filter (fun e => decide (e.2 ≠ t)) }
      | some ⟨_, .metadata _ _ y _ _ _, _, _, _⟩ => s.faultAt t ⟨.pageR, 5, y⟩
      | some ⟨_, .walk va kind _, _, _, _⟩ => s.faultAt t (fltAt kind.pageCause 4 va)
      | _ => dies s

/-- An uncorrectable error at a fabric access, a matrix stream, a copy or a crucible stream (R425): the fault takes its own path. -/
def State.engineError (x : Nat) (s : State) : State :=
  let y := x / 4
  match x % 4 with
  | 0 =>
    match s.region (y / 64) (y % 64) with
    | none => s
    | some r =>
      match r.accs with
      | [] => s
      | a :: _ =>
        let node := match (if a.shadow then r.shadow else r.active).bind (fun p => p.nodeAt a.site) with
          | some m => m.tnode (y % 64)
          | none => 0
        (s.mapRegion (y / 64) (y % 64) (Region.fault a.tag (if a.store then .pageW else .pageR) 5 a.addr node)).accessEnds (y / 64)
          (y % 64) 0 a (a.outs none true)
  | 1 =>
    match (s.region (y / 64) (y % 64)).bind (fun r => r.matrix.run) with
    | some u => s.matFails (y / 64) (y % 64) (.fault ⟨.pageR, 5, u.next⟩)
    | none => s
  | 2 =>
    match ((s.spire (y / 16)).channel (y % 16)).activeCopy with
    | some e => if e.st = .landing then s.freeze (y / 16) (y % 16) e 0 ⟨.pageR, 5, e.source e.next⟩ else s
    | none => s
  | _ =>
    let g := y / 32
    let c := y / 16 % 2
    match (s.context g c).stream (y % 16) with
    | some z =>
      if (s.context g c).works && z.unread then
        s.mergeFails g c 2 (y % 16) (.fault ⟨.pageR, 5, z.base + wordOf ((if z.run then 32 else 0) + 16 * z.pos)⟩)
      else s
    | none => s

/-- UNCORRECTABLE_ERROR: below 65536 at the thread of that identity, beyond it at an engine; from 2^52 on, at the byte of a key: the
next access that reads it meets the error, whoever makes it (R425). (log 92: DEDUCED.) -/
def execEvUncorrectableError (o : Nat) (s : State) : Host.Outcome State Fault Refusal :=
  .next (if o < 65536 then (if tidValid o then s.threadError o else s)
    else if o < 4503599627370496 then s.engineError (o - 65536)
    else { s with bad := (o - 4503599627370496) :: s.bad.filter (fun b => decide (b ≠ o - 4503599627370496)) })

/-! ## Start-up and attestation -/

/-- Whether the firmware image is accepted (R427): its key is the fused one, its signature verifies, its version is not too old. -/
def Boot.accepted (b : Boot) : Bool :=
  decide (sha256 b.key = Config.fusedKey) && lmsVerify b.key b.image b.sig && decide (Config.minVersion.toNat ≤ b.version.toNat)

/-- Whether the ROM image of a die's lantern strip is accepted (R427). -/
def romAccepted (die : Nat) : Bool :=
  lmsVerify (Config.romKey die) (Config.romImage die) (Config.romSignature die)
    && decide (Config.minVersion.toNat ≤ (Config.romVersion die).toNat)

/-- The step of R426 at which the boot of a die fails, if it does: step 2 verifies the firmware, step 3 the ROM image of the strip. -/
def Boot.fails (die : Nat) (b : Boot) : Option Nat :=
  if b.ok = false ∧ b.step.toNat ≤ 1 then some 1
  else if b.accepted = false then some 2
  else if b.ok = false ∧ b.step.toNat = 2 then some 2
  else if romAccepted die = false then some 3
  else if b.ok = false then some (min b.step.toNat 6)
  else none

/-- Whether a boot performs a step: it fails at none up to it. -/
def Boot.does (die : Nat) (b : Boot) (k : Nat) : Bool :=
  match b.fails die with
  | some n => decide (k < n)
  | none => true

/-- An island that a boot powers: its ON stands (R419, R426). -/
def State.bootIsland (s : State) (i : Nat) : State := (s.setIsland i { s.island i with on := true }).powerUp i

/-- A die's boot (R426, R428): step 1 powers the lantern island, step 2 takes the firmware, step 4 fixes D, step 5 powers the islands
that the firmware names, step 6 accepts queue writes; a failure leaves the effects of the steps before it. -/
def State.bootDie (die : Nat) (s : State) : State :=
  let s := s.bootIsland (480 + 16 * die + 11)
  match tget die s.boots with
  | none => s
  | some b =>
    let d := s.die die
    let d := if b.does die 2 then { d with firmware := b.image } else d
    let d := if b.does die 4 then { d with dome := min b.dome 6 } else d
    let d := match b.fails die with
      | some n => { d with recStep := BitVec.ofNat 8 n, recCause := b.cause }
      | none => { d with booted := true }
    let s := s.setDie die d
    if b.does die 5 then (b.islands.filter (fun i => decide (i < islandCount ∧ islandDie i = die))).foldl State.bootIsland s else s

/-- The package after its reset pin (R27, R141, R172, R424, R430): all state at reset but what outlives it: the bytes of LPDDR 5X
and of the host, the leaf counter, the lasting and replaced structures, and what is still to come from outside. -/
def State.pinReset (s : State) : State :=
  { State.reset with
    agenda := s.agenda, fresh := s.fresh, boots := s.boots, tid := s.tid, site := s.site, peerIn := s.peerIn, links := s.links
    mem := s.mem.filter (fun c => decide (c.1 < 0x10000000000 ∨ (0x800000000000 ≤ c.1 ∧ c.1 < 0xC00000000000)))
    leaf := s.leaf
    ecc := replaceFrom (fun _ => true) (s.ecc.map (fun e => { e with count := 0, win := 0 })) [] }

/-- PACKAGE_RESET: the reset pin is released and a die starts; die 0's start is the package's (R426, R428). -/
def execEvPackageReset (die : Nat) (s : State) : Host.Outcome State Fault Refusal :=
  if die = 0 then .next (s.pinReset.bootDie 0)
  else .next (if (s.die 1).booted = false ∧ (s.die 1).recStep = 0 then s.bootDie 1 else s)

/-- ATTCTL_WRITE: 1 requests a report of a booted die (R428 to R430). -/
def execEvAttctlWrite (die v : Nat) (s : State) : Host.Outcome State Fault Refusal :=
  .next (if s.hostReaches die ∧ v % 2 = 1 then s.request die else s)

/-- The structures of a die that spares have replaced (R35, R424). -/
def State.spareMap (s : State) (die : Nat) : List (Nat × Nat) :=
  (s.ecc.filter (fun e => e.spared && decide (structDie e.cls e.id = die))).map (fun e => (e.cls, e.id))

/-- The report up to its signature (R429). -/
def State.reportHead (s : State) (die : Nat) (nonce : List Byte) : List Byte :=
  nonce ++ sha256 (s.die die).firmware ++ sha256 (Config.romImage die) ++ sha256 (Config.spareMap die (s.spareMap die))
    ++ leBytes 8 (s.die0.dome + 256 * s.die1.dome) ++ leBytes 8 s.leaf

/-- The bytes of a report (R429). -/
def reportSize : Nat := 144 + lmsSize

/-- ATTESTATION_DONE: the leaf is advanced and the report under way is written, signed with it (R429, R430); without a leaf it is
refused. (log 67: DESIGN CHOICE.) -/
def execEvAttestationDone (die : Nat) (s : State) : Host.Outcome State Fault Refusal :=
  let d := s.die die
  if !d.attBusy then .next s
  else if 32768 ≤ s.leaf then .next (s.setDie die { d with attBusy := false, attStat := 2 })
  else
    let k := d.attAt
    let head := s.reportHead die d.attNonce
    let bytes := head ++ identitySign s.leaf head
    let s : State := { s.setDie die { d with attBusy := false, attStat := 1 } with leaf := s.leaf + 1 }
    .next (if s.ringMemory k && s.ringMemory (k + 31 + reportSize) then s.homeWrite (k + 32) bytes else s)

end Sys2Proof.Machine
end

