-- ==== Sys2Proof/Machine/Reissue.lean ====
section
/-! DEFINITION. How a thread's parked instruction goes on when its reason clears (R127, R129, R132): it was issued once, and finishes
without another issue cycle; and instruction fetch (R49, R143, R144). -/

namespace Sys2Proof.Machine

/-! ## Fetch -/

/-- Whether a thread stands at a transferred target: its last instruction was a branch or call that was taken (R142, R143). -/
def Slot.transferred (v : Slot) : Bool :=
  let taken (g : Guard) : Bool := v.getP g.p != g.neg
  match v.ins with
  | some (.br g _) | some (.call g _) | some (.jalr g _ _ _) => taken g
  | _ => false

/-- The fault of a fetch: PAGE_X where a transferred target lacks execute permission (R143), else that of R368. (log 85: DEDUCED.) -/
def State.fetchFault (s : State) (f : Flt) : Flt :=
  let v := s.thr
  if v.transferred && decide (f.cause = .prot) && ((s.spire (tidSpire s.tid)).tlbFind v.asid v.pc.toNat).any (fun e => !e.x) then
    { f with cause := .pageX, sub := 0 }
  else f

/-- The word of the thread's pc (R49, R143, R144), or the state in which the thread traps or waits for it.
(log 8: DESIGN CHOICE.) -/
def State.fetch (s : State) : Except State (BitVec 32) :=
  let pc := s.thr.pc
  match s.checkAttr s.ctx { Acc.load pc 4 with kind := .fetch, strict := true } with
  | .fault f => .error (s.trapFlt (s.fetchFault f))
  | .miss va => .error (s.park .mem (.walk va .fetch s.now))
  | .hold _ => .error s
  | .pass cs =>
    let k := keyAt cs pc.toNat
    match tget (k / 64) (s.core (tidCoreKey s.tid)).icache with
    | none => .error (s.park .mem (.fetch (k / 64)))
    | some line => .ok (line.extractLsb' (8 * (k % 64)) 32)

/-! ## Going on -/

/-- The instructions that can park before they take effect, and their meanings. -/
def goesOn (i : Instr) (s : State) : Host.Outcome State Fault Refusal :=
  match i with
  | .send g a b => execSend g a b s
  | .sendw g d a b => execSendw g d a b s
  | .lb g d a imm => execLb g d a imm s
  | .lbu g d a imm => execLbu g d a imm s
  | .lh g d a imm => execLh g d a imm s
  | .lhu g d a imm => execLhu g d a imm s
  | .lw g d a imm => execLw g d a imm s
  | .lwu g d a imm => execLwu g d a imm s
  | .ld g d a imm => execLd g d a imm s
  | .lq g d a imm => execLq g d a imm s
  | .sb g d a imm => execSb g d a imm s
  | .sh g d a imm => execSh g d a imm s
  | .sw g d a imm => execSw g d a imm s
  | .sd g d a imm => execSd g d a imm s
  | .sq g d a imm => execSq g d a imm s
  | .lacq g d a k z => execLacq g d a k z s
  | .srel g d a k z => execSrel g d a k z s
  | .ldf g d a k => execLdf g d a k s
  | .ldfe g d a k => execLdfe g d a k s
  | .stef g d a k => execStef g d a k s
  | .stf g d a k => execStf g d a k s
  | .sto g d a k => execSto g d a k s
  | .sete g a k => execSete g a k s
  | .peekf g p a k => execPeekf g p a k s
  | .arrive g d a k => execArrive g d a k s
  | .expect g d a k => execExpect g d a k s
  | .aaddD g d a b => execAaddD g d a b s
  | .aandD g d a b => execAandD g d a b s
  | .aorD g d a b => execAorD g d a b s
  | .axorD g d a b => execAxorD g d a b s
  | .aminD g d a b => execAminD g d a b s
  | .amaxD g d a b => execAmaxD g d a b s
  | .aminuD g d a b => execAminuD g d a b s
  | .amaxuD g d a b => execAmaxuD g d a b s
  | .aswpD g d a b => execAswpD g d a b s
  | .acasD g d a b => execAcasD g d a b s
  | .afaddD g d a b => execAfaddD g d a b s
  | .aaddW g d a b => execAaddW g d a b s
  | .aandW g d a b => execAandW g d a b s
  | .aorW g d a b => execAorW g d a b s
  | .axorW g d a b => execAxorW g d a b s
  | .aminW g d a b => execAminW g d a b s
  | .amaxW g d a b => execAmaxW g d a b s
  | .aminuW g d a b => execAminuW g d a b s
  | .amaxuW g d a b => execAmaxuW g d a b s
  | .aswpW g d a b => execAswpW g d a b s
  | .acasW g d a b => execAcasW g d a b s
  | .afaddW g d a b => execAfaddW g d a b s
  | .fenceAcq g k => execFenceAcq g k s
  | .fenceRel g k => execFenceRel g k s
  | .fenceAr g k => execFenceAr g k s
  | .fenceCpy g k => execFenceCpy g k s
  | .fenceSrv g k => execFenceSrv g k s
  | .cflush g a => execCflush g a s
  | .cinv g a => execCinv g a s
  | .czero g a => execCzero g a s
  | .cclean g a => execCclean g a s
  | .ldxtB g d a b => execLdxtB g d a b s
  | .ldxtH g d a b => execLdxtH g d a b s
  | .mxc g d a n => execMxc g d a n s
  | .mxd g d a n => execMxd g d a n s
  | .mxmd g d a n => execMxmd g d a n s
  | .mxst g d a n => execMxst g d a n s
  | .wmwait g d a c => execWmwait g d a c s
  | .mstart g d a c => execMstart g d a c s
  | .mstrm g d a c u k => execMstrm g d a c u k s
  | .mpush g d a c k => execMpush g d a c k s
  | .mfin g d a c => execMfin g d a c s
  | .mspill g d a c => execMspill g d a c s
  | .xsect g d a c => execXsect g d a c s
  | .xunion g d a c => execXunion g d a c s
  | .xcnt g d a c => execXcnt g d a c s
  | .tlbi g d a b => execTlbi g d a b s
  | .slotsave g d a b => execSlotsave g d a b s
  | .slotload g d a => execSlotload g d a s
  | _ => .next s

/-- A park that the same instruction enters again for the same reason is the same park (R128, R135). -/
def State.keepPark (t : Nat) (old : Park) (s : State) : State :=
  let v := s.slot t
  match v.park with
  | some k => if k.reason = old.reason then s.setSlot t { v with park := some { k with since := old.since, raised := old.raised } } else s
  | none => s

/-- The parked instruction of a slot goes on from its checks, in the same issue (R127, R129). (log 15: DEDUCED.) -/
def State.goOn (t : Nat) (s : State) : Host.Outcome State Fault Refusal :=
  let v := s.slot t
  match v.park, v.ins with
  | some k, some i =>
    match goesOn i { s.setSlot t v.unpark with tid := t } with
    | .next s' => .next { s'.keepPark t k with tid := s.tid }
    | o => o
  | _, _ => .next s

/-- The fetch of a slot goes on: its line is present and it issues at its next cycle, or it waits on, or it faults (R143, R144). -/
def State.goOnFetch (t : Nat) (s : State) : State :=
  let v := s.slot t
  match v.park with
  | none => s
  | some k =>
    let s' : State := { s.setSlot t v.unpark with tid := t }
    match s'.fetch with
    | .ok _ => { s' with tid := s.tid }
    | .error u => { u.keepPark t k with tid := s.tid }

end Sys2Proof.Machine
end

