-- ==== Sys2Proof/Machine/Resume.lean ====
section
/-! DEFINITION. The machine's own steps that let a parked thread go on: THREAD_RESUME, ICACHE_FILL and PAGE_WALK
(R127 to R133, R144, R370, R371). -/

namespace Sys2Proof.Machine

/-- Whether a parked instruction holds a translation that it has still to use (R371). -/
def ParkOp.translated : ParkOp → Bool
  | .load _ | .once _ | .atomic _ _ | .save _ _ _ _ _ | .metadata _ _ _ _ _ _ => true
  | .sync _ waits _ => !waits
  | _ => false

/-- Whether a slot has an access under way that began no later than access `n` (R371). -/
def Slot.flying (n : Nat) (v : Slot) : Bool :=
  v.queue.any (fun e => match e with
    | .store m _ | .amo m _ => decide (m ≤ n))
  || v.park.any (fun k => k.op.translated && decide (k.serial ≤ n))

/-- The condition that a parked thread waits on (R128, R129). (log 15: DEDUCED.) -/
def State.condMet (s : State) (t : Nat) (c : WaitCond) : Bool :=
  let v := s.slot t
  let g := tidSpire t
  match c with
  | .drained => v.queue.isEmpty
  | .storeRoom => decide (v.queue.length < Config.storeQueueEntries)
  | .outRoom => decide (s.outbound (tidCoreKey t) < Config.outboundMessages)
  | .copiesLanded _ => !(s.spire g).copiesOut (v.handle t)
  | .recordsBack => !(s.spire g).tagBusy (tidTag t)
  | .acked => s.peersAcked
  | .flights sc n => s.slots.all (fun e => !(spiresOf g sc).contains (tidSpire e.1) || !e.2.flying n)
  | .watermark runs =>
    !heldBy ((s.spire g).wins g) v.asid
      (runs.map (fun r => ⟨r.1, r.2.1, r.2.2, decide (281474976710656 ≤ r.2.1), true, false⟩))
  | .channelMark ch x => !s.wmHolds (v.ctx g) ch x
  | .matrixEmpty n => (s.region g n).all (fun r => r.matrix.queue.isEmpty)
  | .matrixIdle n => (s.region g n).all Region.settled
  | .crucible c => decide ((s.context g c).st ≠ .final) && decide ((s.context g c).st ≠ .setop)
  | .stream c k => !(s.context g c).streamBusy k
  | .push c k => let x := s.context g c
    !x.streamBusy k && !x.isFull && !x.spilling
  | .now => true

/-- What the condition of a `finish` park brings with it: the accesses that TLBI waited for are performed at its scope
(R371). -/
def State.condEffect (t : Nat) (c : WaitCond) (s : State) : State :=
  match c with
  | .flights sc _ => (spiresOf (tidSpire t) sc).foldl (fun s g => s.releaseAt g sc) s
  | _ => s

/-- A matrix operation that waits for its thread's earlier accesses (MEM) and then for room (ENGINE) (R307, R308): queued, or dropped
with status 4 when its region has faulted. -/
def State.matrixRoom (t n : Nat) (op : MatOp) (d : Reg) (s : State) : State :=
  let g := tidSpire t
  let answer (w : Word) (s : State) : State := s.setSlot t ((s.slot t).setX d w).resume
  if !(s.slot t).queue.isEmpty then s
  else
  match s.region g n with
  | none => answer 1 s
  | some r =>
    if r.st = .faulted then answer 4 s
    else if 4 ≤ r.matrix.queue.length then
      if (s.slot t).park.any (fun k => decide (k.reason = .engine)) then s else s.parkAt t .engine (.matrix n op d)
    else answer 0 (s.setRegion g n (r.enqueue op))

/-- The metadata of an MXMD has arrived (R308, R316): the load is queued, or a bad nibble traps, an uncorrectable error first (R425). -/
def State.metadataRead (t n : Nat) (x y : Word) (sh : TileShape) (ps : List Piece) (d : Reg) (s : State) : State :=
  match s.badPiece ps with
  | some va => (ps.foldl (fun s p => s.heal p.key p.len) s).faultAt t (fltAt .pageR 5 va)
  | none =>
  let (s, md) := State.readPieces (tidSpire t) ps s
  match (List.range sh.groups).find? (badNibble md) with
  | some q => s.faultAt t ⟨.metadata, 4 * (q % 2), y + wordOf (q / 2)⟩
  | none => (s.parkAt t .engine (.matrix n (.wload x sh md) d)).matrixRoom t n (.wload x sh md) d

/-- A call that waited for the record of another thread of its slot goes on once that has returned (R213). -/
def State.callResumes (t : Nat) (s : State) : State :=
  let g := tidSpire t
  if (s.spire g).tagBusy (tidTag t) then s
  else
    match (s.slot t).park with
    | some ⟨r, .held c, since, raised, n⟩ => (s.callOn g t c).keepPark t ⟨r, .held c, since, raised, n⟩
    | some ⟨_, .port k c, _, _, _⟩ => s.parkAt t .srv (.port k c)
    | _ => s

/-- A parked thread whose reason has cleared goes on (R127 to R129), where its instruction does not go on by itself; otherwise it
stays. -/
def State.tryResume (t : Nat) (s : State) : State :=
  let v := s.slot t
  if v.st ≠ .park then s
  else
    match v.park with
    | some ⟨_, .finish c d w, _, _, _⟩ =>
      if s.condMet t c then (s.condEffect t c).setSlot t (v.setX d w).resume else s
    | some ⟨_, .save h key va once d, _, _, _⟩ => s.saveStep t h key va once d
    | some ⟨_, .matrix n op d, _, _, _⟩ => s.matrixRoom t n op d
    | some ⟨_, .metadata n x y sh ps d, _, _, _⟩ => s.metadataRead t n x y sh ps d
    | some ⟨_, .copy r, _, _, _⟩ => s.copyEnters t r
    | some ⟨_, .held _, _, _, _⟩ => s.callResumes t
    | some ⟨.engine, .port _ _, _, _, _⟩ => s.callResumes t
    | some ⟨_, .rgnset x c d, _, _, _⟩ => s.rgnsetDone t x c d
    | some ⟨_, .sleep d p _, _, _, _⟩ =>
      match v.inbox with
      | some w => s.takeInbox t d p w
      | none => s
    | _ => s

/-- THREAD_RESUME: the park of slot `tid` ends when its reason has cleared, and its instruction goes on (R127, R129).
(log 15: DEDUCED.) -/
def execEvThreadResume (tid : Nat) (s : State) : Host.Outcome State Fault Refusal :=
  let v := s.slot tid
  match v.park with
  | some ⟨_, .wait c, _, _, _⟩ => if v.st = .park ∧ s.condMet tid c = true then s.goOn tid else .next s
  | _ => .next (s.tryResume tid)

/-- The 64 bytes of an instruction line, read through the cache of spire `g` (R144). -/
def State.readLine (g line : Nat) (s : State) : State × List Byte :=
  State.readPieces g ((List.range 8).map (fun i => ⟨8 * i, 64 * line + 8 * i, 8, 0⟩)) s

/-- An instruction line filled into a core's instruction cache; where that is full, a line leaves it (R144).
(log 7: DESIGN CHOICE.) -/
def State.fillLine (g core line : Nat) (s : State) : State :=
  if (tget line (s.core core).icache).isSome then s
  else
    let (s, bs) := s.readLine g line
    let c := s.core core
    let add (l : List (Nat × BitVec 512)) : List (Nat × BitVec 512) := tset line (BitVec.ofNat 512 (leNat bs)) l
    if c.icache.length < Config.icacheLines then s.setCore core { c with icache := add c.icache }
    else
      { s.setCore core { c with icache := add (ldel c.icache (Config.victim s.fresh % Config.icacheLines)) } with
        fresh := s.fresh + 1 }

/-- ICACHE_FILL: the line that slot `tid` waits for arrives and its MEM park clears (R144); one with an uncorrectable error makes the
fetch fault (R425). (log 92: DEDUCED.) -/
def execEvIcacheFill (tid : Nat) (s : State) : Host.Outcome State Fault Refusal :=
  match (s.slot tid).park with
  | some ⟨_, .fetch line, _, _, _⟩ =>
    match s.badIn (64 * line) 64 with
    | some i => .next ((s.heal (64 * line) 64).faultAt tid (fltAt .pageX 5 ((s.slot tid).pc.toNat / 64 * 64 + i)))
    | none =>
      let s := s.fillLine (tidSpire tid) (tidCoreKey tid) line
      .next (s.goOnFetch tid)
  | _ => .next s

/-- What the end of a walk gives one of the threads that wait for it: its access goes on, or faults on its own account (R370). -/
def State.walked (r : Walk) (t : Nat) (s : State) : Host.Outcome State Fault Refusal :=
  match (s.slot t).park, r with
  | some ⟨_, .walk va kind _, _, _, _⟩, .fails sub => .next (s.faultAt t (fltAt kind.pageCause sub va))
  | some ⟨_, .walk _ .fetch _, _, _, _⟩, .found _ => .next (s.goOnFetch t)
  | some ⟨_, .walk _ _ _, _, _, _⟩, .found _ => s.goOn t
  | _, _ => .next s

/-- Threads served one after another. -/
def walkedAll (r : Walk) : List Nat → State → Host.Outcome State Fault Refusal
  | [], s => .next s
  | t :: rest, s =>
    match s.walked r t with
    | .next s' => walkedAll r rest s'
    | o => o

/-- PAGE_WALK: the walk that slot `tid` waits for ends, if it is one of those in flight: its translation is installed and every
access that waits for the page goes on, or each faults (R368, R370); a translation that has arrived meanwhile serves them too. -/
def execEvPageWalk (tid : Nat) (s : State) : Host.Outcome State Fault Refusal :=
  let v := s.slot tid
  let g := tidSpire tid
  match v.park, v.walks with
  | some ⟨_, .walk va _ _, _, _, _⟩, some (_, p) =>
    if !(s.walking g).contains p then .next s
    else
      let ts := ((s.walkers g).filter (fun e => decide (e.2 = p))).map Prod.fst
      match (s.spire g).tlbFind v.asid va with
      | some e => walkedAll (.found e) ts s
      | none =>
        let (s, r) := s.walk (v.ctx g) va
        walkedAll r ts s
  | _, _ => .next s

end Sys2Proof.Machine
end

