-- ==== Sys2Proof/Machine/Dispatch.lean ====
section
/-! DEFINITION. The dispatch: one arm per constructor of `Instr`, each one direct call of its meaning. -/

namespace Sys2Proof.Machine

def exec (i : Instr) (s : State) : Host.Outcome State Fault Refusal :=
  match i with
  | .nop g => Sys2Proof.Machine.execNop g s
  | .ebrk g => Sys2Proof.Machine.execEbrk g s
  | .ecall g => Sys2Proof.Machine.execEcall g s
  | .tret g => Sys2Proof.Machine.execTret g s
  | .rdcyc g d => Sys2Proof.Machine.execRdcyc g d s
  | .rdtime g d => Sys2Proof.Machine.execRdtime g d s
  | .tid g d => Sys2Proof.Machine.execTid g d s
  | .gtid g d => Sys2Proof.Machine.execGtid g d s
  | .add g d a b => Sys2Proof.Machine.execAdd g d a b s
  | .sub g d a b => Sys2Proof.Machine.execSub g d a b s
  | .mul g d a b => Sys2Proof.Machine.execMul g d a b s
  | .mulh g d a b => Sys2Proof.Machine.execMulh g d a b s
  | .mulhu g d a b => Sys2Proof.Machine.execMulhu g d a b s
  | .div g d a b => Sys2Proof.Machine.execDiv g d a b s
  | .divu g d a b => Sys2Proof.Machine.execDivu g d a b s
  | .rem g d a b => Sys2Proof.Machine.execRem g d a b s
  | .remu g d a b => Sys2Proof.Machine.execRemu g d a b s
  | .and g d a b => Sys2Proof.Machine.execAnd g d a b s
  | .or g d a b => Sys2Proof.Machine.execOr g d a b s
  | .xor g d a b => Sys2Proof.Machine.execXor g d a b s
  | .shl g d a b => Sys2Proof.Machine.execShl g d a b s
  | .shr g d a b => Sys2Proof.Machine.execShr g d a b s
  | .sra g d a b => Sys2Proof.Machine.execSra g d a b s
  | .rot g d a b => Sys2Proof.Machine.execRot g d a b s
  | .addw g d a b => Sys2Proof.Machine.execAddw g d a b s
  | .subw g d a b => Sys2Proof.Machine.execSubw g d a b s
  | .mulw g d a b => Sys2Proof.Machine.execMulw g d a b s
  | .shlw g d a b => Sys2Proof.Machine.execShlw g d a b s
  | .shrw g d a b => Sys2Proof.Machine.execShrw g d a b s
  | .sraw g d a b => Sys2Proof.Machine.execSraw g d a b s
  | .min g d a b => Sys2Proof.Machine.execMin g d a b s
  | .max g d a b => Sys2Proof.Machine.execMax g d a b s
  | .minu g d a b => Sys2Proof.Machine.execMinu g d a b s
  | .maxu g d a b => Sys2Proof.Machine.execMaxu g d a b s
  | .abs g d a => Sys2Proof.Machine.execAbs g d a s
  | .clz g d a => Sys2Proof.Machine.execClz g d a s
  | .ctz g d a => Sys2Proof.Machine.execCtz g d a s
  | .popc g d a => Sys2Proof.Machine.execPopc g d a s
  | .brev g d a => Sys2Proof.Machine.execBrev g d a s
  | .bswap g d a => Sys2Proof.Machine.execBswap g d a s
  | .sextb g d a => Sys2Proof.Machine.execSextb g d a s
  | .sexth g d a => Sys2Proof.Machine.execSexth g d a s
  | .sextw g d a => Sys2Proof.Machine.execSextw g d a s
  | .zextb g d a => Sys2Proof.Machine.execZextb g d a s
  | .zexth g d a => Sys2Proof.Machine.execZexth g d a s
  | .zextw g d a => Sys2Proof.Machine.execZextw g d a s
  | .addi g d a imm => Sys2Proof.Machine.execAddi g d a imm s
  | .andi g d a imm => Sys2Proof.Machine.execAndi g d a imm s
  | .ori g d a imm => Sys2Proof.Machine.execOri g d a imm s
  | .xori g d a imm => Sys2Proof.Machine.execXori g d a imm s
  | .shli g d a n => Sys2Proof.Machine.execShli g d a n s
  | .shri g d a n => Sys2Proof.Machine.execShri g d a n s
  | .srai g d a n => Sys2Proof.Machine.execSrai g d a n s
  | .roti g d a n => Sys2Proof.Machine.execRoti g d a n s
  | .lui g d imm => Sys2Proof.Machine.execLui g d imm s
  | .lix g d imm => Sys2Proof.Machine.execLix g d imm s
  | .shadd1 g d a b => Sys2Proof.Machine.execShadd1 g d a b s
  | .shadd2 g d a b => Sys2Proof.Machine.execShadd2 g d a b s
  | .shadd3 g d a b => Sys2Proof.Machine.execShadd3 g d a b s
  | .shadd4 g d a b => Sys2Proof.Machine.execShadd4 g d a b s
  | .ceq g p a b => Sys2Proof.Machine.execCeq g p a b s
  | .cne g p a b => Sys2Proof.Machine.execCne g p a b s
  | .clt g p a b => Sys2Proof.Machine.execClt g p a b s
  | .cltu g p a b => Sys2Proof.Machine.execCltu g p a b s
  | .cle g p a b => Sys2Proof.Machine.execCle g p a b s
  | .cleu g p a b => Sys2Proof.Machine.execCleu g p a b s
  | .ctst g p a b => Sys2Proof.Machine.execCtst g p a b s
  | .ceqi g p a imm => Sys2Proof.Machine.execCeqi g p a imm s
  | .cnei g p a imm => Sys2Proof.Machine.execCnei g p a imm s
  | .clti g p a imm => Sys2Proof.Machine.execClti g p a imm s
  | .cltui g p a imm => Sys2Proof.Machine.execCltui g p a imm s
  | .clei g p a imm => Sys2Proof.Machine.execClei g p a imm s
  | .cleui g p a imm => Sys2Proof.Machine.execCleui g p a imm s
  | .ctsti g p a imm => Sys2Proof.Machine.execCtsti g p a imm s
  | .pand g d a b => Sys2Proof.Machine.execPand g d a b s
  | .por g d a b => Sys2Proof.Machine.execPor g d a b s
  | .pxor g d a b => Sys2Proof.Machine.execPxor g d a b s
  | .pandn g d a b => Sys2Proof.Machine.execPandn g d a b s
  | .pnot g d a => Sys2Proof.Machine.execPnot g d a s
  | .pset g a => Sys2Proof.Machine.execPset g a s
  | .pget g d => Sys2Proof.Machine.execPget g d s
  | .pmov g d a => Sys2Proof.Machine.execPmov g d a s
  | .faddS g d a b => Sys2Proof.Machine.execFaddS g d a b s
  | .fsubS g d a b => Sys2Proof.Machine.execFsubS g d a b s
  | .fmulS g d a b => Sys2Proof.Machine.execFmulS g d a b s
  | .fdivS g d a b => Sys2Proof.Machine.execFdivS g d a b s
  | .fsqrtS g d a => Sys2Proof.Machine.execFsqrtS g d a s
  | .fminS g d a b => Sys2Proof.Machine.execFminS g d a b s
  | .fmaxS g d a b => Sys2Proof.Machine.execFmaxS g d a b s
  | .fabsS g d a => Sys2Proof.Machine.execFabsS g d a s
  | .fnegS g d a => Sys2Proof.Machine.execFnegS g d a s
  | .fcpysS g d a b => Sys2Proof.Machine.execFcpysS g d a b s
  | .fclassS g d a => Sys2Proof.Machine.execFclassS g d a s
  | .frcpS g d a => Sys2Proof.Machine.execFrcpS g d a s
  | .frsqS g d a => Sys2Proof.Machine.execFrsqS g d a s
  | .fexp2S g d a => Sys2Proof.Machine.execFexp2S g d a s
  | .flog2S g d a => Sys2Proof.Machine.execFlog2S g d a s
  | .ftanhS g d a => Sys2Proof.Machine.execFtanhS g d a s
  | .faddD g d a b => Sys2Proof.Machine.execFaddD g d a b s
  | .fsubD g d a b => Sys2Proof.Machine.execFsubD g d a b s
  | .fmulD g d a b => Sys2Proof.Machine.execFmulD g d a b s
  | .fdivD g d a b => Sys2Proof.Machine.execFdivD g d a b s
  | .fsqrtD g d a => Sys2Proof.Machine.execFsqrtD g d a s
  | .fminD g d a b => Sys2Proof.Machine.execFminD g d a b s
  | .fmaxD g d a b => Sys2Proof.Machine.execFmaxD g d a b s
  | .fabsD g d a => Sys2Proof.Machine.execFabsD g d a s
  | .fnegD g d a => Sys2Proof.Machine.execFnegD g d a s
  | .fcpysD g d a b => Sys2Proof.Machine.execFcpysD g d a b s
  | .fclassD g d a => Sys2Proof.Machine.execFclassD g d a s
  | .fmacS g d a b => Sys2Proof.Machine.execFmacS g d a b s
  | .fmscS g d a b => Sys2Proof.Machine.execFmscS g d a b s
  | .fnmacS g d a b => Sys2Proof.Machine.execFnmacS g d a b s
  | .fmacD g d a b => Sys2Proof.Machine.execFmacD g d a b s
  | .fmscD g d a b => Sys2Proof.Machine.execFmscD g d a b s
  | .fnmacD g d a b => Sys2Proof.Machine.execFnmacD g d a b s
  | .fceqS g p a b => Sys2Proof.Machine.execFceqS g p a b s
  | .fcltS g p a b => Sys2Proof.Machine.execFcltS g p a b s
  | .fcleS g p a b => Sys2Proof.Machine.execFcleS g p a b s
  | .fcunS g p a b => Sys2Proof.Machine.execFcunS g p a b s
  | .fceqD g p a b => Sys2Proof.Machine.execFceqD g p a b s
  | .fcltD g p a b => Sys2Proof.Machine.execFcltD g p a b s
  | .fcleD g p a b => Sys2Proof.Machine.execFcleD g p a b s
  | .fcunD g p a b => Sys2Proof.Machine.execFcunD g p a b s
  | .cvtSD g d a => Sys2Proof.Machine.execCvtSD g d a s
  | .cvtDS g d a => Sys2Proof.Machine.execCvtDS g d a s
  | .cvtSH g d a => Sys2Proof.Machine.execCvtSH g d a s
  | .cvtHS g d a => Sys2Proof.Machine.execCvtHS g d a s
  | .cvtSBf g d a => Sys2Proof.Machine.execCvtSBf g d a s
  | .cvtBfS g d a => Sys2Proof.Machine.execCvtBfS g d a s
  | .cvtSE4 g d a => Sys2Proof.Machine.execCvtSE4 g d a s
  | .cvtE4S g d a => Sys2Proof.Machine.execCvtE4S g d a s
  | .cvtSE5 g d a => Sys2Proof.Machine.execCvtSE5 g d a s
  | .cvtE5S g d a => Sys2Proof.Machine.execCvtE5S g d a s
  | .cvtWS g d a => Sys2Proof.Machine.execCvtWS g d a s
  | .cvtSW g d a => Sys2Proof.Machine.execCvtSW g d a s
  | .cvtWuS g d a => Sys2Proof.Machine.execCvtWuS g d a s
  | .cvtSWu g d a => Sys2Proof.Machine.execCvtSWu g d a s
  | .cvtLD g d a => Sys2Proof.Machine.execCvtLD g d a s
  | .cvtDL g d a => Sys2Proof.Machine.execCvtDL g d a s
  | .br g o => Sys2Proof.Machine.execBr g o s
  | .call g o => Sys2Proof.Machine.execCall g o s
  | .jalr g d a imm => Sys2Proof.Machine.execJalr g d a imm s
  | .exit g => Sys2Proof.Machine.execExit g s
  | .spawn g d a b => Sys2Proof.Machine.execSpawn g d a b s
  | .sleep g d a p => Sys2Proof.Machine.execSleep g d a p s
  | .kill g d a => Sys2Proof.Machine.execKill g d a s
  | .send g a b => Sys2Proof.Machine.execSend g a b s
  | .sendw g d a b => Sys2Proof.Machine.execSendw g d a b s
  | .hbind g d a b => Sys2Proof.Machine.execHbind g d a b s
  | .hunbind g d a => Sys2Proof.Machine.execHunbind g d a s
  | .lb g d a imm => Sys2Proof.Machine.execLb g d a imm s
  | .lbu g d a imm => Sys2Proof.Machine.execLbu g d a imm s
  | .lh g d a imm => Sys2Proof.Machine.execLh g d a imm s
  | .lhu g d a imm => Sys2Proof.Machine.execLhu g d a imm s
  | .lw g d a imm => Sys2Proof.Machine.execLw g d a imm s
  | .lwu g d a imm => Sys2Proof.Machine.execLwu g d a imm s
  | .ld g d a imm => Sys2Proof.Machine.execLd g d a imm s
  | .lq g d a imm => Sys2Proof.Machine.execLq g d a imm s
  | .sb g d a imm => Sys2Proof.Machine.execSb g d a imm s
  | .sh g d a imm => Sys2Proof.Machine.execSh g d a imm s
  | .sw g d a imm => Sys2Proof.Machine.execSw g d a imm s
  | .sd g d a imm => Sys2Proof.Machine.execSd g d a imm s
  | .sq g d a imm => Sys2Proof.Machine.execSq g d a imm s
  | .lacq g d a k z => Sys2Proof.Machine.execLacq g d a k z s
  | .srel g d a k z => Sys2Proof.Machine.execSrel g d a k z s
  | .ldf g d a k => Sys2Proof.Machine.execLdf g d a k s
  | .ldfe g d a k => Sys2Proof.Machine.execLdfe g d a k s
  | .stef g d a k => Sys2Proof.Machine.execStef g d a k s
  | .stf g d a k => Sys2Proof.Machine.execStf g d a k s
  | .sto g d a k => Sys2Proof.Machine.execSto g d a k s
  | .sete g a k => Sys2Proof.Machine.execSete g a k s
  | .peekf g p a k => Sys2Proof.Machine.execPeekf g p a k s
  | .arrive g d a k => Sys2Proof.Machine.execArrive g d a k s
  | .expect g d a k => Sys2Proof.Machine.execExpect g d a k s
  | .aaddD g d a b => Sys2Proof.Machine.execAaddD g d a b s
  | .aandD g d a b => Sys2Proof.Machine.execAandD g d a b s
  | .aorD g d a b => Sys2Proof.Machine.execAorD g d a b s
  | .axorD g d a b => Sys2Proof.Machine.execAxorD g d a b s
  | .aminD g d a b => Sys2Proof.Machine.execAminD g d a b s
  | .amaxD g d a b => Sys2Proof.Machine.execAmaxD g d a b s
  | .aminuD g d a b => Sys2Proof.Machine.execAminuD g d a b s
  | .amaxuD g d a b => Sys2Proof.Machine.execAmaxuD g d a b s
  | .aswpD g d a b => Sys2Proof.Machine.execAswpD g d a b s
  | .acasD g d a b => Sys2Proof.Machine.execAcasD g d a b s
  | .afaddD g d a b => Sys2Proof.Machine.execAfaddD g d a b s
  | .aaddW g d a b => Sys2Proof.Machine.execAaddW g d a b s
  | .aandW g d a b => Sys2Proof.Machine.execAandW g d a b s
  | .aorW g d a b => Sys2Proof.Machine.execAorW g d a b s
  | .axorW g d a b => Sys2Proof.Machine.execAxorW g d a b s
  | .aminW g d a b => Sys2Proof.Machine.execAminW g d a b s
  | .amaxW g d a b => Sys2Proof.Machine.execAmaxW g d a b s
  | .aminuW g d a b => Sys2Proof.Machine.execAminuW g d a b s
  | .amaxuW g d a b => Sys2Proof.Machine.execAmaxuW g d a b s
  | .aswpW g d a b => Sys2Proof.Machine.execAswpW g d a b s
  | .acasW g d a b => Sys2Proof.Machine.execAcasW g d a b s
  | .afaddW g d a b => Sys2Proof.Machine.execAfaddW g d a b s
  | .fenceAcq g k => Sys2Proof.Machine.execFenceAcq g k s
  | .fenceRel g k => Sys2Proof.Machine.execFenceRel g k s
  | .fenceAr g k => Sys2Proof.Machine.execFenceAr g k s
  | .fenceCpy g k => Sys2Proof.Machine.execFenceCpy g k s
  | .fenceSrv g k => Sys2Proof.Machine.execFenceSrv g k s
  | .cflush g a => Sys2Proof.Machine.execCflush g a s
  | .cinv g a => Sys2Proof.Machine.execCinv g a s
  | .cpref g a => Sys2Proof.Machine.execCpref g a s
  | .czero g a => Sys2Proof.Machine.execCzero g a s
  | .cclean g a => Sys2Proof.Machine.execCclean g a s
  | .gjoin g d n => Sys2Proof.Machine.execGjoin g d n s
  | .gleave g d n => Sys2Proof.Machine.execGleave g d n s
  | .gsync g n => Sys2Proof.Machine.execGsync g n s
  | .gshfl g d a n => Sys2Proof.Machine.execGshfl g d a n s
  | .gshflx g d a n => Sys2Proof.Machine.execGshflx g d a n s
  | .gbcast g d a n => Sys2Proof.Machine.execGbcast g d a n s
  | .gvoteAny g d a n => Sys2Proof.Machine.execGvoteAny g d a n s
  | .gvoteAll g d a n => Sys2Proof.Machine.execGvoteAll g d a n s
  | .gvoteBal g d a n => Sys2Proof.Machine.execGvoteBal g d a n s
  | .gmatch g d a n => Sys2Proof.Machine.execGmatch g d a n s
  | .gredAdd g d a n => Sys2Proof.Machine.execGredAdd g d a n s
  | .gredMin g d a n => Sys2Proof.Machine.execGredMin g d a n s
  | .gredMax g d a n => Sys2Proof.Machine.execGredMax g d a n s
  | .gredFadd g d a n => Sys2Proof.Machine.execGredFadd g d a n s
  | .gredFmax g d a n => Sys2Proof.Machine.execGredFmax g d a n s
  | .gscanAdd g d a n => Sys2Proof.Machine.execGscanAdd g d a n s
  | .ldxtB g d a b => Sys2Proof.Machine.execLdxtB g d a b s
  | .ldxtH g d a b => Sys2Proof.Machine.execLdxtH g d a b s
  | .srv g a n r => Sys2Proof.Machine.execSrv g a n r s
  | .srvnw g p a n r => Sys2Proof.Machine.execSrvnw g p a n r s
  | .srvq g d a => Sys2Proof.Machine.execSrvq g d a s
  | .cfgld g d a => Sys2Proof.Machine.execCfgld g d a s
  | .cfgpin g d a => Sys2Proof.Machine.execCfgpin g d a s
  | .cfgunpin g d a => Sys2Proof.Machine.execCfgunpin g d a s
  | .cfgev g d a => Sys2Proof.Machine.execCfgev g d a s
  | .mxw g d a n => Sys2Proof.Machine.execMxw g d a n s
  | .mxa g d a n => Sys2Proof.Machine.execMxa g d a n s
  | .mxc g d a n => Sys2Proof.Machine.execMxc g d a n s
  | .mxd g d a n => Sys2Proof.Machine.execMxd g d a n s
  | .mxmd g d a n => Sys2Proof.Machine.execMxmd g d a n s
  | .mxst g d a n => Sys2Proof.Machine.execMxst g d a n s
  | .cpy g d a p c => Sys2Proof.Machine.execCpy g d a p c s
  | .cshp g d a c => Sys2Proof.Machine.execCshp g d a c s
  | .cpyq g d a c => Sys2Proof.Machine.execCpyq g d a c s
  | .cpyres g d a c => Sys2Proof.Machine.execCpyres g d a c s
  | .cpyabt g d l c => Sys2Proof.Machine.execCpyabt g d l c s
  | .wmrd g d c => Sys2Proof.Machine.execWmrd g d c s
  | .wmwait g d a c => Sys2Proof.Machine.execWmwait g d a c s
  | .mstart g d a c => Sys2Proof.Machine.execMstart g d a c s
  | .mstrm g d a c u k => Sys2Proof.Machine.execMstrm g d a c u k s
  | .mpush g d a c k => Sys2Proof.Machine.execMpush g d a c k s
  | .mfin g d a c => Sys2Proof.Machine.execMfin g d a c s
  | .mspill g d a c => Sys2Proof.Machine.execMspill g d a c s
  | .mstat g d a c => Sys2Proof.Machine.execMstat g d a c s
  | .xsect g d a c => Sys2Proof.Machine.execXsect g d a c s
  | .xunion g d a c => Sys2Proof.Machine.execXunion g d a c s
  | .xcnt g d a c => Sys2Proof.Machine.execXcnt g d a c s
  | .csrrw g d a imm => Sys2Proof.Machine.execCsrrw g d a imm s
  | .csrrs g d a imm => Sys2Proof.Machine.execCsrrs g d a imm s
  | .csrrc g d a imm => Sys2Proof.Machine.execCsrrc g d a imm s
  | .tlbi g d a b => Sys2Proof.Machine.execTlbi g d a b s
  | .slotsave g d a b => Sys2Proof.Machine.execSlotsave g d a b s
  | .slotload g d a => Sys2Proof.Machine.execSlotload g d a s
  | .slotctl g d a b => Sys2Proof.Machine.execSlotctl g d a b s
  | .rgnset g d a b => Sys2Proof.Machine.execRgnset g d a b s
  | .trace g a b => Sys2Proof.Machine.execTrace g a b s
  | .mark g d a => Sys2Proof.Machine.execMark g d a s
  | .snap g d => Sys2Proof.Machine.execSnap g d s
  | .nIadd a b m => Sys2Proof.Machine.execNIadd a b m s
  | .nIsub a b m => Sys2Proof.Machine.execNIsub a b m s
  | .nImul a b m => Sys2Proof.Machine.execNImul a b m s
  | .nIand a b m => Sys2Proof.Machine.execNIand a b m s
  | .nIor a b m => Sys2Proof.Machine.execNIor a b m s
  | .nIxor a b m => Sys2Proof.Machine.execNIxor a b m s
  | .nIshl a b m => Sys2Proof.Machine.execNIshl a b m s
  | .nIshr a b m => Sys2Proof.Machine.execNIshr a b m s
  | .nIsra a b m => Sys2Proof.Machine.execNIsra a b m s
  | .nImin a b m => Sys2Proof.Machine.execNImin a b m s
  | .nImax a b m => Sys2Proof.Machine.execNImax a b m s
  | .nIcmp a b m => Sys2Proof.Machine.execNIcmp a b m s
  | .nFadd a b m => Sys2Proof.Machine.execNFadd a b m s
  | .nFmul a b m => Sys2Proof.Machine.execNFmul a b m s
  | .nFma a b m => Sys2Proof.Machine.execNFma a b m s
  | .nFmax a b m => Sys2Proof.Machine.execNFmax a b m s
  | .nFmin a b m => Sys2Proof.Machine.execNFmin a b m s
  | .nExp2 a b m => Sys2Proof.Machine.execNExp2 a b m s
  | .nLog2 a b m => Sys2Proof.Machine.execNLog2 a b m s
  | .nRcp a b m => Sys2Proof.Machine.execNRcp a b m s
  | .nRsq a b m => Sys2Proof.Machine.execNRsq a b m s
  | .nCvt a b m => Sys2Proof.Machine.execNCvt a b m s
  | .nSteer a b m => Sys2Proof.Machine.execNSteer a b m s
  | .nJoin a b m => Sys2Proof.Machine.execNJoin a b m s
  | .nMux a b m => Sys2Proof.Machine.execNMux a b m s
  | .nRecirc a b => Sys2Proof.Machine.execNRecirc a b s
  | .nEosx a b m => Sys2Proof.Machine.execNEosx a b m s
  | .nDup a b => Sys2Proof.Machine.execNDup a b s
  | .nDelay a b => Sys2Proof.Machine.execNDelay a b s
  | .nConst a b => Sys2Proof.Machine.execNConst a b s
  | .nTagchk a b m => Sys2Proof.Machine.execNTagchk a b m s
  | .nFilter a b m => Sys2Proof.Machine.execNFilter a b m s
  | .nCoalesce a b m => Sys2Proof.Machine.execNCoalesce a b m s
  | .nCmpx a b m => Sys2Proof.Machine.execNCmpx a b m s
  | .nLoopgen a b m => Sys2Proof.Machine.execNLoopgen a b m s
  | .nAddrgen a b m => Sys2Proof.Machine.execNAddrgen a b m s
  | .nLdn a b m => Sys2Proof.Machine.execNLdn a b m s
  | .nStn a b m => Sys2Proof.Machine.execNStn a b m s
  | .nEntry a b => Sys2Proof.Machine.execNEntry a b s
  | .nReturn a b => Sys2Proof.Machine.execNReturn a b s
  | .evEventTaken tid => Sys2Proof.Machine.execEvEventTaken tid s
  | .evThreadResume tid => Sys2Proof.Machine.execEvThreadResume tid s
  | .evLoadResponse tid k => Sys2Proof.Machine.execEvLoadResponse tid k s
  | .evStorePerformed tid q k => Sys2Proof.Machine.execEvStorePerformed tid q k s
  | .evAtomicAtHome tid q => Sys2Proof.Machine.execEvAtomicAtHome tid q s
  | .evSyncWordAtHome tid => Sys2Proof.Machine.execEvSyncWordAtHome tid s
  | .evWaitlistRetry list => Sys2Proof.Machine.execEvWaitlistRetry list s
  | .evIcacheFill tid => Sys2Proof.Machine.execEvIcacheFill tid s
  | .evPageWalk tid => Sys2Proof.Machine.execEvPageWalk tid s
  | .evSleepTimeout tid => Sys2Proof.Machine.execEvSleepTimeout tid s
  | .evLongPark tid => Sys2Proof.Machine.execEvLongPark tid s
  | .evMessageArrival n => Sys2Proof.Machine.execEvMessageArrival n s
  | .evAnswerArrival tid => Sys2Proof.Machine.execEvAnswerArrival tid s
  | .evKillArrival tid => Sys2Proof.Machine.execEvKillArrival tid s
  | .evDrainComplete tid => Sys2Proof.Machine.execEvDrainComplete tid s
  | .evHeldRedelivery die n => Sys2Proof.Machine.execEvHeldRedelivery die n s
  | .evCollectiveComplete spire n => Sys2Proof.Machine.execEvCollectiveComplete spire n s
  | .evRecordEntry spire region tid => Sys2Proof.Machine.execEvRecordEntry spire region tid s
  | .evReturnDelivery spire region tid => Sys2Proof.Machine.execEvReturnDelivery spire region tid s
  | .evHearthPlace spire region => Sys2Proof.Machine.execEvHearthPlace spire region s
  | .evRegionClosed spire region => Sys2Proof.Machine.execEvRegionClosed spire region s
  | .evShadowWrite spire region imm j => Sys2Proof.Machine.execEvShadowWrite spire region imm j s
  | .evCellSwap spire region imm j u => Sys2Proof.Machine.execEvCellSwap spire region imm j u s
  | .evMatrixOpStart spire region => Sys2Proof.Machine.execEvMatrixOpStart spire region s
  | .evRowDrain spire region => Sys2Proof.Machine.execEvRowDrain spire region s
  | .evMatrixHalt spire region => Sys2Proof.Machine.execEvMatrixHalt spire region s
  | .evElementLand spire ch => Sys2Proof.Machine.execEvElementLand spire ch s
  | .evCopySignal spire ch => Sys2Proof.Machine.execEvCopySignal spire ch s
  | .evStreamRead spire ctx k => Sys2Proof.Machine.execEvStreamRead spire ctx k s
  | .evSpill spire ctx => Sys2Proof.Machine.execEvSpill spire ctx s
  | .evMergeFinish spire ctx => Sys2Proof.Machine.execEvMergeFinish spire ctx s
  | .evSetOperation spire ctx => Sys2Proof.Machine.execEvSetOperation spire ctx s
  | .evRegionQuiet spire region => Sys2Proof.Machine.execEvRegionQuiet spire region s
  | .evCutDone spire region => Sys2Proof.Machine.execEvCutDone spire region s
  | .evDbgtrig => Sys2Proof.Machine.execEvDbgtrig s
  | .evSnapshotLatch spire => Sys2Proof.Machine.execEvSnapshotLatch spire s
  | .evTraceWrite spire => Sys2Proof.Machine.execEvTraceWrite spire s
  | .evWidxWrite q v => Sys2Proof.Machine.execEvWidxWrite q v s
  | .evQstatErr q => Sys2Proof.Machine.execEvQstatErr q s
  | .evQstatFault q => Sys2Proof.Machine.execEvQstatFault q s
  | .evQstatAbort q => Sys2Proof.Machine.execEvQstatAbort q s
  | .evEvrWrite q v => Sys2Proof.Machine.execEvEvrWrite q v s
  | .evRefusedWrite spire region v => Sys2Proof.Machine.execEvRefusedWrite spire region v s
  | .evNodeStateWrite spire region o => Sys2Proof.Machine.execEvNodeStateWrite spire region o s
  | .evRctlWrite spire region v => Sys2Proof.Machine.execEvRctlWrite spire region v s
  | .evBkcfgWrite spire region k v => Sys2Proof.Machine.execEvBkcfgWrite spire region k v s
  | .evRegisterWrite o v => Sys2Proof.Machine.execEvRegisterWrite o v s
  | .evLaunch q => Sys2Proof.Machine.execEvLaunch q s
  | .evLaunchPlace die => Sys2Proof.Machine.execEvLaunchPlace die s
  | .evBind q => Sys2Proof.Machine.execEvBind q s
  | .evBindInbound spire region k => Sys2Proof.Machine.execEvBindInbound spire region k s
  | .evBindOutbound spire region k => Sys2Proof.Machine.execEvBindOutbound spire region k s
  | .evWait q => Sys2Proof.Machine.execEvWait q s
  | .evSignalStf q => Sys2Proof.Machine.execEvSignalStf q s
  | .evSignalArrive q => Sys2Proof.Machine.execEvSignalArrive q s
  | .evSignalAadd q => Sys2Proof.Machine.execEvSignalAadd q s
  | .evConfigLoad q => Sys2Proof.Machine.execEvConfigLoad q s
  | .evConfigUnload q => Sys2Proof.Machine.execEvConfigUnload q s
  | .evConfigForce q => Sys2Proof.Machine.execEvConfigForce q s
  | .evRegion q => Sys2Proof.Machine.execEvRegion q s
  | .evCopy q => Sys2Proof.Machine.execEvCopy q s
  | .evFence q => Sys2Proof.Machine.execEvFence q s
  | .evCommandComplete q k => Sys2Proof.Machine.execEvCommandComplete q k s
  | .evSeqEnd q k => Sys2Proof.Machine.execEvSeqEnd q k s
  | .evSeqLoad q k => Sys2Proof.Machine.execEvSeqLoad q k s
  | .evSeqSwap q k => Sys2Proof.Machine.execEvSeqSwap q k s
  | .evSeqWaiteos q k => Sys2Proof.Machine.execEvSeqWaiteos q k s
  | .evSeqWaitc q k => Sys2Proof.Machine.execEvSeqWaitc q k s
  | .evSeqSkipc q k => Sys2Proof.Machine.execEvSeqSkipc q k s
  | .evSeqPin q k => Sys2Proof.Machine.execEvSeqPin q k s
  | .evSeqUnpin q k => Sys2Proof.Machine.execEvSeqUnpin q k s
  | .evPeerAccess p => Sys2Proof.Machine.execEvPeerAccess p s
  | .evPeerLinkDown p => Sys2Proof.Machine.execEvPeerLinkDown p s
  | .evIslctlWrite imm v => Sys2Proof.Machine.execEvIslctlWrite imm v s
  | .evIslandPowerUp imm => Sys2Proof.Machine.execEvIslandPowerUp imm s
  | .evIslandGate imm => Sys2Proof.Machine.execEvIslandGate imm s
  | .evVfChange imm => Sys2Proof.Machine.execEvVfChange imm s
  | .evThermalThrottle imm => Sys2Proof.Machine.execEvThermalThrottle imm s
  | .evForcedGate imm => Sys2Proof.Machine.execEvForcedGate imm s
  | .evEccWindow k imm => Sys2Proof.Machine.execEvEccWindow k imm s
  | .evUncorrectableError o => Sys2Proof.Machine.execEvUncorrectableError o s
  | .evPackageReset die => Sys2Proof.Machine.execEvPackageReset die s
  | .evAttctlWrite die v => Sys2Proof.Machine.execEvAttctlWrite die v s
  | .evAttestationDone die => Sys2Proof.Machine.execEvAttestationDone die s
  | .evMatrixStreamRead spire region => Sys2Proof.Machine.execEvMatrixStreamRead spire region s
  | .evMemoryNodeAccessDone spire region k => Sys2Proof.Machine.execEvMemoryNodeAccessDone spire region k s
  | .evPeerLinkUp p => Sys2Proof.Machine.execEvPeerLinkUp p s

end Sys2Proof.Machine
end

