-- ==== Sys2Proof/Machine/Schedule.lean ====
section
/-! DEFINITION. When a thread issues, the order in which the package's agents act, and its inputs (R127, R132, R133, R139, R189, R235,
R318, R401 to R405, R419, R423, R426; log 4). -/

namespace Sys2Proof.Machine

/-! ## Issue -/

/-- Whether a slot's thread issues at its cycle (R124, R378). -/
def Slot.ready (v : Slot) : Bool := decide (v.st = .run) && !v.held

/-- Whether an event, a recorded poison or a trap that a hold kept waiting is taken before the thread's next instruction (R226, R362,
R378). -/
def Slot.eventDue (v : Slot) : Bool := v.trapDue.isSome || v.poison.isSome || (!v.events.isEmpty && !v.nest)

/-- Whether a parked thread retries its sync word in its own cycle (R132). -/
def Slot.retries (v : Slot) : Bool :=
  decide (v.st = .park) && v.park.any (fun k => match k.op with
    | .sync _ true false => true
    | _ => false)

/-- The thread that issues an instruction, with FIRED cleared (R134). -/
def State.issuing (i : Option Instr) (s : State) : State := s.setThr { s.thr with wFired := false, ins := i }

/-- The word of the thread decodes to no instruction: ILLEGAL (R45). -/
def State.illegalWord (w : BitVec 32) (sub : Nat) (s : State) : State := s.trap .illegal sub (w.setWidth 64)

/-! ## The order of a turn -/

/-- Whether a spire's cores have a turn in the present sixteen cycles (R127, R419). -/
def State.hasTurn (s : State) (g : Nat) : Bool := decide (({ s with now := s.now + 16 } : State).turnOf g ≠ s.turnOf g)

/-- Whether a slot acts in its cycle of the present turn (R124, R127, R132, R139). -/
def State.acts (s : State) (t : Nat) (v : Slot) : Bool :=
  (v.ready && decide (v.wake ≤ s.now / 16 * 16 + tidSlot t) || v.retries) && s.hasTurn (tidSpire t)

/-- The spires that latch their snapshots at a cycle (R414). -/
noncomputable def State.latches (cyc : Nat) (s : State) : List Action :=
  (s.spires.filter (fun e => e.2.dbg.latchAt.any (fun c => decide (c ≤ cyc)))).map (fun e => .event (.evSnapshotLatch e.1))

/-- Whether a region has cycles to count: it holds a configuration or receives one, or its matrix cells work. -/
def Region.live (r : Region) : Bool := r.active.isSome || r.shadow.isSome || r.matrix.run.isSome || !r.fired.isEmpty

/-- Whether some region has cycles to count. -/
def State.fabricLive (s : State) : Bool := s.spires.any (fun e => e.2.regions.any (fun x => x.2.live))

/-- The placements that a die's lantern has due: in the first cycle of a turn, after the SPAWNs of that cycle (R139, R392). -/
noncomputable def State.launchSteps (s : State) : List Action :=
  (s.die0.fifo.map (fun _ => Instr.evLaunchPlace 0) ++ s.die1.fifo.map (fun _ => Instr.evLaunchPlace 1)).map Action.event

/-- Whether something happens in a phase of the present turn: a slot acts (R127), a LAUNCH is placed (R139), a snapshot is latched
(R414), or a fabric has its cycle (R236). -/
noncomputable def State.phaseActs (s : State) (p : Nat) : Bool :=
  s.fabricLive || s.slots.any (fun e => decide (tidSlot e.1 = p) && s.acts e.1 e.2)
    || decide (p = 0) && !s.launchSteps.isEmpty || !(s.latches (s.now / 16 * 16 + p)).isEmpty

/-- The next phase of the present turn in which something happens (R127). -/
noncomputable def State.nextPhase (s : State) : Option Nat :=
  (List.range 16).find? (fun p => decide (s.cursor ≤ p) && s.phaseActs p)

/-- The place of a slot's instruction among those of its cycle: threads that leave groups go first (R189), then SLOTLOAD
(R377), then the others in the order of their cores (R139), and last the copies by channel, so that a window registered in the
cycle is seen by later ones only (R318, R326). -/
noncomputable def State.cycleRank (s : State) (t : Nat) : Nat :=
  let s : State := { s with tid := t }
  if !s.thr.ready || s.thr.eventDue then 2
  else
    match s.fetch with
    | .error _ => 2
    | .ok w =>
      match decode w with
      | .ok (.exit g) => if s.guardOk g then 0 else 2
      | .ok (.gleave g _ _) => if s.guardOk g then 0 else 2
      | .ok (.kill g _ a) => if s.guardOk g ∧ s.getX a = (s.thr.handle t).setWidth 64 then 0 else 2
      | .ok (.slotload g _ _) => if s.guardOk g then 1 else 2
      | .ok (.cpy g _ _ _ c) => if s.guardOk g then 3 + c.toNat else 2
      | _ => 2

/-- The slots that act in a phase, in their order. -/
noncomputable def State.phaseOrder (s : State) (p : Nat) : List Nat :=
  lsort s.cycleRank ((s.slots.filter (fun e => decide (tidSlot e.1 = p) && s.acts e.1 e.2)).map Prod.fst)

/-- The cycle of a phase begins (R127; log 4): the cycles of a fabric that has some stand next until it is reached; then the
snapshots that it latches (R414), its issues, and in the first one the placements of LAUNCH (R139). -/
noncomputable def State.beginPhase (p : Nat) (s : State) : State :=
  if s.fabricLive ∧ s.now % 16 < p then { s with agenda := List.replicate (p - s.now % 16) .cycle }
  else
    { s with
      now := max s.now (s.now / 16 * 16 + p)
      cursor := p + 1
      agenda := s.latches (s.now / 16 * 16 + p) ++ (s.phaseOrder p).map Action.issue ++ (if p = 0 then s.launchSteps else []) }

/-- The steps of a slot that a turn offers: its queue's entries, its park, its drain (R129, R164, R168). -/
noncomputable def slotSteps (t : Nat) (v : Slot) : List Instr :=
  v.queue.flatMap (fun e => match e with
    | .store _ ps => ps.map (fun _ => .evStorePerformed t 0 0)
    | .amo _ _ => [.evAtomicAtHome t 0])
  ++ (match v.park with
    | some k => match k.op with
      | .fetch _ => [.evIcacheFill t]
      | .walk _ _ _ => [.evPageWalk t]
      | .load r => r.todo.map (fun _ => .evLoadResponse t 0)
      | .reply _ _ => [.evLoadResponse t 0]
      | .once _ => [.evStorePerformed t 8 0]
      | .atomic _ _ => [.evAtomicAtHome t 8]
      | .sync _ waits _ => if waits then [] else [.evSyncWordAtHome t]
      | .sleep _ _ _ => [.evThreadResume t, .evSleepTimeout t]
      | _ => [.evThreadResume t]
    | none => [])
  ++ (if v.st = .drain then [.evDrainComplete t] else if v.wLimit = 0 then [] else [.evLongPark t])

/-- The steps of a region that a cycle offers (R236, R287): accesses end, places swap, places fire. -/
noncomputable def cycleSteps (g n : Nat) (r : Region) : List Action :=
  let ev (i : Instr) : Action := .event i
  (List.range r.accs.length).reverse.map (fun k => ev (.evMemoryNodeAccessDone g n k))
  ++ (if r.st = .swapping then
      r.sites.map (fun x => ev (.evShadowWrite g n x.1 x.2)) ++ r.places.map (fun p => ev (.evCellSwap g n p.row p.col p.unit))
    else [])
  ++ r.liveNodes.map (fun m => .fire g n m.site m.arm)
  ++ r.flights.map (fun f => ev (.evReturnDelivery g n f.tid))
  ++ r.waiting.map (fun t => ev (.evRecordEntry g n t))
  ++ (if r.cut.state = 1 then [ev (.evCutDone g n)] else [])

/-- The steps of a region that a turn offers. -/
noncomputable def regionSteps (g n : Nat) (r : Region) : List Action :=
  let ev (i : Instr) : Action := .event i
  (if r.live then [] else cycleSteps g n r)
  ++ (List.range r.entries.length).flatMap (fun k => if r.binds.isEmpty then [] else
      [ev (.evBindInbound g n k), ev (.evBindOutbound g n k)])
  ++ (if r.kind = 2 then [ev (.evMatrixOpStart g n), ev (.evMatrixStreamRead g n), ev (.evRowDrain g n), ev (.evMatrixHalt g n)]
    else [ev (.evHearthPlace g n), ev (.evRegionClosed g n), ev (.evRegionQuiet g n)])

/-- Whether a turn offers a context its finish or set operation: the owner waits for it, or no owner is left; a retried one that
nobody has joined again (R354) is offered every 256 turns. (log 4: DESIGN CHOICE.) -/
def State.offersFinish (s : State) (c : Nat) (v : Context) : Bool :=
  match v.owner with
  | none => true
  | some h => (s.slot (handleTid h)).park.any (fun k => match k.op with
      | .merge e _ => decide (e = c)
      | _ => false) || decide (s.now / 16 % 256 = 0)

/-- The page walks of a spire's engines that waited for their turn (R370). -/
def missSteps (g : Nat) (sp : Spire) : List Action := sp.misses.map (fun _ => .engineWalk g)

/-- The steps of a spire that a turn offers; its tongs land an element of each channel, and up to sixteen in
rounds once eight have landed (R337; log 4: DESIGN CHOICE). -/
noncomputable def State.spireSteps (s : State) (g : Nat) (sp : Spire) : List Action :=
  let ev (i : Instr) : Action := .event i
  let copying := (List.range 16).filter (fun ch => (sp.channel ch).queue.head?.any (fun e => decide (e.st ≠ .frozen)))
  let begun (ch : Nat) : Bool := (sp.channel ch).activeCopy.any (fun e => decide (8 ≤ e.next))
  missSteps g sp
  ++ sp.groups.map (fun e => ev (.evCollectiveComplete g e.1))
  ++ sp.regions.flatMap (fun e => regionSteps g e.1 e.2)
  ++ (if sp.places.isEmpty || sp.regions.any (fun e => decide (e.2.kind ≠ 2)) then [] else [ev (.evHearthPlace g 0)])
  ++ (List.range 16).flatMap (fun k => (copying.filter (fun ch => decide (k = 0) || begun ch)).map (fun ch => ev (.evElementLand g ch)))
  ++ (List.range 16).flatMap (fun ch => if (sp.channel ch).queue.isEmpty then [] else [ev (.evCopySignal g ch)])
  ++ [0, 1].flatMap (fun c => if (sp.context c).st = .free then [] else
      (List.range 16).map (fun k => ev (.evStreamRead g c k))
      ++ ev (.evSpill g c)
        :: (if s.offersFinish c (sp.context c) then [ev (.evMergeFinish g c), ev (.evSetOperation g c)] else []))
  ++ sp.dbg.fifo.map (fun _ => ev (.evTraceWrite g))

/-- The steps of a command queue that a turn offers. -/
noncomputable def queueSteps (q : Nat) (v : Queue) : List Instr :=
  v.cmds.flatMap (fun c =>
    let k := c.idx.toNat
    (match c.work with
      | .load _ _ _ _ => [.evSeqEnd q k, .evSeqLoad q k, .evSeqSwap q k, .evSeqWaiteos q k, .evSeqWaitc q k, .evSeqSkipc q k,
          .evSeqPin q k, .evSeqUnpin q k]
      | _ => []) ++ [.evCommandComplete q k])
  ++ [.evLaunch q, .evBind q, .evWait q, .evSignalStf q, .evSignalArrive q, .evSignalAadd q, .evConfigLoad q,
    .evConfigUnload q, .evConfigForce q, .evRegion q, .evCopy q, .evFence q]

/-- The held messages of a die's lantern that a turn offers, before any SLEEP of the turn times out (R148, R159). -/
noncomputable def heldSteps (n : Nat) (d : Die) : List Instr :=
  (List.range d.holding.length).reverse.map (fun i => .evHeldRedelivery n i)

/-- The steps of a die's lantern that a turn offers. -/
noncomputable def dieSteps (n : Nat) (d : Die) : List Instr := if d.attBusy then [.evAttestationDone n] else []

/-- The kills that arrive in a cycle (R133, R150). -/
noncomputable def State.killSteps (s : State) : List Action :=
  (lsort KillReq.killer s.kills).map (fun k => .event (.evKillArrival k.killer))

/-- The steps of an island that a turn offers. -/
noncomputable def islandSteps (i : Nat) (v : Island) : List Instr :=
  [.evForcedGate i] ++ (if v.temp.toNat < 100 then [.evVfChange i] else [.evThermalThrottle i])
  ++ [.evIslandPowerUp i, .evIslandGate i]

/-- The replacement of cached lines, offered every 64 turns. (log 7: DESIGN CHOICE.) -/
noncomputable def State.replacements (s : State) : List Action :=
  if s.now / 16 % 64 = 0 then s.spires.flatMap (fun e => (e.2.cache.map (fun c => c.1 / 8)).eraseDups.map (Action.evict e.1)) else []

/-- Every step of its own that the package offers at the end of a turn (log 4); one that cannot be taken changes nothing. -/
noncomputable def State.due (s : State) : List Action :=
  let ev (i : Instr) : Action := .event i
  s.killSteps
  ++ (heldSteps 0 s.die0 ++ heldSteps 1 s.die1).map ev
  ++ [.messages 0]
  ++ s.answers.map (fun a => ev (.evAnswerArrival a.tid))
  ++ s.slots.flatMap (fun e => (slotSteps e.1 e.2).map ev)
  ++ ((s.waits.map Prod.fst).eraseDups.map (fun l => ev (.evWaitlistRetry l)))
  ++ s.peerOut.map (fun _ => .peerAck)
  ++ s.spires.flatMap (fun e => s.spireSteps e.1 e.2)
  ++ s.queues.flatMap (fun e => (queueSteps e.1 e.2).map ev)
  ++ (dieSteps 0 s.die0 ++ dieSteps 1 s.die1).map ev
  ++ s.peerIn.map (fun r => ev (.evPeerAccess r.peer))
  ++ s.islands.flatMap (fun e => (islandSteps e.1 e.2).map ev)
  ++ (s.ecc.filter s.windowOver).map (fun e => ev (.evEccWindow e.cls e.id))
  ++ s.replacements

/-- The order in which the messages of a turn reach their destinations: to inboxes, then by port and sender (R139); those of one
sender keep their order (R160). -/
def Msg.order (m : Msg) : Nat := if isPort m.dst then (1 + fld m.dst 0 2) * 65536 + handleTid m.src else handleTid m.src

/-- The slots whose threads have exited in the turn are FREE (R145), and the messages that wait at the cores are offered again
(R154, R159). -/
def State.settleTurn (s : State) : State :=
  let s : State := { s with
    slots := s.slots.map (fun e => (e.1, if e.2.st = .ended then { e.2 with st := .free } else e.2))
    net := lsort Msg.order s.net }
  (s.cores.filter (fun e => !e.2.waiting.isEmpty)).foldl (fun s e => s.deliverWaiting e.1) s

/-- The end of a turn: the cycles that a live fabric still has in it stand next, then what the package may do by itself
(R127; log 4). -/
noncomputable def State.endTurn (s : State) : State :=
  let s := s.settleTurn
  if s.fabricLive then { s with cursor := 0, agenda := List.replicate (16 - s.now % 16) .cycle ++ s.due }
  else { s with now := (s.now / 16 + 1) * 16, cursor := 0, agenda := s.due }

/-- The regions of a spire at their next cycle. -/
def Spire.tick (sp : Spire) : Spire :=
  { sp with regions := sp.regions.map (fun x => (x.1, if x.2.live then { x.2 with clock := x.2.clock + 1 } else x.2)) }

/-- A cycle of the fabric: the clocks advance, and what the places may do stands next (R236, R406; log 4), in a turn's last cycle
after the kills that arrive then (R133).
(log 79: DESIGN CHOICE.) -/
noncomputable def State.cycle (s : State) : State :=
  let s : State := { s with now := s.now + 1 }
  let here := s.spires.filter (fun e => s.ticks e.1)
  let offers := here.flatMap (fun e => e.2.regions.flatMap (fun x => if x.2.live then cycleSteps e.1 x.1 x.2 else []))
  let s := here.foldl (fun s e => s.setSpire e.1 e.2.tick) s
  { s with agenda := (if s.now % 16 = 0 then s.killSteps else []) ++ offers ++ s.latches s.now ++ .sample :: s.agenda }

/-! ## Inputs -/

/-- The host writes bytes of its own memory. -/
def State.hostWrite (k : Nat) (bs : List Byte) (s : State) : State :=
  if 0x800000000000 ≤ k ∧ k + bs.length ≤ 0xC00000000000 then s.homeWrite k bs else s

/-- An access arrives at a peer port (R403, R404). -/
def State.peerArrives (r : PeerReq) (s : State) : State := if s.peerUp r.peer then { s with peerIn := s.peerIn ++ [r] } else s

/-- A translation leaves a TLB (log 7). -/
def State.tlbEvict (g i : Nat) (s : State) : State :=
  let sp := s.spire g
  s.setSpire g { sp with tlb := ldel sp.tlb i }

/-- A line leaves a core's instruction cache (log 7). -/
def State.icacheEvict (core line : Nat) (s : State) : State :=
  let c := s.core core
  s.setCore core { c with icache := tdel line c.icache }

/-- The hottest sensor of a powered island reads a temperature (R419, R421). -/
def State.sensor (i : Nat) (t : BitVec 8) (s : State) : State :=
  if i < islandCount then
    let v := s.island i
    s.setIsland i { v with temp := t, hot := decide (100 ≤ t.toNat) || (v.hot && decide (95 ≤ t.toNat)) }
  else s

/-- An input acts (log 4). -/
def State.input (a : Action) (s : State) : State :=
  match a with
  | .issue _ | .fire _ _ _ _ | .event _ | .cycle | .messages _ | .retryList _ => s
  | .engineWalk g => s.engineWalk g
  | .peerAck => { s with peerOut := s.peerOut.drop 1 }
  | .sample => s.cycleEnds
  | .hostWrite k bs => s.hostWrite k bs
  | .barWrite o bs => s.barWrite o bs
  | .barRead o n => s.barRead o n
  | .peerArrives r => s.peerArrives r
  | .evict g line => s.flushLine g (256 * line)
  | .tlbEvict g i => s.tlbEvict g i
  | .icacheEvict c line => s.icacheEvict c line
  | .sensor i t => s.sensor i t
  | .corrected cls id => s.correct cls id
  | .parity g n p => s.mapRegion g n (fun r => { r with parity := r.parity ++ [p] })
  | .bootPlan d b => { s with boots := tset d b s.boots }

/-- The placed node that fires at a place (R236, R242). -/
def State.nodeFiring (s : State) (g n : Nat) (site : Site) (arm : Nat) : Option PNode :=
  (s.region g n).bind (fun r => (r.cell site).find? (fun m => decide (m.arm = arm)))

/-- Whether an instruction is one of the machine's own steps or a register write of the host. One that cannot happen in a state changes nothing.
(log 14: DESIGN CHOICE.) -/
def isEvent : Instr → Bool
  | .evEventTaken _ => true
  | .evThreadResume _ => true
  | .evLoadResponse _ _ => true
  | .evStorePerformed _ _ _ => true
  | .evAtomicAtHome _ _ => true
  | .evSyncWordAtHome _ => true
  | .evWaitlistRetry _ => true
  | .evIcacheFill _ => true
  | .evPageWalk _ => true
  | .evSleepTimeout _ => true
  | .evLongPark _ => true
  | .evMessageArrival _ => true
  | .evAnswerArrival _ => true
  | .evKillArrival _ => true
  | .evDrainComplete _ => true
  | .evHeldRedelivery _ _ => true
  | .evCollectiveComplete _ _ => true
  | .evRecordEntry _ _ _ => true
  | .evReturnDelivery _ _ _ => true
  | .evHearthPlace _ _ => true
  | .evRegionClosed _ _ => true
  | .evShadowWrite _ _ _ _ => true
  | .evCellSwap _ _ _ _ _ => true
  | .evMatrixOpStart _ _ => true
  | .evRowDrain _ _ => true
  | .evMatrixHalt _ _ => true
  | .evElementLand _ _ => true
  | .evCopySignal _ _ => true
  | .evStreamRead _ _ _ => true
  | .evSpill _ _ => true
  | .evMergeFinish _ _ => true
  | .evSetOperation _ _ => true
  | .evRegionQuiet _ _ => true
  | .evCutDone _ _ => true
  | .evDbgtrig => true
  | .evSnapshotLatch _ => true
  | .evTraceWrite _ => true
  | .evWidxWrite _ _ => true
  | .evQstatErr _ => true
  | .evQstatFault _ => true
  | .evQstatAbort _ => true
  | .evEvrWrite _ _ => true
  | .evRefusedWrite _ _ _ => true
  | .evNodeStateWrite _ _ _ => true
  | .evRctlWrite _ _ _ => true
  | .evBkcfgWrite _ _ _ _ => true
  | .evRegisterWrite _ _ => true
  | .evLaunch _ => true
  | .evLaunchPlace _ => true
  | .evBind _ => true
  | .evBindInbound _ _ _ => true
  | .evBindOutbound _ _ _ => true
  | .evWait _ => true
  | .evSignalStf _ => true
  | .evSignalArrive _ => true
  | .evSignalAadd _ => true
  | .evConfigLoad _ => true
  | .evConfigUnload _ => true
  | .evConfigForce _ => true
  | .evRegion _ => true
  | .evCopy _ => true
  | .evFence _ => true
  | .evCommandComplete _ _ => true
  | .evSeqEnd _ _ => true
  | .evSeqLoad _ _ => true
  | .evSeqSwap _ _ => true
  | .evSeqWaiteos _ _ => true
  | .evSeqWaitc _ _ => true
  | .evSeqSkipc _ _ => true
  | .evSeqPin _ _ => true
  | .evSeqUnpin _ _ => true
  | .evPeerAccess _ => true
  | .evPeerLinkDown _ => true
  | .evIslctlWrite _ _ => true
  | .evIslandPowerUp _ => true
  | .evIslandGate _ => true
  | .evVfChange _ => true
  | .evThermalThrottle _ => true
  | .evForcedGate _ => true
  | .evEccWindow _ _ => true
  | .evUncorrectableError _ => true
  | .evPackageReset _ => true
  | .evAttctlWrite _ _ => true
  | .evAttestationDone _ => true
  | .evMatrixStreamRead _ _ => true
  | .evMemoryNodeAccessDone _ _ _ => true
  | .evPeerLinkUp _ => true
  | _ => false

/-! ## An instruction where the step fetches next (log 5) -/

/-- The bytes of a word stored where a thread at `pc` fetches them, and the line filled. -/
def State.placeCode (w : BitVec 32) (pc : Nat) (asid : BitVec 12) (s : State) : State :=
  let pa := pc % 0x8000000000
  let sp := s.spire 0
  let e : TlbEntry := ⟨asid, false, pc / 4096 * 4096, 12, pa / 4096 * 4096, true, true, true, true, false, false⟩
  let s := (s.setSpire 0 { sp with tlb := e :: sp.tlb }).homeWrite pa (leBytes 4 w.toNat)
  let c := s.core 0
  s.setCore 0 { c with icache := tset (pa / 64) (BitVec.ofNat 512 (leNat (s.homeRead (pa / 64 * 64) 64))) c.icache }

/-- A thread in slot 0 of core 0 of spire 0 whose next instruction is a word; a FREE slot is given a kernel thread. -/
def State.fetchThread (w : BitVec 32) (s : State) : State :=
  let v := s.slot 0
  let v : Slot := if v.st = .free then { v with prv := .kernel } else v
  let pc : Word := if v.pc.toNat < 0x7F0000000000 ∧ v.pc.toNat % 4 = 0 then v.pc else 0
  let s := s.setSlot 0 { v with st := .run, held := false, park := none, events := [], poison := none, trapDue := none, wake := 0, pc := pc }
  { s.placeCode w pc.toNat v.asid with agenda := [.issue 0] }

/-- The unit of a node of an opcode (R231). -/
def unitOf (op : Nat) : Nat :=
  if op = 0x38 ∨ op = 0x39 then 1 else if op = 0x31 then 5 else if op = 0x3E then 13 else if op = 0x3F then 14 else 0

/-- A node word alone in region 0 of spire 0, its place the next to fire. -/
def State.fetchNode (w : BitVec 32) (s : State) : State :=
  let site : Site := ⟨0, 0, unitOf (nodeOp w)⟩
  let plane : Plane := ⟨1, 1, 1, 1, 0, [⟨0, 0, w, [], site, 0, 1⟩], []⟩
  let r : Region := { Region.create 0 0 1 1 0 0 0 with st := .placed, active := some plane }
  { s.setRegion 0 0 r with agenda := [.fire 0 0 site 0] }

end Sys2Proof.Machine
end

