-- ==== Sys2Proof/Machine/Step.lean ====
section
/-! DEFINITION. One step of the package: what stands next on the agenda acts, else the next phase of the turn begins, else the
turn ends (R127; log 4). -/

namespace Sys2Proof.Machine

/-- A thread runs a word (R45, R127). -/
noncomputable def runWord (w : BitVec 32) (s : State) : Host.Outcome State Fault Refusal :=
  match decode w with
  | .ok i => exec i (s.issuing (some i))
  | .error sub => .next ((s.issuing none).illegalWord w sub)

/-- The issue cycle of a slot (R127, R132, R362): an event that waits is taken, or the word at its pc runs. -/
noncomputable def issue (t : Nat) (s : State) : Host.Outcome State Fault Refusal :=
  let s : State := { s with tid := t }
  if s.thr.retries then exec (.evSyncWordAtHome t) s
  else if !s.thr.ready then .next s
  else if s.thr.eventDue then exec (.evEventTaken t) s
  else
    match s.fetch with
    | .error s' => .next s'
    | .ok w => runWord w s

/-- A place of the fabric fires the node it holds (R236). -/
noncomputable def fire (g n : Nat) (site : Site) (arm : Nat) (s : State) : Host.Outcome State Fault Refusal :=
  match (s.nodeFiring g n site arm).bind (fun m => decodeNode m.word) with
  | some i => exec i { s with site := ⟨g, n, site, arm⟩ }
  | none => .next s

/-- The messages from place `n` on reach their destinations, one after another (R139, R154). -/
noncomputable def messages (n : Nat) (s : State) : Host.Outcome State Fault Refusal :=
  if s.net.length ≤ n then .next s
  else
    match exec (.evMessageArrival n) s with
    | .next s' => .next { s' with agenda := .messages (if s'.net.length < s.net.length then n else n + 1) :: s'.agenda }
    | o => o

/-- What stands next acts. -/
noncomputable def act (a : Action) (s : State) : Host.Outcome State Fault Refusal :=
  match a with
  | .issue t => issue t s
  | .fire g n site arm => fire g n site arm s
  | .event i => if isEvent i then exec i s else .fault .notAnEvent
  | .cycle => .next s.cycle
  | .messages n => messages n s
  | .retryList l => exec (.evWaitlistRetry l) s
  | a => .next (s.input a)

/-- One step. (log 4: DESIGN CHOICE.) (log 82: DESIGN CHOICE.) -/
noncomputable def step (s : State) : Host.Outcome State Fault Refusal :=
  match s.agenda with
  | a :: rest => act a { s with agenda := rest }
  | [] =>
    match s.nextPhase with
    | some p => .next (s.beginPhase p)
    | none => .next s.endTurn

/-- A state whose very next step runs a word of the opcode table (log 5, log 6). (log 5: DESIGN CHOICE.) -/
noncomputable def State.withFetchWord (s : State) (nbits w : Nat) : State :=
  let word := BitVec.ofNat 32 (w % 2 ^ nbits)
  match decode word, decodeNode word with
  | .error _, some _ => s.fetchNode word
  | _, _ => s.fetchThread word

end Sys2Proof.Machine
end

