-- ==== Sys2Proof/Safety.lean ====
section
/-! DEFINITION. The terms that claims use: what a state keeps, what an instruction gives, which instructions are privileged. -/

namespace Sys2Proof.Machine

/-- Every byte reads as before. -/
def SameBytes (s t : State) : Prop := ∀ k, memGet k t.mem = memGet k s.mem

/-- Every field but the thread slots is as before. -/
def SameOutside (s t : State) : Prop := { t with slots := s.slots } = s

/-- Every slot but the one of the thread that executes is as before. -/
def SameOthers (s t : State) : Prop := ∀ u, u ≠ s.tid → t.slot u = s.slot u

/-- The thread goes on with the next instruction; only X[d] of the whole machine may have changed. -/
def OnlyX (d : Reg) (s t : State) : Prop :=
  t.thr.pc = s.thr.pc + 4 ∧ (∀ r, r ≠ d → t.getX r = s.getX r) ∧ { t.thr with x := s.thr.x, pc := s.thr.pc } = s.thr
    ∧ SameOthers s t ∧ SameOutside s t ∧ SameBytes s t

/-- The thread goes on with the next instruction; only the pair X[d], X[d + 1] may have changed. -/
def OnlyPair (d : Reg) (s t : State) : Prop :=
  t.thr.pc = s.thr.pc + 4 ∧ (∀ r, r ≠ d → r ≠ d + 1 → t.getX r = s.getX r)
    ∧ { t.thr with x := s.thr.x, pc := s.thr.pc } = s.thr ∧ SameOthers s t ∧ SameOutside s t ∧ SameBytes s t

/-- The thread goes on with the next instruction; only the predicate P[p] may have changed. -/
def OnlyP (p : PReg) (s t : State) : Prop :=
  t.thr.pc = s.thr.pc + 4 ∧ (∀ q, q ≠ p → t.getP q = s.getP q) ∧ { t.thr with p := s.thr.p, pc := s.thr.pc } = s.thr
    ∧ SameOthers s t ∧ SameOutside s t ∧ SameBytes s t

/-- As `OnlyX`, but the FCSR flags may have changed too. -/
def OnlyXFlags (d : Reg) (s t : State) : Prop :=
  t.thr.pc = s.thr.pc + 4 ∧ (∀ r, r ≠ d → t.getX r = s.getX r)
    ∧ { t.thr with x := s.thr.x, pc := s.thr.pc, fl := s.thr.fl } = s.thr ∧ SameOthers s t ∧ SameOutside s t ∧ SameBytes s t

/-- As `OnlyP`, but the FCSR flags may have changed too. -/
def OnlyPFlags (p : PReg) (s t : State) : Prop :=
  t.thr.pc = s.thr.pc + 4 ∧ (∀ q, q ≠ p → t.getP q = s.getP q)
    ∧ { t.thr with p := s.thr.p, pc := s.thr.pc, fl := s.thr.fl } = s.thr ∧ SameOthers s t ∧ SameOutside s t ∧ SameBytes s t

/-- Nothing of the machine but the pc of the thread that executes has changed. -/
def OnlyPc (pc : Word) (s t : State) : Prop :=
  t.thr = { s.thr with pc := pc } ∧ SameOthers s t ∧ SameOutside s t ∧ SameBytes s t

/-- An instruction completes with a value in X[d], where x0 takes none, and changes nothing else. -/
def GivesX (i : Instr) (d : Reg) (v : Word) (s : State) : Prop :=
  ∃ t, exec i s = .next t ∧ t.getX d = (if d = 0 then 0 else v) ∧ OnlyX d s t

/-- An instruction completes with a truth value in P[p], where p0 takes none, and changes nothing else. -/
def GivesP (i : Instr) (p : PReg) (v : Bool) (s : State) : Prop :=
  ∃ t, exec i s = .next t ∧ t.getP p = (if p = 0 then true else v) ∧ OnlyP p s t

/-- The thread that executes goes on with `w` in X[d]; nothing else of any thread has changed. -/
def StepsX (d : Reg) (w : Word) (s t : State) : Prop :=
  t.getX d = (if d = 0 then 0 else w) ∧ (∀ r, r ≠ d → t.getX r = s.getX r) ∧ t.thr.pc = s.thr.pc + 4
    ∧ { t.thr with x := s.thr.x, pc := s.thr.pc } = s.thr ∧ SameOthers s t

/-- A status instruction: X[d] takes `w`, entry `n` of the spire's region table takes `r`, and nothing else changes. -/
def GivesRegion (i : Instr) (d : Reg) (w : Word) (n : Nat) (r : Region) (s : State) : Prop :=
  ∃ t, exec i s = .next t ∧ StepsX d w s t ∧ { t with slots := s.slots } = s.setRegion (tidSpire s.tid) n r

/-- A precise trap of the thread that executes, taken with NEST clear (R362): the trap CSRs, the privilege and the pc as the rule
gives them, and nothing else changed. -/
def Traps (c : Cause) (sub val : Word) (s t : State) : Prop :=
  t.thr = { s.thr with
      st := .run, park := none, tepc := codeAddr s.thr.pc, tcause := BitVec.ofNat 8 c.code, tsub := sub, tval := val, tnode := 0
      pprv := s.thr.prv, prv := (if s.thr.prv = .user then .kernel else s.thr.prv), nest := true, pc := s.thr.tvec }
    ∧ SameOthers s t ∧ SameOutside s t ∧ SameBytes s t

/-- A control transfer with a link: the pc and X[d], and nothing else of the machine. -/
def Links (d : Reg) (target : Word) (s t : State) : Prop :=
  t.thr.pc = target ∧ t.getX d = (if d = 0 then 0 else s.thr.pc + 4) ∧ (∀ r, r ≠ d → t.getX r = s.getX r)
    ∧ { t.thr with x := s.thr.x, pc := s.thr.pc } = s.thr ∧ SameOthers s t ∧ SameOutside s t ∧ SameBytes s t

/-- The thread that executes parks, and nothing else of the machine changes. -/
def Parks (r : Reason) (op : ParkOp) (s t : State) : Prop :=
  t = s.setThr { s.thr with st := .park, park := some ⟨r, op, s.turnOf (tidSpire s.tid), false, s.serial⟩ }

/-- The thread that executes, being in no HOLD, traps with NEST clear; in HOLD its trap waits for the release (R378). -/
def TrapsWith (i : Instr) (c : Cause) (sub val : Word) (s : State) : Prop :=
  (s.thr.nest = false → s.thr.held = false → ∃ t, exec i s = .next t ∧ Traps c sub val s t)
    ∧ (s.thr.held = true → exec i s = .next (s.setThr { s.thr with st := .run, park := none, trapDue := some (c, sub, val, 0) }))

/-- The key of an offset in the keep of the spire of the thread that executes (R29). -/
def ownKey (s : State) (o : Nat) : Nat := 2 ^ 48 + tidSpire s.tid * 2 ^ 22 + o

/-- No byte of a run holds an uncorrectable error (R425). -/
def NoError (s : State) (k n : Nat) : Prop := ∀ j ∈ s.bad, j < k ∨ k + n ≤ j

/-- `n` bytes from an address lie in the thread's own-keep window from offset `o` on, the thread may read and write its keep
(R372), no copy has a window registered in the spire (R326), and none of the bytes holds an uncorrectable error (R425). -/
def OwnKeep (s : State) (va : Word) (n o : Nat) : Prop :=
  va.toNat = 0x7F1000000000 + o ∧ 0 < n ∧ o + n ≤ 0x300000 ∧ tidSpire s.tid < 160
    ∧ s.ctx.keepRight (tidSpire s.tid) .readWrite = true
    ∧ (∀ ch, ((s.spire (tidSpire s.tid)).channel ch).queue = []) ∧ NoError s (ownKey s o) n

/-- A sector holds no word that is not dirty (R181, R184). -/
def Sector.bare (c : Sector) : Prop := c.dirty ≠ 0 ∧ c.have_ &&& ~~~c.dirty = 0

/-- The bytes lie in near banks of the thread's core (R200). -/
def NearBanks (s : State) (n o : Nat) : Prop := o / 196608 = s.tid / 16 % 16 ∧ (o + n - 1) / 196608 = s.tid / 16 % 16

/-- `n` bytes of memory from a key, as a number (R2). -/
def bytesAt (s : State) (k n : Nat) : Nat := leNat (memRead k n s.mem)

/-- Only the bytes from `k` to `k + n` may read otherwise than before. -/
def SameBytesBut (k n : Nat) (s t : State) : Prop := ∀ j, (j < k ∨ k + n ≤ j) → memGet j t.mem = memGet j s.mem

/-- An enabled flag among those raised traps FPE (R84, R110): the flags are recorded, TSUB is the lowest enabled raised flag, TVAL
all that were raised, and no register or predicate is written. -/
def TrapsFpe (i : Instr) (fl : Flags) (s : State) : Prop :=
  ∃ t n, exec i s = .next t ∧ (fl &&& s.thr.en).getLsbD n = true ∧ (∀ k, k < n → (fl &&& s.thr.en).getLsbD k = false)
    ∧ Traps .fpe (BitVec.ofNat 64 n) (fl.setWidth 64) (s.setThr { s.thr with fl := s.thr.fl ||| fl }) t

/-- A floating-point instruction raises `fl`: with none of it enabled it completes with `w` in X[d] and the flags recorded,
otherwise it traps. -/
def GivesFp (i : Instr) (d : Reg) (w : Word) (fl : Flags) (s : State) : Prop :=
  (fl &&& s.thr.en = 0 → ∃ t, exec i s = .next t ∧ t.getX d = (if d = 0 then 0 else w) ∧ t.thr.fl = s.thr.fl ||| fl
      ∧ OnlyXFlags d s t)
    ∧ (fl &&& s.thr.en ≠ 0 → s.thr.nest = false → s.thr.held = false → TrapsFpe i fl s)

/-- The same for a compare that gives a truth value in P[p]. -/
def GivesFpP (i : Instr) (p : PReg) (b : Bool) (fl : Flags) (s : State) : Prop :=
  (fl &&& s.thr.en = 0 → ∃ t, exec i s = .next t ∧ t.getP p = (if p = 0 then true else b) ∧ t.thr.fl = s.thr.fl ||| fl
      ∧ OnlyPFlags p s t)
    ∧ (fl &&& s.thr.en ≠ 0 → s.thr.nest = false → s.thr.held = false → TrapsFpe i fl s)

/-- NV when a condition holds. -/
def nvIf (b : Bool) : Flags := if b then flagNV else 0

/-- One value is less than another; a NaN is never. -/
def FVal.below (x y : FVal) : Bool :=
  match x, y with
  | .nan _, _ => false
  | _, .nan _ => false
  | .inf n, .inf k => n && !k
  | .inf n, .fin _ _ _ => n
  | .fin _ _ _, .inf k => !k
  | .fin _ _ e, .fin _ _ f => decide (x.scaled (min e f) < y.scaled (min e f))

/-- Two values are equal, zeros of either sign among them; a NaN is equal to nothing. -/
def FVal.same (x y : FVal) : Bool := !x.isNaN && !y.isNaN && !x.below y && !y.below x

/-- The cycles that register stages and seams add on the way of an output: one for each stage, two for each seam (R23, R236, R274). -/
def edgeCycles (r : Region) (p : Plane) (node : PNode) (out : Nat) : Nat :=
  ((((p.edge node out).map Prod.fst).getD []).map (fun h => p.stage h + r.seamCycles p h)).sum

/-- The cycles that a node and the link between its copies take (R245, R256, R278). -/
def nodeCycles (node : PNode) : Nat := opLatency (nodeOp node.word) node.exts + node.linkCycles

/-- The cycle of its region in which a token sent now on an output stands in its queue (R236, R274, R278). -/
def arrivesAt (r : Region) (p : Plane) (node : PNode) (out : Nat) : Nat := r.clock + nodeCycles node + edgeCycles r p node out

/-- The edge of an output takes a token now: none of it waits for the active plane (R288), and it has taken fewer than eight within its
q cycles (R275). -/
def Paced (r : Region) (p : Plane) (node : PNode) (out : Nat) : Prop :=
  (∀ k ∈ r.stalled, k.site = node.site → k.arm = node.arm → k.out ≠ out)
    ∧ ∀ hops x, p.edge node out = some (hops, .port x) →
        ∀ e ∈ r.sent, e.1 = x → e.2.length < 8 ∨ e.2.getLast?.getD 0 + (2 * edgeCycles r p node out + 2) ≤ r.clock

/-- An output has a credit (R236): it has no edge, or its edge holds fewer than eight tokens or, where its q is 8 or less, than its
producer and its links have in flight as it takes one in each cycle (R256, R275), and takes a token now. -/
def HasCredit (r : Region) (p : Plane) (node : PNode) (out : Nat) (q : Option PortId) : Prop :=
  (p.edge node out = none ∧ q = none)
    ∨ ∃ hops x, p.edge node out = some (hops, .port x) ∧ q = some x ∧ Paced r p node out
      ∧ let way := edgeCycles r p node out
        (queueOf x r.queues).length < max 8 (nodeCycles node + if 2 * way + 2 ≤ 8 then way + 1 else 0)

/-- A one-armed place of a running region fires (R236): its node, a credit on each output, nothing but data at the heads of its ports,
no cut or halt under way, nothing left over from a firing, nothing fired there in the present cycle. -/
structure CellReady (word : BitVec 32) (s : State) (r : Region) (p : Plane) (node : PNode) (q0 q1 : Option PortId) : Prop where
  region  : s.region s.site.spire s.site.region = some r
  placed  : r.st = .placed
  plane   : r.active = some p
  one     : p.nodes.filter (fun n => decide (n.site = s.site.site)) = [node]
  arm     : node.arm = 0 ∧ s.site.arm = 0
  word    : node.word = word
  noCut   : r.cut.state = 0 ∧ r.cut.loops = [] ∧ r.halt = false ∧ r.passed = [] ∧ r.parity = []
  fresh   : s.site.site ∉ r.spent ∧ s.site.site ∉ r.fired
  data    : ∀ q, q < 4 → ∀ t, r.head s.site.site q = some t → t.kind = .data
  clear   : (r.nodeState false s.site.site 0).pend = []
  noAcc   : ∀ a ∈ r.accs, a.site ≠ s.site.site
  credit0 : HasCredit r p node 0 q0
  credit1 : HasCredit r p node 1 q1
  apart   : q0 = none ∨ q0 ≠ q1

/-- What lies outside the region that fires and the site counters is as before. -/
def SameButRegion (s t : State) : Prop :=
  { t with spires := s.spires } = s
    ∧ (∀ h, { t.spire h with regions := (s.spire h).regions, sites := (s.spire h).sites } = s.spire h)
    ∧ (∀ h n, (h, n) ≠ (s.site.spire, s.site.region) → t.region h n = s.region h n)

/-- The state of a node after a firing: a replicated one turns to its next copy (R265). -/
def nextCopy (node : PNode) (pops : List Nat) (v : NodeState) : NodeState :=
  if 1 < node.rep ∧ pops ≠ [] then { v with pos := (v.pos % node.rep + 1) % node.rep } else v

/-- A place fires: the heads of `pops` are taken, `o0` and `o1` go out on outputs 0 and 1, and its state becomes `v` (R236);
the rest of its region is as before, but for what it notes of the cycle and of tokens on their way. -/
def SendsOut (i : Instr) (pops : List Nat) (o0 o1 : List Token) (v : NodeState) (s : State) (r : Region) (p : Plane) (node : PNode)
    (q0 q1 : Option PortId) : Prop :=
  ∃ t r', exec i s = .next t ∧ t.region s.site.spire s.site.region = some r' ∧ SameButRegion s t
    ∧ (∀ q, queueOf q r'.queues = (if q.site = s.site.site ∧ q.port ∈ pops then (queueOf q r.queues).drop 1 else queueOf q r.queues)
        ++ (if q0 = some q then o0.map (fun t => { t with due := arrivesAt r p node 0 })
          else if q1 = some q then o1.map (fun t => { t with due := arrivesAt r p node 1 }) else []))
    ∧ r'.nodeState false s.site.site 0 = nextCopy node pops v
    ∧ (∀ k, k ≠ (s.site.site, 0) → nodeStateOf k r'.nodes = nodeStateOf k r.nodes)
    ∧ { r' with queues := r.queues, nodes := r.nodes, fired := r.fired, spent := r.spent, sent := r.sent, crossings := r.crossings } = r

/-- A lane-wise result (R234, R246): TAG of the first token, DIM by MARK, POISON of any; a lane is valid when it is in every token
read and then holds `val` modulo the lane width, else its bytes are zero. -/
def LaneToken (w mark : Nat) (a : Token) (rest : List Token) (val : Nat → Nat) (t : Token) : Prop :=
  t.kind = .data ∧ t.tag = a.tag ∧ t.poison = (a :: rest).any Token.poison
    ∧ t.dim = (if mark = 1 then 0 else if mark = 2 then 1 else (rest.map Token.dim).foldl max a.dim)
    ∧ ∀ i, i < 64 / w →
        let ok := ∀ x ∈ a :: rest, ∀ j, j < w / 8 → x.valid.getLsbD (w / 8 * i + j) = true
        (ok → t.payload.toNat / 2 ^ (w * i) % 2 ^ w = val i % 2 ^ w ∧ ∀ j, j < w / 8 → t.valid.getLsbD (w / 8 * i + j) = true)
        ∧ (¬ ok → t.payload.toNat / 2 ^ (w * i) % 2 ^ w = 0 ∧ ∀ j, j < w / 8 → t.valid.getLsbD (w / 8 * i + j) = false)

/-- How many functs a major assigns from 0 on (R43); CMPI counts its conditions. -/
def assigned (m : Nat) : Nat :=
  match m with
  | 0x02 | 0x12 => 6 | 0x08 | 0x0B | 0x18 | 0x19 => 4 | 0x0C | 0x0D | 0x36 | 0x38 => 7 | 0x00 | 0x0E | 0x13 => 8
  | 0x11 | 0x2F | 0x30 => 11 | 0x2D | 0x34 => 2 | 0x2E | 0x39 => 9 | 0x31 | 0x32 | 0x3D => 5 | 0x37 => 6 | 0x3E => 3
  | _ => 16

/-- The bits of a word that its instruction does not use (R41), by major and funct: lowest bit and width. -/
def zeroFields (m f : Nat) : List (Nat × Nat) :=
  let unary : Bool := (m == 0x03 && 4 ≤ f) || (m == 0x10 && (f == 4 || f == 7 || f == 8 || 10 ≤ f))
    || (m == 0x11 && (f == 4 || f == 7 || f == 8 || f == 10)) || m == 0x14
  match m, f with
  | 0x00, _ => [(4, if f < 4 then 18 else 12)]
  | 0x0C, _ | 0x13, _ => [(19, 3)]
  | 0x0E, 4 | 0x0E, 7 => [(4, 6), (13, 3), (19, 3)]
  | 0x0E, 5 => [(4, 6), (16, 6)]
  | 0x0E, 6 => [(4, 12)]
  | 0x0E, _ => [(7, 3), (13, 3), (19, 3)]
  | 0x18, 0 => [(4, 18)]
  | 0x18, 2 => [(7, 3)]
  | 0x18, 3 | 0x19, 3 | 0x3D, 2 | 0x3E, 1 => [(4, 6)]
  | 0x19, 0 | 0x36, 0 | 0x3E, 0 => [(16, 6)]
  | 0x2E, 5 => [(4, 3), (16, 6)]
  | 0x2E, 6 => [(4, 3), (19, 3)]
  | 0x2E, _ => [(4, 3)]
  | 0x31, _ => [(7, 15)]
  | 0x32, _ => [(4, 6), (16, 6)]
  | 0x33, 0 | 0x33, 1 => [(10, 6)]
  | 0x33, 2 => [(10, 12)]
  | 0x36, 1 => [(19, 3)]
  | 0x36, _ => [(4, 6)]
  | 0x38, 0 => [(9, 1)]
  | 0x38, 4 => [(9, 7)]
  | 0x38, 5 => [(8, 8)]
  | 0x38, _ => [(8, 2)]
  | 0x39, 1 => []
  | 0x39, 2 => [(8, 1)]
  | 0x39, _ => [(4, 5)]
  | 0x3E, 2 => [(4, 12)]
  | _, _ => if unary then [(4, 6)] else []

/-- The lowest bit of a word's pair operand (R42), by major, funct and ORD size. -/
def pairField (m f size : Nat) : Option Nat :=
  if m = 0x27 ∨ m = 0x2C ∨ (m = 0x2D ∧ size = 4) ∨ m = 0x34 then some 16
  else if (m = 0x37 ∧ (f = 3 ∨ f = 4)) ∨ (m = 0x38 ∧ f ≤ 1) ∨ (m = 0x39 ∧ (f = 1 ∨ f = 2 ∨ f = 4)) then some 10
  else none

/-- Whether a word fails the decoding check of an ILLEGAL subcause (R45, R48). -/
def failsCheck (n sub : Nat) : Bool :=
  let m := n / 2 ^ 22 % 64
  let f := if m = 0x0D then n / 2 ^ 19 % 8 else n % 16
  let csr := n % 2 ^ 10
  match sub with
  | 7 => decide (n = 0xFFFFFFFF)
  | 1 => decide (m = 0x0F ∨ (0x1A ≤ m ∧ m ≤ 0x1F) ∨ m = 0x35 ∨ m = 0x3F)
  | 3 => decide (n / 2 ^ 28 = 8)
  | 2 => decide (assigned m ≤ f)
  | 5 => decide (((m = 0x2D ∨ m = 0x2E) ∧ 5 ≤ n / 2 ^ 7 % 8) ∨ ((m = 0x2D ∨ m = 0x31) ∧ 5 ≤ n / 2 ^ 4 % 8)
      ∨ (0x3A ≤ m ∧ m ≤ 0x3C ∧ csr ∉ [1, 2, 0x80, 0x81] ∧ ¬ (0x100 ≤ csr ∧ csr ≤ 0x110)))
  | 4 => (zeroFields m f).any (fun z => decide (n / 2 ^ z.1 % 2 ^ z.2 ≠ 0))
      || decide (0x3A ≤ m ∧ m ≤ 0x3C ∧ n / 2 ^ 7 % 2 = 1 ∧ n / 2 ^ 10 % 64 ≠ 0)
  | _ => (pairField m f (n / 2 ^ 4 % 8)).any (fun b => decide (n / 2 ^ b % 2 = 1))

/-- The key of word `j` of the packet that a queue starts next (R385, R386). -/
def Queue.packetKey (v : Queue) (j : Nat) : Nat :=
  (if v.loc then v.qbase.toNat % 2 ^ 48 else 2 ^ 47 + v.qbase.toNat % 2 ^ 46) + 64 * (v.ridx.toNat % 2 ^ v.log2n) + 8 * j

/-- Queue `q` starts the packet of the words `ws` next (R16, R34, R386, R387): its die accepts commands and its lantern is powered, it is
enabled and not halted, its ring holds the packet with no uncorrectable error in it, it has no started command, and no other queue of the
die is enabled. -/
structure QueueReady (q : Nat) (ws : Vector Word 8) (s : State) : Prop where
  number  : q < 64
  booted  : (s.die (q / 32)).booted = true
  powered : (s.island (480 + 16 * (q / 32) + 11)).st = 1
  enabled : (s.queue q).en = true
  running : (s.queue q).err = false
  pending : (s.queue q).widx ≠ (s.queue q).ridx
  idle    : (s.queue q).cmds = []
  alone   : ∀ r, r / 32 = q / 32 → r ≠ q → (s.queue r).en = false
  packet  : ∀ j : Fin 8, let k := (s.queue q).packetKey j.val
    ((s.home k).cached = true ∨ s.home k = .host) ∧ bytesAt s k 8 = ws[j].toNat
  clean   : NoError s ((s.queue q).packetKey 0) 64

/-- What lies outside the queues and the dies' lanterns is as before. -/
def SameButLantern (s t : State) : Prop := { t with queues := s.queues, die0 := s.die0, die1 := s.die1 } = s

/-- The instructions that need kernel privilege (R45, R358). -/
def privileged : Instr → Bool
  | .tret _ => true
  | .tlbi _ _ _ _ => true
  | .slotsave _ _ _ _ => true
  | .slotload _ _ _ => true
  | .slotctl _ _ _ _ => true
  | .rgnset _ _ _ _ => true
  | .csrrw _ _ _ n => decide (0x100 ≤ n.toNat)
  | .csrrs _ _ _ n => decide (0x100 ≤ n.toNat)
  | .csrrc _ _ _ n => decide (0x100 ≤ n.toNat)
  | _ => false

end Sys2Proof.Machine
end

