-- ==== Sys2Proof/WellFormed.lean ====
section
/-! DEFINITION. Which instructions are well formed: what a word can say and the encoding admits (R38, R42, R45, R48), and
which agents a step of the machine can name (R5, R13, R19, R268, R317, R338, R385). -/

namespace Sys2Proof

/-- The guard of a barrel instruction (R37). -/
def Instr.guard : Instr → Option Guard
  | .nop g => some g
  | .ebrk g => some g
  | .ecall g => some g
  | .tret g => some g
  | .rdcyc g _ => some g
  | .rdtime g _ => some g
  | .tid g _ => some g
  | .gtid g _ => some g
  | .add g _ _ _ => some g
  | .sub g _ _ _ => some g
  | .mul g _ _ _ => some g
  | .mulh g _ _ _ => some g
  | .mulhu g _ _ _ => some g
  | .div g _ _ _ => some g
  | .divu g _ _ _ => some g
  | .rem g _ _ _ => some g
  | .remu g _ _ _ => some g
  | .and g _ _ _ => some g
  | .or g _ _ _ => some g
  | .xor g _ _ _ => some g
  | .shl g _ _ _ => some g
  | .shr g _ _ _ => some g
  | .sra g _ _ _ => some g
  | .rot g _ _ _ => some g
  | .addw g _ _ _ => some g
  | .subw g _ _ _ => some g
  | .mulw g _ _ _ => some g
  | .shlw g _ _ _ => some g
  | .shrw g _ _ _ => some g
  | .sraw g _ _ _ => some g
  | .min g _ _ _ => some g
  | .max g _ _ _ => some g
  | .minu g _ _ _ => some g
  | .maxu g _ _ _ => some g
  | .abs g _ _ => some g
  | .clz g _ _ => some g
  | .ctz g _ _ => some g
  | .popc g _ _ => some g
  | .brev g _ _ => some g
  | .bswap g _ _ => some g
  | .sextb g _ _ => some g
  | .sexth g _ _ => some g
  | .sextw g _ _ => some g
  | .zextb g _ _ => some g
  | .zexth g _ _ => some g
  | .zextw g _ _ => some g
  | .addi g _ _ _ => some g
  | .andi g _ _ _ => some g
  | .ori g _ _ _ => some g
  | .xori g _ _ _ => some g
  | .shli g _ _ _ => some g
  | .shri g _ _ _ => some g
  | .srai g _ _ _ => some g
  | .roti g _ _ _ => some g
  | .lui g _ _ => some g
  | .lix g _ _ => some g
  | .shadd1 g _ _ _ => some g
  | .shadd2 g _ _ _ => some g
  | .shadd3 g _ _ _ => some g
  | .shadd4 g _ _ _ => some g
  | .ceq g _ _ _ => some g
  | .cne g _ _ _ => some g
  | .clt g _ _ _ => some g
  | .cltu g _ _ _ => some g
  | .cle g _ _ _ => some g
  | .cleu g _ _ _ => some g
  | .ctst g _ _ _ => some g
  | .ceqi g _ _ _ => some g
  | .cnei g _ _ _ => some g
  | .clti g _ _ _ => some g
  | .cltui g _ _ _ => some g
  | .clei g _ _ _ => some g
  | .cleui g _ _ _ => some g
  | .ctsti g _ _ _ => some g
  | .pand g _ _ _ => some g
  | .por g _ _ _ => some g
  | .pxor g _ _ _ => some g
  | .pandn g _ _ _ => some g
  | .pnot g _ _ => some g
  | .pset g _ => some g
  | .pget g _ => some g
  | .pmov g _ _ => some g
  | .faddS g _ _ _ => some g
  | .fsubS g _ _ _ => some g
  | .fmulS g _ _ _ => some g
  | .fdivS g _ _ _ => some g
  | .fsqrtS g _ _ => some g
  | .fminS g _ _ _ => some g
  | .fmaxS g _ _ _ => some g
  | .fabsS g _ _ => some g
  | .fnegS g _ _ => some g
  | .fcpysS g _ _ _ => some g
  | .fclassS g _ _ => some g
  | .frcpS g _ _ => some g
  | .frsqS g _ _ => some g
  | .fexp2S g _ _ => some g
  | .flog2S g _ _ => some g
  | .ftanhS g _ _ => some g
  | .faddD g _ _ _ => some g
  | .fsubD g _ _ _ => some g
  | .fmulD g _ _ _ => some g
  | .fdivD g _ _ _ => some g
  | .fsqrtD g _ _ => some g
  | .fminD g _ _ _ => some g
  | .fmaxD g _ _ _ => some g
  | .fabsD g _ _ => some g
  | .fnegD g _ _ => some g
  | .fcpysD g _ _ _ => some g
  | .fclassD g _ _ => some g
  | .fmacS g _ _ _ => some g
  | .fmscS g _ _ _ => some g
  | .fnmacS g _ _ _ => some g
  | .fmacD g _ _ _ => some g
  | .fmscD g _ _ _ => some g
  | .fnmacD g _ _ _ => some g
  | .fceqS g _ _ _ => some g
  | .fcltS g _ _ _ => some g
  | .fcleS g _ _ _ => some g
  | .fcunS g _ _ _ => some g
  | .fceqD g _ _ _ => some g
  | .fcltD g _ _ _ => some g
  | .fcleD g _ _ _ => some g
  | .fcunD g _ _ _ => some g
  | .cvtSD g _ _ => some g
  | .cvtDS g _ _ => some g
  | .cvtSH g _ _ => some g
  | .cvtHS g _ _ => some g
  | .cvtSBf g _ _ => some g
  | .cvtBfS g _ _ => some g
  | .cvtSE4 g _ _ => some g
  | .cvtE4S g _ _ => some g
  | .cvtSE5 g _ _ => some g
  | .cvtE5S g _ _ => some g
  | .cvtWS g _ _ => some g
  | .cvtSW g _ _ => some g
  | .cvtWuS g _ _ => some g
  | .cvtSWu g _ _ => some g
  | .cvtLD g _ _ => some g
  | .cvtDL g _ _ => some g
  | .br g _ => some g
  | .call g _ => some g
  | .jalr g _ _ _ => some g
  | .exit g => some g
  | .spawn g _ _ _ => some g
  | .sleep g _ _ _ => some g
  | .kill g _ _ => some g
  | .send g _ _ => some g
  | .sendw g _ _ _ => some g
  | .hbind g _ _ _ => some g
  | .hunbind g _ _ => some g
  | .lb g _ _ _ => some g
  | .lbu g _ _ _ => some g
  | .lh g _ _ _ => some g
  | .lhu g _ _ _ => some g
  | .lw g _ _ _ => some g
  | .lwu g _ _ _ => some g
  | .ld g _ _ _ => some g
  | .lq g _ _ _ => some g
  | .sb g _ _ _ => some g
  | .sh g _ _ _ => some g
  | .sw g _ _ _ => some g
  | .sd g _ _ _ => some g
  | .sq g _ _ _ => some g
  | .lacq g _ _ _ _ => some g
  | .srel g _ _ _ _ => some g
  | .ldf g _ _ _ => some g
  | .ldfe g _ _ _ => some g
  | .stef g _ _ _ => some g
  | .stf g _ _ _ => some g
  | .sto g _ _ _ => some g
  | .sete g _ _ => some g
  | .peekf g _ _ _ => some g
  | .arrive g _ _ _ => some g
  | .expect g _ _ _ => some g
  | .aaddD g _ _ _ => some g
  | .aandD g _ _ _ => some g
  | .aorD g _ _ _ => some g
  | .axorD g _ _ _ => some g
  | .aminD g _ _ _ => some g
  | .amaxD g _ _ _ => some g
  | .aminuD g _ _ _ => some g
  | .amaxuD g _ _ _ => some g
  | .aswpD g _ _ _ => some g
  | .acasD g _ _ _ => some g
  | .afaddD g _ _ _ => some g
  | .aaddW g _ _ _ => some g
  | .aandW g _ _ _ => some g
  | .aorW g _ _ _ => some g
  | .axorW g _ _ _ => some g
  | .aminW g _ _ _ => some g
  | .amaxW g _ _ _ => some g
  | .aminuW g _ _ _ => some g
  | .amaxuW g _ _ _ => some g
  | .aswpW g _ _ _ => some g
  | .acasW g _ _ _ => some g
  | .afaddW g _ _ _ => some g
  | .fenceAcq g _ => some g
  | .fenceRel g _ => some g
  | .fenceAr g _ => some g
  | .fenceCpy g _ => some g
  | .fenceSrv g _ => some g
  | .cflush g _ => some g
  | .cinv g _ => some g
  | .cpref g _ => some g
  | .czero g _ => some g
  | .cclean g _ => some g
  | .gjoin g _ _ => some g
  | .gleave g _ _ => some g
  | .gsync g _ => some g
  | .gshfl g _ _ _ => some g
  | .gshflx g _ _ _ => some g
  | .gbcast g _ _ _ => some g
  | .gvoteAny g _ _ _ => some g
  | .gvoteAll g _ _ _ => some g
  | .gvoteBal g _ _ _ => some g
  | .gmatch g _ _ _ => some g
  | .gredAdd g _ _ _ => some g
  | .gredMin g _ _ _ => some g
  | .gredMax g _ _ _ => some g
  | .gredFadd g _ _ _ => some g
  | .gredFmax g _ _ _ => some g
  | .gscanAdd g _ _ _ => some g
  | .ldxtB g _ _ _ => some g
  | .ldxtH g _ _ _ => some g
  | .srv g _ _ _ => some g
  | .srvnw g _ _ _ _ => some g
  | .srvq g _ _ => some g
  | .cfgld g _ _ => some g
  | .cfgpin g _ _ => some g
  | .cfgunpin g _ _ => some g
  | .cfgev g _ _ => some g
  | .mxw g _ _ _ => some g
  | .mxa g _ _ _ => some g
  | .mxc g _ _ _ => some g
  | .mxd g _ _ _ => some g
  | .mxmd g _ _ _ => some g
  | .mxst g _ _ _ => some g
  | .cpy g _ _ _ _ => some g
  | .cshp g _ _ _ => some g
  | .cpyq g _ _ _ => some g
  | .cpyres g _ _ _ => some g
  | .cpyabt g _ _ _ => some g
  | .wmrd g _ _ => some g
  | .wmwait g _ _ _ => some g
  | .mstart g _ _ _ => some g
  | .mstrm g _ _ _ _ _ => some g
  | .mpush g _ _ _ _ => some g
  | .mfin g _ _ _ => some g
  | .mspill g _ _ _ => some g
  | .mstat g _ _ _ => some g
  | .xsect g _ _ _ => some g
  | .xunion g _ _ _ => some g
  | .xcnt g _ _ _ => some g
  | .csrrw g _ _ _ => some g
  | .csrrs g _ _ _ => some g
  | .csrrc g _ _ _ => some g
  | .tlbi g _ _ _ => some g
  | .slotsave g _ _ _ => some g
  | .slotload g _ _ => some g
  | .slotctl g _ _ _ => some g
  | .rgnset g _ _ _ => some g
  | .trace g _ _ => some g
  | .mark g _ _ => some g
  | .snap g _ => some g
  | _ => none

/-- !p0 is an illegal guard (R38, R45). -/
def guardBad (i : Instr) : Bool :=
  match i.guard with
  | some g => g.neg && decide (g.p = 0)
  | none => false

/-- The agents that a step of the machine names exist. -/
def eventOk : Instr → Bool
  | .evEventTaken tid => decide (tid < 65536)
  | .evThreadResume tid => decide (tid < 65536)
  | .evLoadResponse tid _ => decide (tid < 65536)
  | .evStorePerformed tid q _ => decide (tid < 65536) && decide (q ≤ 8)
  | .evAtomicAtHome tid q => decide (tid < 65536) && decide (q ≤ 8)
  | .evSyncWordAtHome tid => decide (tid < 65536)
  | .evIcacheFill tid => decide (tid < 65536)
  | .evPageWalk tid => decide (tid < 65536)
  | .evSleepTimeout tid => decide (tid < 65536)
  | .evLongPark tid => decide (tid < 65536)
  | .evAnswerArrival tid => decide (tid < 65536)
  | .evKillArrival tid => decide (tid < 65536)
  | .evDrainComplete tid => decide (tid < 65536)
  | .evHeldRedelivery die _ => decide (die < 2)
  | .evCollectiveComplete spire _ => decide (spire < 160)
  | .evRecordEntry spire region tid => decide (spire < 160) && decide (region < 64) && decide (tid < 65536)
  | .evReturnDelivery spire region tid => decide (spire < 160) && decide (region < 64) && decide (tid < 65536)
  | .evHearthPlace spire region => decide (spire < 160) && decide (region < 64)
  | .evRegionClosed spire region => decide (spire < 160) && decide (region < 64)
  | .evShadowWrite spire region _ _ => decide (spire < 160) && decide (region < 64)
  | .evCellSwap spire region _ _ _ => decide (spire < 160) && decide (region < 64)
  | .evMatrixOpStart spire region => decide (spire < 160) && decide (region < 64)
  | .evRowDrain spire region => decide (spire < 160) && decide (region < 64)
  | .evMatrixHalt spire region => decide (spire < 160) && decide (region < 64)
  | .evElementLand spire ch => decide (spire < 160) && decide (ch < 16)
  | .evCopySignal spire ch => decide (spire < 160) && decide (ch < 16)
  | .evStreamRead spire ctx _ => decide (spire < 160) && decide (ctx < 2)
  | .evSpill spire ctx => decide (spire < 160) && decide (ctx < 2)
  | .evMergeFinish spire ctx => decide (spire < 160) && decide (ctx < 2)
  | .evSetOperation spire ctx => decide (spire < 160) && decide (ctx < 2)
  | .evRegionQuiet spire region => decide (spire < 160) && decide (region < 64)
  | .evCutDone spire region => decide (spire < 160) && decide (region < 64)
  | .evSnapshotLatch spire => decide (spire < 160)
  | .evTraceWrite spire => decide (spire < 160)
  | .evWidxWrite q _ => decide (q < 64)
  | .evQstatErr q => decide (q < 64)
  | .evQstatFault q => decide (q < 64)
  | .evQstatAbort q => decide (q < 64)
  | .evEvrWrite q _ => decide (q < 64)
  | .evRefusedWrite spire region _ => decide (spire < 160) && decide (region < 64)
  | .evNodeStateWrite spire region _ => decide (spire < 160) && decide (region < 64)
  | .evRctlWrite spire region _ => decide (spire < 160) && decide (region < 64)
  | .evBkcfgWrite spire region _ _ => decide (spire < 160) && decide (region < 64)
  | .evRegisterWrite o _ => decide (o < 2 ^ 40)
  | .evLaunch q => decide (q < 64)
  | .evLaunchPlace die => decide (die < 2)
  | .evBind q => decide (q < 64)
  | .evBindInbound spire region _ => decide (spire < 160) && decide (region < 64)
  | .evBindOutbound spire region _ => decide (spire < 160) && decide (region < 64)
  | .evWait q => decide (q < 64)
  | .evSignalStf q => decide (q < 64)
  | .evSignalArrive q => decide (q < 64)
  | .evSignalAadd q => decide (q < 64)
  | .evConfigLoad q => decide (q < 64)
  | .evConfigUnload q => decide (q < 64)
  | .evConfigForce q => decide (q < 64)
  | .evRegion q => decide (q < 64)
  | .evCopy q => decide (q < 64)
  | .evFence q => decide (q < 64)
  | .evCommandComplete q _ => decide (q < 64)
  | .evSeqEnd q _ => decide (q < 64)
  | .evSeqLoad q _ => decide (q < 64)
  | .evSeqSwap q _ => decide (q < 64)
  | .evSeqWaiteos q _ => decide (q < 64)
  | .evSeqWaitc q _ => decide (q < 64)
  | .evSeqSkipc q _ => decide (q < 64)
  | .evSeqPin q _ => decide (q < 64)
  | .evSeqUnpin q _ => decide (q < 64)
  | .evPackageReset die => decide (die < 2)
  | .evAttctlWrite die _ => decide (die < 2)
  | .evAttestationDone die => decide (die < 2)
  | .evMatrixStreamRead spire region => decide (spire < 160) && decide (region < 64)
  | .evMemoryNodeAccessDone spire region _ => decide (spire < 160) && decide (region < 64)
  | _ => true

/-- A well-formed instruction. -/
def wellFormed (i : Instr) : Bool :=
  !guardBad i && !oddPair i && !csrBad i && !csrWritesReadOnly i && eventOk i

end Sys2Proof
end

