-- ==== Sys2Proof/Certificates/Slice0/Obligations.lean ====
section
/-! DEFINITION. What is claimed of the machine: one proposition per obligation. Each docstring names the rules of the spec
that it formalises. -/

open Sys2Proof Sys2Proof.Machine

/-- R94: the results of ALU other than division, and that nothing else changes (R89 to R92).

R96: the W forms work on bits 31:0 and sign-extend the 32-bit result from bit 31. -/
def Obligations.IntegerArithmetic : Prop :=
  (∀ (g : Guard) (d a b : Reg) (s : State), s.guardOk g = true →
  let x := s.getX a
  let y := s.getX b
  let sh := y.toNat % 64
  GivesX (.add g d a b) d (BitVec.ofNat 64 (x.toNat + y.toNat)) s
  ∧ GivesX (.sub g d a b) d (BitVec.ofInt 64 (x.toInt - y.toInt)) s
  ∧ GivesX (.mul g d a b) d (BitVec.ofNat 64 (x.toNat * y.toNat)) s
  ∧ GivesX (.mulh g d a b) d (BitVec.ofInt 64 (x.toInt * y.toInt / 2 ^ 64)) s
  ∧ GivesX (.mulhu g d a b) d (BitVec.ofNat 64 (x.toNat * y.toNat / 2 ^ 64)) s
  ∧ GivesX (.and g d a b) d (x &&& y) s
  ∧ GivesX (.or g d a b) d (x ||| y) s
  ∧ GivesX (.xor g d a b) d (x ^^^ y) s
  ∧ GivesX (.shl g d a b) d (BitVec.ofNat 64 (x.toNat * 2 ^ sh)) s
  ∧ GivesX (.shr g d a b) d (BitVec.ofNat 64 (x.toNat / 2 ^ sh)) s
  ∧ GivesX (.sra g d a b) d (BitVec.ofInt 64 (x.toInt / 2 ^ sh)) s
  ∧ GivesX (.rot g d a b) d (BitVec.ofNat 64 (x.toNat / 2 ^ sh + x.toNat * 2 ^ (64 - sh))) s)
  ∧ (∀ (g : Guard) (d a b : Reg) (s : State), s.guardOk g = true →
  let x := (s.getX a).toNat % 2 ^ 32
  let y := (s.getX b).toNat % 2 ^ 32
  let sh := (s.getX b).toNat % 32
  let sx (n : Nat) : Word := BitVec.ofInt 64 (if n % 2 ^ 32 < 2 ^ 31 then (n % 2 ^ 32 : Nat) else (n % 2 ^ 32 : Nat) - 2 ^ 32)
  GivesX (.addw g d a b) d (sx (x + y)) s
  ∧ GivesX (.subw g d a b) d (sx (2 ^ 32 + x - y)) s
  ∧ GivesX (.mulw g d a b) d (sx (x * y)) s
  ∧ GivesX (.shlw g d a b) d (sx (x * 2 ^ sh)) s
  ∧ GivesX (.shrw g d a b) d (sx (x / 2 ^ sh)) s
  ∧ GivesX (.sraw g d a b) d (BitVec.ofInt 64 ((if x < 2 ^ 31 then (x : Int) else x - 2 ^ 32) / 2 ^ sh)) s)

/-- R94, R95: with R94's quotient and remainder, division by zero, the overflow of −2^63 by −1, and every other case truncated
towards zero with the remainder of the dividend's sign; of a shift or rotate amount only bits 5:0 count (R94's bits for the rotate,
R95's for the shifts), and amount 0 gives X[a]. -/
def Obligations.DivisionCorners : Prop := ∀ (g : Guard) (d a b : Reg) (s : State), s.guardOk g = true →
  let x := s.getX a
  let y := s.getX b
  GivesX (.div g d a b) d
    (if y.toNat = 0 then 0xFFFFFFFFFFFFFFFF else if x.toInt = -2 ^ 63 ∧ y.toInt = -1 then 0x8000000000000000
      else BitVec.ofInt 64 (x.toInt.tdiv y.toInt)) s
  ∧ GivesX (.divu g d a b) d (if y.toNat = 0 then 0xFFFFFFFFFFFFFFFF else BitVec.ofNat 64 (x.toNat / y.toNat)) s
  ∧ GivesX (.rem g d a b) d
    (if y.toNat = 0 then x else if x.toInt = -2 ^ 63 ∧ y.toInt = -1 then 0 else BitVec.ofInt 64 (x.toInt.tmod y.toInt)) s
  ∧ GivesX (.remu g d a b) d (if y.toNat = 0 then x else BitVec.ofNat 64 (x.toNat % y.toNat)) s
  ∧ GivesX (.shl g d a b) d (BitVec.ofNat 64 (x.toNat * 2 ^ (y.toNat % 64))) s
  ∧ GivesX (.shr g d a b) d (BitVec.ofNat 64 (x.toNat / 2 ^ (y.toNat % 64))) s
  ∧ GivesX (.sra g d a b) d (BitVec.ofInt 64 (x.toInt / 2 ^ (y.toNat % 64))) s
  ∧ (y.toNat % 64 = 0 → GivesX (.shl g d a b) d x s ∧ GivesX (.shr g d a b) d x s ∧ GivesX (.sra g d a b) d x s
      ∧ GivesX (.rot g d a b) d x s)

/-- R97: minimum, maximum, absolute value, counts, reversals and extensions, each told by what the result is.

R98 to R101: immediate arithmetic, shifts by a constant, LUI, LIX and scaled addition. -/
def Obligations.BitAndImmediateResults : Prop :=
  (∀ (g : Guard) (d a b : Reg) (s : State), s.guardOk g = true →
  let x := s.getX a
  let y := s.getX b
  GivesX (.min g d a b) d (if x.toInt ≤ y.toInt then x else y) s
  ∧ GivesX (.max g d a b) d (if x.toInt ≤ y.toInt then y else x) s
  ∧ GivesX (.minu g d a b) d (if x.toNat ≤ y.toNat then x else y) s
  ∧ GivesX (.maxu g d a b) d (if x.toNat ≤ y.toNat then y else x) s
  ∧ GivesX (.abs g d a) d (BitVec.ofNat 64 x.toInt.natAbs) s
  ∧ (∃ n, n ≤ 64 ∧ GivesX (.clz g d a) d (BitVec.ofNat 64 n) s ∧ (∀ i, i < n → x.getLsbD (63 - i) = false)
      ∧ (n < 64 → x.getLsbD (63 - n) = true))
  ∧ (∃ n, n ≤ 64 ∧ GivesX (.ctz g d a) d (BitVec.ofNat 64 n) s ∧ (∀ i, i < n → x.getLsbD i = false)
      ∧ (n < 64 → x.getLsbD n = true))
  ∧ GivesX (.popc g d a) d (BitVec.ofNat 64 ((List.range 64).countP (fun i => x.getLsbD i))) s
  ∧ (∃ w : Word, GivesX (.brev g d a) d w s ∧ ∀ i, i < 64 → w.getLsbD i = x.getLsbD (63 - i))
  ∧ (∃ w : Word, GivesX (.bswap g d a) d w s ∧ ∀ i, i < 8 → w.extractLsb' (8 * i) 8 = x.extractLsb' (8 * (7 - i)) 8)
  ∧ GivesX (.sextb g d a) d ((x.setWidth 8).signExtend 64) s
  ∧ GivesX (.sexth g d a) d ((x.setWidth 16).signExtend 64) s
  ∧ GivesX (.sextw g d a) d ((x.setWidth 32).signExtend 64) s
  ∧ GivesX (.zextb g d a) d (BitVec.ofNat 64 (x.toNat % 2 ^ 8)) s
  ∧ GivesX (.zexth g d a) d (BitVec.ofNat 64 (x.toNat % 2 ^ 16)) s
  ∧ GivesX (.zextw g d a) d (BitVec.ofNat 64 (x.toNat % 2 ^ 32)) s)
  ∧ (∀ (g : Guard) (d a b : Reg) (i : BitVec 10) (n : BitVec 6) (u : BitVec 16) (s : State), s.guardOk g = true →
  let x := s.getX a
  let y := s.getX b
  GivesX (.addi g d a i) d (BitVec.ofInt 64 (x.toInt + i.toInt)) s
  ∧ GivesX (.andi g d a i) d (x &&& BitVec.ofInt 64 i.toInt) s
  ∧ GivesX (.ori g d a i) d (x ||| BitVec.ofInt 64 i.toInt) s
  ∧ GivesX (.xori g d a i) d (x ^^^ BitVec.ofInt 64 i.toInt) s
  ∧ GivesX (.shli g d a n) d (BitVec.ofNat 64 (x.toNat * 2 ^ n.toNat)) s
  ∧ GivesX (.shri g d a n) d (BitVec.ofNat 64 (x.toNat / 2 ^ n.toNat)) s
  ∧ GivesX (.srai g d a n) d (BitVec.ofInt 64 (x.toInt / 2 ^ n.toNat)) s
  ∧ GivesX (.roti g d a n) d (BitVec.ofNat 64 (x.toNat / 2 ^ n.toNat + x.toNat * 2 ^ (64 - n.toNat))) s
  ∧ GivesX (.lui g d u) d (BitVec.ofInt 64 (u.toInt * 2 ^ 16)) s
  ∧ GivesX (.lix g d u) d (BitVec.ofNat 64 ((s.getX d).toNat * 2 ^ 16 + u.toNat)) s
  ∧ GivesX (.shadd1 g d a b) d (BitVec.ofNat 64 (x.toNat + y.toNat * 2)) s
  ∧ GivesX (.shadd2 g d a b) d (BitVec.ofNat 64 (x.toNat + y.toNat * 4)) s
  ∧ GivesX (.shadd3 g d a b) d (BitVec.ofNat 64 (x.toNat + y.toNat * 8)) s
  ∧ GivesX (.shadd4 g d a b) d (BitVec.ofNat 64 (x.toNat + y.toNat * 16)) s)

/-- R102, R103: the compares, with a register and with a sign-extended immediate.

R105: predicate logic, PGET and PSET; PSET writes p1 to p7 and nothing else. -/
def Obligations.ComparesAndPredicates : Prop :=
  (∀ (g : Guard) (p : PReg) (a b : Reg) (i : BitVec 10) (s : State), s.guardOk g = true →
  let x := s.getX a
  let y := s.getX b
  let z : Word := BitVec.ofInt 64 i.toInt
  GivesP (.ceq g p a b) p (decide (x.toNat = y.toNat)) s
  ∧ GivesP (.cne g p a b) p (decide (x.toNat ≠ y.toNat)) s
  ∧ GivesP (.clt g p a b) p (decide (x.toInt < y.toInt)) s
  ∧ GivesP (.cltu g p a b) p (decide (x.toNat < y.toNat)) s
  ∧ GivesP (.cle g p a b) p (decide (x.toInt ≤ y.toInt)) s
  ∧ GivesP (.cleu g p a b) p (decide (x.toNat ≤ y.toNat)) s
  ∧ GivesP (.ctst g p a b) p ((List.range 64).any (fun k => x.getLsbD k && y.getLsbD k)) s
  ∧ GivesP (.ceqi g p a i) p (decide (x.toInt = i.toInt)) s
  ∧ GivesP (.cnei g p a i) p (decide (x.toInt ≠ i.toInt)) s
  ∧ GivesP (.clti g p a i) p (decide (x.toInt < i.toInt)) s
  ∧ GivesP (.cltui g p a i) p (decide (x.toNat < z.toNat)) s
  ∧ GivesP (.clei g p a i) p (decide (x.toInt ≤ i.toInt)) s
  ∧ GivesP (.cleui g p a i) p (decide (x.toNat ≤ z.toNat)) s
  ∧ GivesP (.ctsti g p a i) p ((List.range 64).any (fun k => x.getLsbD k && z.getLsbD k)) s)
  ∧ (∀ (g : Guard) (p q r : PReg) (d a : Reg) (s : State), s.guardOk g = true →
  GivesP (.pand g p q r) p (s.getP q && s.getP r) s
  ∧ GivesP (.por g p q r) p (s.getP q || s.getP r) s
  ∧ GivesP (.pxor g p q r) p (s.getP q != s.getP r) s
  ∧ GivesP (.pandn g p q r) p (s.getP q && !s.getP r) s
  ∧ GivesP (.pnot g p q) p (!s.getP q) s
  ∧ GivesP (.pmov g p q) p (s.getP q) s
  ∧ (∃ w : Word, GivesX (.pget g d) d w s
      ∧ ∀ k : Nat, w.getLsbD k = (decide (k = 0) || (decide (k < 8) && s.getP (Fin.ofNat 8 k))))
  ∧ (∃ t, exec (.pset g a) s = .next t
      ∧ (∀ k : PReg, t.getP k = (decide (k = 0) || (s.getX a).getLsbD k.val))
      ∧ t.thr.pc = s.thr.pc + 4 ∧ { t.thr with p := s.thr.p, pc := s.thr.pc } = s.thr
      ∧ SameOthers s t ∧ SameOutside s t ∧ SameBytes s t))

/-- R112, R119: the arithmetic members round the exact result once in FCSR.RM, deliver it zero-extended, and raise the flags of
R110. The exact arithmetic and its rounding are the model's `fAdd`, `fMul`, `fDiv`, `fSqrt` and `fMulAdd`. -/
def Obligations.FloatArithmetic : Prop := ∀ (g : Guard) (d a b : Reg) (s : State), s.guardOk g = true →
  let gives (i : Instr) (r : Nat × Flags) : Prop := GivesFp i d (BitVec.ofNat 64 r.1) r.2 s
  let rm := s.thr.rm
  let x := fp32.decode (s.getX a).toNat
  let y := fp32.decode (s.getX b).toNat
  let c := fp32.decode (s.getX d).toNat
  let x2 := fp64.decode (s.getX a).toNat
  let y2 := fp64.decode (s.getX b).toNat
  let c2 := fp64.decode (s.getX d).toNat
  gives (.faddS g d a b) (fAdd fp32 rm x y) ∧ gives (.faddD g d a b) (fAdd fp64 rm x2 y2)
  ∧ gives (.fsubS g d a b) (fAdd fp32 rm x y.neg) ∧ gives (.fsubD g d a b) (fAdd fp64 rm x2 y2.neg)
  ∧ gives (.fmulS g d a b) (fMul fp32 rm x y) ∧ gives (.fmulD g d a b) (fMul fp64 rm x2 y2)
  ∧ gives (.fdivS g d a b) (fDiv fp32 rm x y) ∧ gives (.fdivD g d a b) (fDiv fp64 rm x2 y2)
  ∧ gives (.fsqrtS g d a) (fSqrt fp32 rm x) ∧ gives (.fsqrtD g d a) (fSqrt fp64 rm x2)
  ∧ gives (.fmacS g d a b) (fMulAdd fp32 rm x y c) ∧ gives (.fmacD g d a b) (fMulAdd fp64 rm x2 y2 c2)
  ∧ gives (.fmscS g d a b) (fMulAdd fp32 rm x y c.neg) ∧ gives (.fmscD g d a b) (fMulAdd fp64 rm x2 y2 c2.neg)
  ∧ gives (.fnmacS g d a b) (fMulAdd fp32 rm x.neg y c) ∧ gives (.fnmacD g d a b) (fMulAdd fp64 rm x2.neg y2 c2)

/-- R113: the special operands of FADD, FSUB, FMUL, FDIV and FSQRT in both formats, row by row. -/
def Obligations.FloatSpecialOperands : Prop := ∀ (g : Guard) (d a b : Reg) (s : State), s.guardOk g = true →
  let rows (f : Fmt) (sign : Nat) (inf nan : Nat) (add sub mul div sqrt : Instr) : Prop :=
    let gives (i : Instr) (w : Nat) (fl : Flags) : Prop := GivesFp i d (BitVec.ofNat 64 w) fl s
    let signed (n : Bool) (w : Nat) : Nat := if n then sign + w else w
    let x := f.decode (s.getX a).toNat
    let y := f.decode (s.getX b).toNat
    let nv := nvIf (x.isSig || y.isSig)
    (x.isNaN || y.isNaN → gives add nan nv ∧ gives sub nan nv ∧ gives mul nan nv ∧ gives div nan nv)
    ∧ (x.isNaN → gives sqrt nan (nvIf x.isSig))
    ∧ (∀ n, x = .inf n →
        (y = .inf (!n) → gives add nan flagNV) ∧ (y = .inf n → gives sub nan flagNV)
        ∧ (y.isInf → gives div nan flagNV)
        ∧ (y.isZero → gives mul nan flagNV)
        ∧ (!y.isNaN → y ≠ .inf (!n) → gives add (signed n inf) 0)
        ∧ (!y.isNaN → y ≠ .inf n → gives sub (signed n inf) 0)
        ∧ (!y.isNaN → !y.isZero → gives mul (signed (n != y.sign) inf) 0)
        ∧ (!y.isNaN → !y.isInf → gives div (signed (n != y.sign) inf) 0)
        ∧ gives sqrt (if n then nan else inf) (nvIf n))
    ∧ (∀ n, y = .inf n → !x.isNaN → !x.isInf →
        gives add (signed n inf) 0 ∧ gives sub (signed (!n) inf) 0
        ∧ gives div (signed (x.sign != n) 0) 0
        ∧ (x.isZero → gives mul nan flagNV) ∧ (!x.isZero → gives mul (signed (x.sign != n) inf) 0))
    ∧ (!x.isNaN → !x.isInf → !y.isNaN → !y.isInf →
        (y.isZero → gives div (if x.isZero then nan else signed (x.sign != y.sign) inf) (if x.isZero then flagNV else flagDZ))
        ∧ (x.isZero → !y.isZero → gives div (signed (x.sign != y.sign) 0) 0)
        ∧ (x.isZero → gives sqrt (signed x.sign 0) 0) ∧ (!x.isZero → x.sign → gives sqrt nan flagNV))
  rows fp32 0x80000000 0x7F800000 0x7FC00000 (.faddS g d a b) (.fsubS g d a b) (.fmulS g d a b) (.fdivS g d a b) (.fsqrtS g d a)
  ∧ rows fp64 0x8000000000000000 0x7FF0000000000000 0x7FF8000000000000
      (.faddD g d a b) (.fsubD g d a b) (.fmulD g d a b) (.fdivD g d a b) (.fsqrtD g d a)

/-- R114 to R116: FMIN and FMAX, the sign operations, and FCLASS, in both formats.

R120: the compares by the values of their sources, in both formats; NV and the trap it may cause. -/
def Obligations.FloatSelectionsAndCompares : Prop :=
  (∀ (g : Guard) (d a b : Reg) (s : State), s.guardOk g = true →
  let rows (f : Fmt) (sign nan : Nat) (min max abs neg cpys cls : Instr) : Prop :=
    let gives (i : Instr) (w : Nat) (fl : Flags) : Prop := GivesFp i d (BitVec.ofNat 64 w) fl s
    let u := (s.getX a).toNat % (2 * sign)
    let v := (s.getX b).toNat % (2 * sign)
    let x := f.decode u
    let y := f.decode v
    let two := nvIf (x.isSig || y.isSig)
    (x.isNaN → y.isNaN → gives min nan two ∧ gives max nan two)
    ∧ (x.isNaN → !y.isNaN → gives min v two ∧ gives max v two)
    ∧ (!x.isNaN → y.isNaN → gives min u two ∧ gives max u two)
    ∧ (x.below y || (x.same y && (x.sign || !y.sign)) → gives min u two ∧ gives max v two)
    ∧ (y.below x || (x.same y && (y.sign || !x.sign)) → gives min v two ∧ gives max u two)
    ∧ gives abs (if x.isNaN then nan else u % sign) (nvIf x.isSig)
    ∧ gives neg (if x.isNaN then nan else if u < sign then u + sign else u - sign) (nvIf x.isSig)
    ∧ gives cpys (if x.isNaN then nan else if v < sign then u % sign else sign + u % sign) two
    ∧ (∃ whole : Bool, ∃ kind : Nat, gives cls ((if whole then 16 else 0) + 2 * kind + (if u < sign then 0 else 1)) (nvIf x.isSig)
        ∧ (whole = true ↔ ∃ n m e, x = .fin n m e ∧ (0 ≤ e ∨ 2 ^ (-e).toNat ∣ m))
        ∧ kind = (match x with
          | .nan sig => if sig then 5 else 4
          | .inf _ => 3
          | .fin _ m _ => if m = 0 then 0 else if m < 2 ^ f.mant then 1 else 2))
  rows fp32 (2 ^ 31) 0x7FC00000 (.fminS g d a b) (.fmaxS g d a b) (.fabsS g d a) (.fnegS g d a) (.fcpysS g d a b) (.fclassS g d a)
  ∧ rows fp64 (2 ^ 63) 0x7FF8000000000000
      (.fminD g d a b) (.fmaxD g d a b) (.fabsD g d a) (.fnegD g d a) (.fcpysD g d a b) (.fclassD g d a))
  ∧ (∀ (g : Guard) (p : PReg) (a b : Reg) (s : State), s.guardOk g = true →
  let rows (f : Fmt) (eq lt le un : Instr) : Prop :=
    let x := f.decode (s.getX a).toNat
    let y := f.decode (s.getX b).toNat
    let anySig := nvIf (x.isSig || y.isSig)
    let anyNaN := nvIf (x.isNaN || y.isNaN)
    GivesFpP eq p (x.same y) anySig s
    ∧ GivesFpP lt p (x.below y) anyNaN s
    ∧ GivesFpP le p (x.below y || x.same y) anyNaN s
    ∧ GivesFpP un p (x.isNaN || y.isNaN) anySig s
  rows fp32 (.fceqS g p a b) (.fcltS g p a b) (.fcleS g p a b) (.fcunS g p a b)
  ∧ rows fp64 (.fceqD g p a b) (.fcltD g p a b) (.fcleD g p a b) (.fcunD g p a b))

/-- R117, R118: the approximations complete with the model's nearest value, and their special operands give what R118's table
says (its FRCP overflow row apart); the sign of FTANH.S of a zero and the +0 of FLOG2.S of 1 are the model's choice (log 95).

R121, R122: the conversions: narrowing saturates in FCSR.RM (R82), widening is exact, integers are extended as the table
says; the +0 of an integer 0 in every mode is the model's choice (log 95).

Where the rules leave the form open it is the model's: log 95. -/
def Obligations.FloatApproximationsAndConversions : Prop :=
  (∀ (g : Guard) (d a : Reg) (s : State), s.guardOk g = true →
  let gives (i : Instr) (w : Nat) (fl : Flags) : Prop := GivesFp i d (BitVec.ofNat 64 w) fl s
  let x := fp32.decode (s.getX a).toNat
  let nan := 0x7FC00000
  let inf := 0x7F800000
  let one := 0x3F800000
  let signed (n : Bool) (w : Nat) : Nat := if n then 0x80000000 + w else w
  gives (.frcpS g d a) (fRcp x).1 (fRcp x).2
  ∧ gives (.frsqS g d a) (fRsq x).1 (fRsq x).2
  ∧ gives (.fexp2S g d a) (fExp2 x).1 (fExp2 x).2
  ∧ gives (.flog2S g d a) (fLog2 x).1 (fLog2 x).2
  ∧ gives (.ftanhS g d a) (fTanh x).1 (fTanh x).2
  ∧ (x.isNaN → gives (.frcpS g d a) nan (nvIf x.isSig) ∧ gives (.frsqS g d a) nan (nvIf x.isSig)
      ∧ gives (.fexp2S g d a) nan (nvIf x.isSig) ∧ gives (.flog2S g d a) nan (nvIf x.isSig)
      ∧ gives (.ftanhS g d a) nan (nvIf x.isSig))
  ∧ (x.isZero → gives (.frcpS g d a) (signed x.sign inf) flagDZ ∧ gives (.frsqS g d a) (signed x.sign inf) flagDZ
      ∧ gives (.flog2S g d a) (signed true inf) flagDZ ∧ gives (.fexp2S g d a) one 0 ∧ gives (.ftanhS g d a) (signed x.sign 0) 0)
  ∧ (x.isInf → gives (.frcpS g d a) (signed x.sign 0) 0 ∧ gives (.ftanhS g d a) (signed x.sign one) 0
      ∧ gives (.fexp2S g d a) (if x.sign then 0 else inf) 0)
  ∧ (x = .inf false → gives (.frsqS g d a) 0 0 ∧ gives (.flog2S g d a) inf 0)
  ∧ (!x.isNaN → !x.isZero → x.sign → gives (.frsqS g d a) nan flagNV ∧ gives (.flog2S g d a) nan flagNV)
  ∧ (∀ n m e, x = .fin n m e →
      (n = false → 128 * 2 ^ (-e).toNat ≤ m * 2 ^ e.toNat → gives (.fexp2S g d a) inf (flagOF ||| flagNX))
      ∧ (n = true → 150 * 2 ^ (-e).toNat ≤ m * 2 ^ e.toNat → gives (.fexp2S g d a) 0 (flagUF ||| flagNX))
      ∧ (16 * 2 ^ (-e).toNat ≤ m * 2 ^ e.toNat → gives (.ftanhS g d a) (signed n one) flagNX)))
  ∧ (∀ (g : Guard) (d a : Reg) (s : State), s.guardOk g = true →
  let rm := s.thr.rm
  let w := (s.getX a).toNat
  let gives (i : Instr) (r : Nat × Flags) : Prop := GivesFp i d (BitVec.ofNat 64 r.1) r.2 s
  let whole (i : Instr) (r : Int × Flags) : Prop := GivesFp i d (BitVec.ofInt 64 r.1) r.2 s
  gives (.cvtSD g d a) (fp32.narrow rm (fp64.decode w)) ∧ gives (.cvtDS g d a) (fp64.widen (fp32.decode w))
  ∧ gives (.cvtSH g d a) (fp32.widen (fp16.decode w)) ∧ gives (.cvtHS g d a) (fp16.narrow rm (fp32.decode w))
  ∧ gives (.cvtSBf g d a) (fp32.widen (bf16.decode w)) ∧ gives (.cvtBfS g d a) (bf16.narrow rm (fp32.decode w))
  ∧ gives (.cvtSE4 g d a) (fp32.widen (e4m3.decode w)) ∧ gives (.cvtE4S g d a) (e4m3.narrow rm (fp32.decode w))
  ∧ gives (.cvtSE5 g d a) (fp32.widen (e5m2.decode w)) ∧ gives (.cvtE5S g d a) (e5m2.narrow rm (fp32.decode w))
  ∧ whole (.cvtWS g d a) (narrowInt (-2 ^ 31) (2 ^ 31 - 1) rm (fp32.decode w))
  ∧ whole (.cvtWuS g d a) (narrowInt 0 (2 ^ 32 - 1) rm (fp32.decode w))
  ∧ whole (.cvtLD g d a) (narrowInt (-2 ^ 63) (2 ^ 63 - 1) rm (fp64.decode w))
  ∧ gives (.cvtSW g d a) (fp32.deliver rm (.ofInt ((s.getX a).setWidth 32).toInt))
  ∧ gives (.cvtSWu g d a) (fp32.deliver rm (.ofInt (w % 2 ^ 32 : Nat)))
  ∧ gives (.cvtDL g d a) (fp64.deliver rm (.ofInt (s.getX a).toInt)))

/-- R77, for the step that every rounding goes through: m × 2^e as a multiple n of 2^q, with what each mode demands of n.

R66, R67, R121: a code that is no NaN stands for a value that its own format and every mode deliver back as that code, with
no flag; so does a wider format after a widening conversion. -/
def Obligations.RoundingAndCodes : Prop :=
  (∀ (neg : Bool) (m : Nat) (e q : Int),
  let r (mode : RMode) : Nat := (roundAt mode neg m e q).1
  (q ≤ e → ∀ mode, roundAt mode neg m e q = (m * 2 ^ (e - q).toNat, false))
  ∧ (e < q →
      let k := 2 ^ (q - e).toNat
      let below (n : Nat) : Prop := n * k ≤ m ∧ m < (n + 1) * k
      let above (n : Nat) : Prop := m ≤ n * k ∧ n * k < m + k
      (∀ mode, (roundAt mode neg m e q).2 = decide (¬ k ∣ m))
      ∧ below (r .rtz) ∧ (if neg then below (r .rup) else above (r .rup)) ∧ (if neg then above (r .rdn) else below (r .rdn))
      ∧ (∀ mode, mode = .rne ∨ mode = .rna → 2 * m ≤ (2 * r mode + 1) * k ∧ 2 * (r mode * k) ≤ 2 * m + k)
      ∧ (∀ n, 2 * m = (2 * n + 1) * k → r .rna = n + 1 ∧ r .rne = n + n % 2)))
  ∧ ((∀ f ∈ [fp64, fp32, fp16, bf16, e5m2, e4m3], ∀ (mode : RMode) (b : Nat), b < 2 ^ f.width → (f.decode b).isNaN = false →
    (f.ieee = true ∨ (f.decode b).isInf = false) → f.deliver mode (f.decode b) = (b, 0) ∧ f.narrow mode (f.decode b) = (b, 0))
  ∧ (∀ (b : Nat) (mode : RMode), b < 2 ^ 32 → (fp32.decode b).isNaN = false →
      fp32.narrow mode (fp64.decode (fp64.widen (fp32.decode b)).1) = (b, 0))
  ∧ (∀ f ∈ [fp16, bf16, e5m2, e4m3], ∀ (mode : RMode) (b : Nat), b < 2 ^ f.width → (f.decode b).isNaN = false →
      f.narrow mode (fp32.decode (fp32.widen (f.decode b)).1) = (b, 0)))

/-- R38: an instruction whose guard is false advances the pc by 4 and changes nothing else, whatever the instruction; a privileged
one needs its privilege first (R45). -/
def Obligations.FalseGuard : Prop := ∀ (i : Instr) (g : Guard) (s : State), i.guard = some g → s.guardOk g = false →
  (privileged i = true → s.thr.prv ≠ .user) → ∃ t, exec i s = .next t ∧ OnlyPc (s.thr.pc + 4) s t

/-- R45, R358: at user privilege a privileged instruction traps PRIV with TSUB 0 and its word, whatever its guard holds.

R45: a word that fails a decoding check traps ILLEGAL with the code of the first check it fails and the word; not in a held
thread. The checks in their order are those of the codes 7 (all bits one), 1 (a reserved major), 3 (a guard that negates p0), 2 (an
unassigned funct or condition), 5 (a scope or size code, a CSR number), 4 (bits that must be zero, a write to a read-only CSR) and 6
(a pair at an odd register); a word that fails none decodes.

Where the rules leave the form open it is the model's: log 13. -/
def Obligations.DecodingTraps : Prop :=
  (∀ (w : BitVec 32) (i : Instr) (s : State), decode w = .ok i → privileged i = true →
  s.thr.prv = .user → TrapsWith i .priv 0 (w.setWidth 64) s)
  ∧ (∀ (w : BitVec 32) (sub : Nat) (s : State),
  (decode w = .error sub ↔ [7, 1, 3, 2, 5, 4, 6].find? (failsCheck w.toNat) = some sub)
  ∧ (decode w = .error sub →
  (∃ t, runWord w s = .next t ∧ (s.thr.nest = false → s.thr.held = false → Traps .illegal (BitVec.ofNat 64 sub) (w.setWidth 64) (s.issuing none) t))
  ∧ sub ∈ [1, 2, 3, 4, 5, 6, 7]
  ∧ (sub = 7 ↔ w = 0xFFFFFFFF#32)
  ∧ (sub = 1 ↔ w ≠ 0xFFFFFFFF#32 ∧ majorReserved (w.toNat / 2 ^ 22 % 64) = true)
  ∧ (sub = 3 ↔ majorReserved (w.toNat / 2 ^ 22 % 64) = false ∧ w.toNat / 2 ^ 28 = 8)))

/-- R140, R141, R125, R126: NOP, the two counts, the handle and the work index.

R142, R36: BR, CALL and JALR; a JALR to a target that is no multiple of 4 traps ALIGN with TVAL the target and no link. -/
def Obligations.CountersAndControlTransfer : Prop :=
  (∀ (g : Guard) (d : Reg) (s : State), s.guardOk g = true → s.tid < 65536 →
  (∃ t, exec (.nop g) s = .next t ∧ OnlyPc (s.thr.pc + 4) s t)
  ∧ GivesX (.rdcyc g d) d (BitVec.ofNat 64 (16 * s.turnOf (tidSpire s.tid) + s.tid % 16)) s
  ∧ GivesX (.rdtime g d) d (BitVec.ofNat 64 (s.now * 4 / 5)) s
  ∧ GivesX (.tid g d) d (BitVec.ofNat 64 (s.thr.gen.toNat * 65536 + s.tid)) s
  ∧ GivesX (.gtid g d) d (BitVec.ofNat 64 s.thr.work.toNat) s)
  ∧ (∀ (g : Guard) (d a : Reg) (o : BitVec 22) (i : BitVec 10) (s : State), s.guardOk g = true →
  let target := BitVec.ofInt 64 (s.thr.pc.toInt + o.toInt * 4)
  let jump := BitVec.ofInt 64 ((s.getX a).toInt + i.toInt * 4)
  (∃ t, exec (.br g o) s = .next t ∧ OnlyPc target s t)
  ∧ (∃ t, exec (.call g o) s = .next t ∧ Links 63 target s t)
  ∧ (jump.toNat % 4 = 0 → ∃ t, exec (.jalr g d a i) s = .next t ∧ Links d jump s t)
  ∧ (jump.toNat % 4 ≠ 0 → TrapsWith (.jalr g d a i) .align 1 jump s))

/-- R364, R365, R362, R378: EBRK and ECALL trap at their own address; TRET restores the privilege and the pc and clears NEST; a trap
taken with NEST set holds the thread, leaves the trap CSRs and sends a DOUBLE_TRAP event; that of a thread in HOLD waits for its
release. -/
def Obligations.TrapAndReturn : Prop := ∀ (g : Guard) (s : State), s.guardOk g = true →
  TrapsWith (.ebrk g) .ebrk 0 0 s ∧ TrapsWith (.ecall g) .ecall 0 0 s
  ∧ (s.thr.prv ≠ .user → ∃ t, exec (.tret g) s = .next t
      ∧ t.thr = { s.thr with prv := s.thr.pprv, nest := false, pc := s.thr.tepc }
      ∧ SameOthers s t ∧ SameOutside s t ∧ SameBytes s t)
  ∧ (s.thr.nest = true → s.thr.held = false → ∀ i c, (i = Instr.ebrk g ∧ c = Cause.ebrk) ∨ (i = Instr.ecall g ∧ c = Cause.ecall) →
      exec i s = .next ((s.setThr { s.thr with held := true, st := .run, park := none }).post
        ⟨5, (s.die (tidDie s.tid)).evq.toNat, tidDie s.tid, c.code, (s.thr.handle s.tid).setWidth 64, s.thr.pc, 0, 0⟩))
  ∧ (s.thr.held = true → ∀ i c, (i = Instr.ebrk g ∧ c = Cause.ebrk) ∨ (i = Instr.ecall g ∧ c = Cause.ecall) →
      exec i s = .next (s.setThr { s.thr with st := .run, park := none, trapDue := some (c, 0, 0, 0) }))

/-- R145, R146, R159, R315, R319, R338: EXIT, KILL of the thread itself and the end of a drained thread: the slot is FREE, or will be
at the turn's end, with its registers as they were and no inbox, event, poison or SENDST; no context, staging shape is left
to the thread, nor, as the model reads R159 (log 41), a message or answer that its lantern held; the exit counts towards its LAUNCH. Stated for a thread in no group, with nothing waiting at its core (and, for
the LAUNCH, an empty store queue).

R147, R138, R139, R125: SPAWN: the misaligned entry, the bad control word, no FREE slot, and the thread that starts: the lowest FREE
slot of the first core tried, its generation, its registers and what it takes from its parent, its empty inbox, and its first cycle: no
earlier than the next turn, one claim of a core each cycle from the cycle of the SPAWN on. Stated with an empty store queue.

Where the rules leave the form open it is the model's: log 16, 41, 52, 78. -/
def Obligations.ThreadsBeginAndEnd : Prop :=
  (∀ (g : Guard) (d a : Reg) (s : State) (i : Instr),
  let h := s.thr.handle s.tid
  let sp := tidSpire s.tid
  (i = .exit g ∧ s.guardOk g = true)
      ∨ (i = .kill g d a ∧ s.guardOk g = true ∧ s.getX a = h.setWidth 64 ∧ tidValid s.tid = true)
      ∨ (i = .evDrainComplete s.tid ∧ s.thr.st = .drain ∧ s.thr.park = none ∧ s.thr.queue = []) →
  s.tid < 65536 → (s.core (tidCoreKey s.tid)).waiting = [] → (∀ e ∈ (s.spire sp).groups, e.2.indexOf h = none) →
  (s.thr.launch ≠ none → s.thr.queue = []) →
  ∃ t, exec i s = .next t
    ∧ t.thr = { s.thr with
        st := if i = .evDrainComplete s.tid then .free else .ended
        held := false, park := none, inbox := none, events := [], poison := none, trapDue := none, launch := none
        drops := 0, sBad := false, sRef := false, sStale := false }
    ∧ SameOthers s t ∧ SameBytes s t
    ∧ (∀ c ∈ (t.spire sp).ctxs, c.owner ≠ some h) ∧ (∀ c ∈ (t.spire sp).channels, c.owner ≠ some h)
    ∧ (∀ u, u ≠ sp → t.spire u = s.spire u)
    ∧ (∀ q idx, s.thr.launch = some (q, idx) → (t.queue q).cmds = (s.queue q).cmds.map (fun c =>
        match c.work with
        | .launch placed n args => if c.idx.toNat = idx then { c with work := .launch placed (n + 1) args } else c
        | _ => c))
    ∧ (s.thr.launch = none → t.queues = s.queues)
    ∧ (t.die (tidDie s.tid)).holding = (s.die (tidDie s.tid)).holding.filter (fun e => match e with
        | .msg k _ | .answer k _ => decide (k ≠ h))
    ∧ { t.die (tidDie s.tid) with holding := (s.die (tidDie s.tid)).holding } = s.die (tidDie s.tid)
    ∧ t.die (1 - tidDie s.tid) = s.die (1 - tidDie s.tid)
    ∧ { t with slots := s.slots, spires := s.spires, cores := s.cores, queues := s.queues, die0 := s.die0, die1 := s.die1 } = s)
  ∧ (∀ (g : Guard) (d a b : Reg) (s : State), s.guardOk g = true → s.thr.queue = [] →
  s.thr.st ≠ .free → tidValid s.tid = true →
  let entry := s.getX a
  let ctl := (s.getX b).toNat
  let mode := ctl / 16 % 4
  let cores : List Nat := if mode = 0 then [s.tid / 16 % 16] else if mode = 1 then List.range 16 else [ctl % 16]
  let slots : List Nat := cores.flatMap (fun c => (List.range 16).map (fun k => s.tid / 256 * 256 + c * 16 + k))
  let free (u : Nat) : Bool := decide ((s.slot u).st = .free)
  (entry.toNat % 4 ≠ 0 → TrapsWith (.spawn g d a b) .align 1 entry s)
  ∧ (entry.toNat % 4 = 0 → (ctl / 64 % 2 ^ 26 ≠ 0 ∨ mode = 3) → GivesX (.spawn g d a b) d (-2) s)
  ∧ (entry.toNat % 4 = 0 → ctl / 64 % 2 ^ 26 = 0 → mode ≠ 3 → slots.find? free = none → GivesX (.spawn g d a b) d (-1) s)
  ∧ (∀ u, entry.toNat % 4 = 0 → ctl / 64 % 2 ^ 26 = 0 → mode ≠ 3 → slots.find? free = some u →
      ∃ t, exec (.spawn g d a b) s = .next t
        ∧ t.getX d = (if d = 0 then 0 else ((t.slot u).handle u).setWidth 64)
        ∧ (∀ r, r ≠ d → t.getX r = s.getX r) ∧ { t.thr with x := s.thr.x, pc := s.thr.pc } = s.thr
        ∧ t.thr.pc = s.thr.pc + 4
        ∧ (t.slot u).st = .run ∧ (t.slot u).pc = entry ∧ (t.slot u).work.toNat = ctl / 2 ^ 32
        ∧ (∀ r : Reg, (t.slot u).getX r = if 1 ≤ r.val ∧ r.val ≤ 8 then s.getX r else 0)
        ∧ (∀ p : PReg, (t.slot u).getP p = decide (p = 0))
        ∧ (t.slot u).rm = s.thr.rm ∧ (t.slot u).en = s.thr.en ∧ (t.slot u).fl = 0
        ∧ (t.slot u).asid = s.thr.asid ∧ (t.slot u).ptbr = s.thr.ptbr ∧ (t.slot u).kwin = s.thr.kwin
        ∧ (t.slot u).tvec = s.thr.tvec ∧ (t.slot u).prv = s.thr.prv ∧ (t.slot u).nest = false
        ∧ ((∀ e ∈ (s.die (tidDie u)).absent, e.handle ≠ handleOf u ((s.slot u).gen + 1)) →
            (t.slot u).gen = (s.slot u).gen + 1)
        ∧ (t.slot u).queue = (s.slot u).queue
        ∧ (t.slot u).inbox = none ∧ (t.slot u).held = false ∧ (t.slot u).park = none
        ∧ (t.slot u).wake = max ((s.now / 16 + 1) * 16) (s.core (tidCoreKey u)).claim
        ∧ t.core (tidCoreKey u) = { s.core (tidCoreKey u) with claim := max s.now (s.core (tidCoreKey u)).claim + 1 }
        ∧ (∀ c, c ≠ tidCoreKey u → t.core c = s.core c)
        ∧ (∀ v, v ≠ s.tid → v ≠ u → t.slot v = s.slot v) ∧ { t with slots := s.slots, cores := s.cores } = s ∧ SameBytes s t))

/-- R148: SLEEP takes the word of a full inbox at once, otherwise parks with its limit; the limit ends the park with P[N] false and
X[d] as it was. Stated with nothing waiting at the core.

R127, R129, R130, R135, R153, R362: a waiting event is taken as a trap at the thread's boundary; a park whose reason has cleared ends,
a SEND that waited for its core's outbound queue being sent with no other issue; a park that reaches the watchdog's limit is reported
and goes on.

Where the rules leave the form open it is the model's: log 14, 15. -/
def Obligations.SleepAndEvents : Prop :=
  (∀ (g : Guard) (d a : Reg) (p : PReg) (s : State),
  let n := (s.getX a).toNat
  let turn := s.turnOf (tidSpire s.tid)
  (s.guardOk g = true → s.thr.inbox = none →
    ∃ t, exec (.sleep g d a p) s = .next t ∧ Parks .sleep (.sleep d p (if n = 0 then none else some (turn + n))) s t)
  ∧ (∀ w, s.guardOk g = true → s.thr.inbox = some w → s.thr.st = .run → s.thr.park = none →
      (s.core (tidCoreKey s.tid)).waiting = [] →
      ∃ t, exec (.sleep g d a p) s = .next t
        ∧ t.getX d = (if d = 0 then 0 else w) ∧ (∀ r, r ≠ d → t.getX r = s.getX r)
        ∧ t.getP p = true ∧ (∀ q, q ≠ p → t.getP q = s.getP q)
        ∧ t.thr.inbox = none ∧ t.thr.pc = s.thr.pc + 4
        ∧ { t.thr with x := s.thr.x, p := s.thr.p, pc := s.thr.pc, inbox := s.thr.inbox } = s.thr
        ∧ SameOthers s t ∧ SameBytes s t
        ∧ { t with slots := s.slots, spires := s.spires, cores := s.cores } = s)
  ∧ (∀ u limit since raised ser, (s.slot u).park = some ⟨.sleep, .sleep d p (some limit), since, raised, ser⟩ →
      (s.slot u).inbox = none → limit ≤ s.turnOf (tidSpire u) →
      exec (.evSleepTimeout u) s = .next (s.setSlot u { (s.slot u).setP p false with
        st := .run, park := none, pc := (s.slot u).pc + 4 })))
  ∧ (∀ (u : Nat) (s : State),
  let v := s.slot u
  (∀ e rest, v.st = .run → v.held = false → v.trapDue = none → v.poison = none → v.events = e :: rest → v.nest = false →
    exec (.evEventTaken u) s = .next (s.setSlot u { v with
      events := rest, park := none, tepc := codeAddr v.pc, tcause := BitVec.ofNat 8 e.cause.code, tsub := e.sub, tval := e.val
      tnode := 0, pprv := v.prv, prv := (if v.prv = .user then .kernel else v.prv), nest := true, pc := v.tvec }))
  ∧ (∀ r d w since raised ser, v.st = .park → v.park = some ⟨r, .finish .now d w, since, raised, ser⟩ →
      exec (.evThreadResume u) s = .next (s.setSlot u { v.setX d w with st := .run, park := none, pc := v.pc + 4 }))
  ∧ (∀ r since raised ser, v.st = .park → v.park = some ⟨r, .wait .drained, since, raised, ser⟩ → v.queue ≠ [] →
      exec (.evThreadResume u) s = .next s)
  ∧ (∀ g a b since raised ser, v.st = .park → v.park = some ⟨.send, .wait .outRoom, since, raised, ser⟩ → v.ins = some (.send g a b) →
      (v.getP g.p != g.neg) = true → v.queue = [] → s.outbound (tidCoreKey u) < 8 →
      (v.getX a).toNat < 2 ^ 24 → tidValid ((v.getX a).toNat % 65536) = true → tidSpire ((v.getX a).toNat % 65536) = tidSpire u →
      (v.getX b).toNat = 1 →
      ∃ t, exec (.evThreadResume u) s = .next t
        ∧ t.net = s.net ++ [⟨v.handle u, v.asid, v.getX a, [v.getX 1], false⟩]
        ∧ t.slot u = { v with st := .run, park := none, pc := v.pc + 4 } ∧ (∀ w, w ≠ u → t.slot w = s.slot w)
        ∧ { t with slots := s.slots, net := s.net } = s)
  ∧ (∀ k, v.st = .park → v.park = some k → v.wLimit.toNat ≠ 0 → k.raised = false → (v.wSlp = true ∨ k.reason ≠ .sleep) →
      k.since + v.wLimit.toNat ≤ s.turnOf (tidSpire u) →
      exec (.evLongPark u) s = .next ((s.setSlot u { v with wFired := true, park := some { k with raised := true } }).post
        ⟨4, (s.die (tidDie u)).evq.toNat, tidDie u, k.reason.code, (v.handle u).setWidth 64, v.pc, v.wLimit.setWidth 64, 0⟩)))

/-- R152, R153, R155, R156: SEND and SENDW: a bad message is counted in SENDST or answered with 3; a full outbound queue parks;
otherwise the message is enqueued with the registers as they are, and SENDW waits for its answer. Stated with an empty store
queue; nothing else changes where the destination lies in the same spire.

R154, R155, R157, R158: what becomes of the first message on its way, with none of its sender before it, none waiting at its
core and none held for its thread: into the inbox, refused, stale, or a handler thread in the lowest FREE slot.

Where the rules leave the form open it is the model's: log 14, 41, 52. -/
def Obligations.MessagesSentAndReceived : Prop :=
  (∀ (g : Guard) (d a b : Reg) (s : State), s.guardOk g = true → s.thr.queue = [] →
  let dst := (s.getX a).toNat
  let n := (s.getX b).toNat % 16
  let thread := dst < 2 ^ 24 ∧ tidValid (dst % 65536) = true ∧ n = 1
  let port := dst / 2 ^ 62 = 1 ∧ dst % 2 ^ 62 < 65536 ∧ dst % 16 < 4 ∧ tidValid (dst % 65536) = true ∧ 1 ≤ n ∧ n ≤ 8
  let good := (s.getX b).toNat < 16 ∧ (thread ∨ port)
  let core := tidCoreKey s.tid
  let args := (List.range n).map (fun k => s.getX (Fin.ofNat 64 (k + 1)))
  let msg (wait : Bool) : Msg := ⟨s.thr.handle s.tid, s.thr.asid, s.getX a, args, wait⟩
  (¬ good → GivesX (.sendw g d a b) d 3 s
    ∧ ∃ t, exec (.send g a b) s = .next t
      ∧ t.thr = { s.thr with
          pc := s.thr.pc + 4, sBad := true
          drops := if s.thr.drops.toNat = 255 then s.thr.drops else s.thr.drops + 1 }
      ∧ SameOthers s t ∧ SameOutside s t)
  ∧ (good → 8 ≤ s.outbound core →
      (∃ t, exec (.send g a b) s = .next t ∧ Parks .send (.wait .outRoom) s t)
      ∧ (∃ t, exec (.sendw g d a b) s = .next t ∧ Parks .send (.wait .outRoom) s t))
  ∧ (good → s.outbound core < 8 →
      (∃ t, exec (.send g a b) s = .next t ∧ t.net = s.net ++ [msg false]
        ∧ t.thr = { s.thr with pc := s.thr.pc + 4 } ∧ SameOthers s t
        ∧ (tidSpire (dst % 65536) = tidSpire s.tid → { t with slots := s.slots, net := s.net } = s))
      ∧ (∃ t, exec (.sendw g d a b) s = .next t ∧ t.net = s.net ++ [msg true]
        ∧ t.thr.st = .park ∧ (∃ k, t.thr.park = some k ∧ k.reason = .send ∧ k.op = .answer d)
        ∧ { t.thr with st := s.thr.st, park := s.thr.park } = s.thr ∧ SameOthers s t
        ∧ (tidSpire (dst % 65536) = tidSpire s.tid → { t with slots := s.slots, net := s.net } = s))))
  ∧ (∀ (m : Msg) (rest : List Msg) (s : State), s.net = m :: rest →
  let dest := (m.dst.toNat % 65536 : Nat)
  let thread := m.dst.toNat < 2 ^ 24 ∧ tidValid dest = true
  let port := m.dst.toNat / 2 ^ 62 = 1 ∧ m.dst.toNat % 2 ^ 62 < 65536 ∧ dest % 16 < 4 ∧ tidValid dest = true
  let h : BitVec 24 := m.dst.setWidth 24
  let core := s.core (tidCoreKey dest)
  core.waiting = [] →
  (thread → s.isAbsent h = false → (s.slot dest).st = .run ∨ (s.slot dest).st = .park → (s.slot dest).gen = handleGen h →
      (s.slot dest).inbox = none → (∀ w, Held.msg h w ∉ (s.die (tidDie dest)).holding) → m.wait = true →
      exec (.evMessageArrival 0) s = .next { s.setSlot dest { s.slot dest with inbox := some (m.data.getD 0 0) } with
        net := rest, answers := s.answers ++ [⟨handleTid m.src, handleGen m.src, 0⟩] })
  ∧ (thread → s.isAbsent h = false → ((s.slot dest).st = .free ∨ (s.slot dest).st = .drain ∨ (s.slot dest).st = .ended ∨ (s.slot dest).gen ≠ handleGen h) →
      m.wait = true → ∃ t, exec (.evMessageArrival 0) s = .next t ∧ t.net = rest
        ∧ t.answers = s.answers ++ [⟨handleTid m.src, handleGen m.src, 1⟩] ∧ t.slots = s.slots ∧ SameBytes s t)
  ∧ (port → (core.ports[dest % 4]'(Nat.mod_lt _ (by decide)) = none) → m.wait = true →
      exec (.evMessageArrival 0) s = .next { s with
        net := rest, answers := s.answers ++ [⟨handleTid m.src, handleGen m.src, 2⟩] })
  ∧ (∀ b u, port → (core.ports[dest % 4]'(Nat.mod_lt _ (by decide)) = some b) → b.asid = m.asid → m.wait = true →
      ((List.range 16).map (fun k => dest / 16 * 16 + k)).find? (fun v => decide ((s.slot v).st = .free)) = some u →
      ∃ t, exec (.evMessageArrival 0) s = .next t ∧ t.net = rest
        ∧ t.answers = s.answers ++ [⟨handleTid m.src, handleGen m.src, 0⟩]
        ∧ (t.slot u).st = .run ∧ (t.slot u).pc = b.entry ∧ (t.slot u).work.toNat = m.src.toNat
        ∧ (∀ r : Reg, (t.slot u).getX r = if r.val = 0 then 0 else m.data.getD (r.val - 1) 0)
        ∧ (t.slot u).asid = b.asid ∧ (t.slot u).ptbr = b.ptbr ∧ (t.slot u).kwin = b.kwin ∧ (t.slot u).tvec = b.tvec
        ∧ (t.slot u).prv = b.prv ∧ (t.slot u).fl = 0 ∧ (∀ v, v ≠ u → t.slot v = s.slot v) ∧ SameBytes s t))

/-- R150, R155, R159: the answer to a SENDW or a KILL; a kill at its target's spire; a word held for a restored thread.

R157: HBIND and HUNBIND by their tables, with nothing waiting at the core.

Where the rules leave the form open it is the model's: log 14, 16, 41. -/
def Obligations.AnswersKillsAndPorts : Prop :=
  (∀ (s : State),
  (∀ g d a, s.guardOk g = true →
    ((s.getX a).toNat ≥ 2 ^ 24 ∨ tidValid ((s.getX a).toNat % 65536) = false → GivesX (.kill g d a) d 3 s)
    ∧ ((s.getX a).toNat < 2 ^ 24 → tidValid ((s.getX a).toNat % 65536) = true → (s.getX a).setWidth 24 ≠ s.thr.handle s.tid →
        ∃ t, exec (.kill g d a) s = .next t ∧ Parks .send (.answer d) s { t with kills := s.kills }
          ∧ t.kills = s.kills ++ [⟨s.tid, s.thr.gen, s.thr.asid, s.thr.prv, (s.getX a).setWidth 24⟩]))
  ∧ (∀ a rest d since raised ser, s.answers = a :: rest → (s.slot a.tid).gen = a.gen → a.tid < 65536 →
      (s.slot a.tid).st = .park → (s.slot a.tid).park = some ⟨.send, .answer d, since, raised, ser⟩ →
      exec (.evAnswerArrival a.tid) s = .next { s.setSlot a.tid { (s.slot a.tid).setX d a.status with
        st := .run, park := none, pc := (s.slot a.tid).pc + 4 } with answers := rest })
  ∧ (∀ k rest, s.kills = k :: rest →
      let dest := handleTid k.target
      let v := s.slot dest
      let lives := (v.st = .run ∨ v.st = .park) ∧ v.gen = handleGen k.target
      let answers (n : Nat) : List Answer := s.answers ++ [⟨k.killer, k.gen, BitVec.ofNat 64 n⟩]
      (lives → v.asid ≠ k.asid → k.prv = .user →
        exec (.evKillArrival k.killer) s = .next { s with kills := rest, answers := answers 2 })
      ∧ (¬ lives → s.isAbsent k.target = true →
        exec (.evKillArrival k.killer) s = .next { s with kills := rest, answers := answers 4 })
      ∧ (¬ lives → s.isAbsent k.target = false →
        exec (.evKillArrival k.killer) s = .next { s with kills := rest, answers := answers 1 })
      ∧ (lives → (v.asid = k.asid ∨ k.prv ≠ .user) → ∃ t, exec (.evKillArrival k.killer) s = .next t
        ∧ t.kills = rest ∧ t.answers = answers 0 ∧ (t.slot dest).st = .drain ∧ (t.slot dest).held = false
        ∧ (∀ e ∈ t.waits, e.2 ≠ dest)))
  ∧ (∀ die h w rest, (s.die die).holding = .msg h w :: rest → s.lives h = true → s.isAbsent h = false →
      (s.slot (handleTid h)).inbox = none →
      exec (.evHeldRedelivery die 0) s =
        .next ((s.setDie die { s.die die with holding := rest }).setSlot (handleTid h)
          { s.slot (handleTid h) with inbox := some w })))
  ∧ (∀ (g : Guard) (d a b : Reg) (s : State), s.guardOk g = true →
  let k := tidCoreKey s.tid
  let bound (p : Nat) : Option Binding := (s.core k).ports[p % 4]'(Nat.mod_lt _ (by decide))
  let entry := s.getX a
  let p := (s.getX b).toNat
  let q := (s.getX a).toNat
  let foreign (n : Nat) : Prop := ∃ x, bound n = some x ∧ x.asid ≠ s.thr.asid
  let gives (i : Instr) (n : Nat) (x : Option Binding) : Prop := ∃ t, exec i s = .next t
    ∧ t.getX d = 0 ∧ (∀ r, r ≠ d → t.getX r = s.getX r) ∧ t.thr.pc = s.thr.pc + 4
    ∧ { t.thr with x := s.thr.x, pc := s.thr.pc } = s.thr
    ∧ t.core k = { s.core k with ports := (s.core k).ports.set (n % 4) x (Nat.mod_lt _ (by decide)) }
    ∧ (∀ c, c ≠ k → t.core c = s.core c) ∧ { t with slots := s.slots, cores := s.cores } = s ∧ SameOthers s t
  (p > 3 ∨ entry.toNat % 4 ≠ 0 → GivesX (.hbind g d a b) d 3 s)
  ∧ (p ≤ 3 → entry.toNat % 4 = 0 → foreign p → s.thr.prv = .user → GivesX (.hbind g d a b) d 2 s)
  ∧ (p ≤ 3 → entry.toNat % 4 = 0 → (¬ foreign p ∨ s.thr.prv ≠ .user) → (s.core k).waiting = [] →
      gives (.hbind g d a b) p (some ⟨entry, s.thr.asid, s.thr.ptbr, s.thr.kwin, s.thr.tvec, s.thr.prv⟩))
  ∧ (q > 3 → GivesX (.hunbind g d a) d 3 s)
  ∧ (q ≤ 3 → bound q = none → GivesX (.hunbind g d a) d 1 s)
  ∧ (q ≤ 3 → foreign q → s.thr.prv = .user → GivesX (.hunbind g d a) d 2 s)
  ∧ (q ≤ 3 → bound q ≠ none → (¬ foreign q ∨ s.thr.prv ≠ .user) → (s.core k).waiting = [] → gives (.hunbind g d a) q none))

/-- R167, R168, R31: a load from near banks completes at once: its bytes, least significant first, extended to X[d] or in the pair,
and nothing else changes. Stated for the own-keep window with an empty store queue, aligned or not.

R200 to R203: a fragment load whose elements lie in near banks, all different, gathers them into the pair: element i in lane i.

Where the rules leave the form open it is the model's: log 9. -/
def Obligations.LoadsAtOnce : Prop :=
  (∀ (g : Guard) (d a : Reg) (i : BitVec 10) (s : State) (o : Nat),
  s.guardOk g = true → s.thr.queue = [] →
  let at_ (n : Nat) : Prop := OwnKeep s (BitVec.ofInt 64 ((s.getX a).toInt + i.toInt * n)) n o ∧ NearBanks s n o
  let w (n : Nat) : Nat := bytesAt s (ownKey s o) n
  (at_ 1 → GivesX (.lb g d a i) d ((BitVec.ofNat 8 (w 1)).signExtend 64) s ∧ GivesX (.lbu g d a i) d (BitVec.ofNat 64 (w 1)) s)
  ∧ (at_ 2 → GivesX (.lh g d a i) d ((BitVec.ofNat 16 (w 2)).signExtend 64) s ∧ GivesX (.lhu g d a i) d (BitVec.ofNat 64 (w 2)) s)
  ∧ (at_ 4 → GivesX (.lw g d a i) d ((BitVec.ofNat 32 (w 4)).signExtend 64) s ∧ GivesX (.lwu g d a i) d (BitVec.ofNat 64 (w 4)) s)
  ∧ (at_ 8 → GivesX (.ld g d a i) d (BitVec.ofNat 64 (w 8)) s)
  ∧ (at_ 16 → d.val % 2 = 0 → ∃ t, exec (.lq g d a i) s = .next t
      ∧ t.getX d = (if d = 0 then 0 else BitVec.ofNat 64 (w 16)) ∧ t.getX (d + 1) = BitVec.ofNat 64 (w 16 / 2 ^ 64)
      ∧ OnlyPair d s t))
  ∧ (∀ (g : Guard) (d a b : Reg) (s : State) (o : Nat → Nat), s.guardOk g = true →
  s.thr.queue = [] → d.val % 2 = 0 →
  let at_ (n : Nat) : Prop := (∀ i, i < 16 / n → let e := s.getX a + BitVec.ofNat 64 i * s.getX b
      OwnKeep s e n (o i) ∧ NearBanks s n (o i) ∧ e.toNat % n = 0)
    ∧ ((List.range (16 / n)).map (fun i => keepBank (o i))).Nodup
  let gives (i : Instr) (n : Nat) : Prop := ∃ t, exec i s = .next t ∧ OnlyPair d s t
    ∧ (∀ k, k < 16 / n → let r := if k < 8 / n then d else d + 1
        let lane := (BitVec.ofNat 64 (bytesAt s (ownKey s (o k)) n)).extractLsb' 0 (8 * n)
        (t.getX r).extractLsb' (8 * n * (k % (8 / n))) (8 * n) = if r = 0 then 0 else lane)
  (at_ 1 → gives (.ldxtB g d a b) 1) ∧ (at_ 2 → gives (.ldxtH g d a b) 2))

/-- R167, R168, R173: a load from other banks of the spire, and every LACQ, parks MEM until its bytes come back; LACQ keeps its scope
for the acquire. Stated for an aligned access in the own-keep window.

R168, R170, R173, R178: the one piece of a parked load that reads a keep arrives, or an atomic's old value: X[d] is written, the
park ends, and a LACQ at DIE scope or wider leaves no clean word in the spire's cache, in sectors with dirty words too (log 84: the model's reading).

R203: of a fragment load that waits on near banks nothing arrives before the k-th turn after its issue, where k of its elements
lie in one bank.

Where the rules leave the form open it is the model's: log 9, 15, 84. -/
def Obligations.LoadsOnTheWay : Prop :=
  (∀ (g : Guard) (d a : Reg) (i : BitVec 10) (sc : Scope) (s : State) (o : Nat),
  s.guardOk g = true →
  let va (n : Nat) : Word := BitVec.ofInt 64 ((s.getX a).toInt + i.toInt * n)
  let far (n : Nat) : Prop := OwnKeep s (va n) n o ∧ o % n = 0 ∧ o / 196608 ≠ s.tid / 16 % 16
  let parks (x : Instr) (w : Word) (n : Nat) (ext : LoadExt) (acq : Option Scope) : Prop :=
    ∃ t, exec x s = .next t ∧ Parks .mem (.load ⟨[⟨0, ownKey s o, n, w.toNat⟩], [], n, ext, d, acq⟩) s t
  (far 1 → parks (.lb g d a i) (va 1) 1 .sext none ∧ parks (.lbu g d a i) (va 1) 1 .zext none)
  ∧ (far 2 → parks (.lh g d a i) (va 2) 2 .sext none ∧ parks (.lhu g d a i) (va 2) 2 .zext none)
  ∧ (far 4 → parks (.lw g d a i) (va 4) 4 .sext none ∧ parks (.lwu g d a i) (va 4) 4 .zext none)
  ∧ (far 8 → parks (.ld g d a i) (va 8) 8 .zext none) ∧ (far 16 → parks (.lq g d a i) (va 16) 16 .pair none)
  ∧ (∀ z : OrdSize, let n := match z with
        | .b => 1 | .h => 2 | .w => 4 | .d => 8 | .q => 16
      OwnKeep s (s.getX a) n o → o % n = 0 →
      parks (.lacq g d a sc z) (s.getX a) n (if z = .q then .pair else .zext) (some sc))
  ∧ (∀ z : OrdSize, ∀ n, (z = .h ∧ n = 2) ∨ (z = .w ∧ n = 4) ∨ (z = .d ∧ n = 8) ∨ (z = .q ∧ n = 16) → (s.getX a).toNat % n ≠ 0 →
      TrapsWith (.lacq g d a sc z) .align 1 (s.getX a) s ∧ TrapsWith (.srel g d a sc z) .align 1 (s.getX a) s))
  ∧ (∀ (u k size va : Nat) (ext : LoadExt) (d : Reg) (acq : Option Scope) (since : Nat)
    (raised : Bool) (ser : Nat) (s : State),
  let v := s.slot u
  let done (v : Slot) : Slot := { v with st := .run, park := none, pc := v.pc + 4 }
  v.st ≠ .drain → v.queue = [] → NoError s k size → NoError s k 16 → 2 ^ 48 ≤ k → s.home k = .keep ((k - 2 ^ 48) / 2 ^ 22) ((k - 2 ^ 48) % 2 ^ 22) →
  let w := bytesAt s k size
  (∀ value, (ext = .sext ∧ value = (BitVec.ofNat (8 * size) w).signExtend 64) ∨ (ext = .zext ∧ value = BitVec.ofNat 64 w) →
    v.park = some ⟨.mem, .load ⟨[⟨0, k, size, va⟩], [], size, ext, d, acq⟩, since, raised, ser⟩ →
    ∃ t, exec (.evLoadResponse u 0) s = .next t ∧ t.slot u = done (v.setX d value) ∧ (∀ x, x ≠ u → t.slot x = s.slot x)
      ∧ SameBytes s t
      ∧ (∀ sc, acq = some sc → scopeWide sc = true → ∀ e ∈ (t.spire (tidSpire u)).cache, e.2.bare)
      ∧ (acq = none → { t with slots := s.slots } = s))
  ∧ (v.park = some ⟨.mem, .load ⟨[⟨0, k, 16, va⟩], [], 16, .pair, d, none⟩, since, raised, ser⟩ →
    exec (.evLoadResponse u 0) s = .next (s.setSlot u (done
      ((v.setX d (BitVec.ofNat 64 (bytesAt s k 16))).setX (d + 1) (BitVec.ofNat 64 (bytesAt s k 16 / 2 ^ 64))))))
  ∧ (∀ value, v.park = some ⟨.mem, .reply d value, since, raised, ser⟩ →
    exec (.evLoadResponse u 0) s = .next (s.setSlot u (done (v.setX d value)))))
  ∧ (∀ (u : Nat) (ps : List Piece) (size : Nat) (ext : LoadExt) (d : Reg) (since : Nat)
    (raised : Bool) (ser : Nat) (s : State) (p : Piece) (j : Nat),
  (s.slot u).park = some ⟨.mem, .load ⟨ps, [], size, ext, d, none⟩, since, raised, ser⟩ → 2 ≤ ps.length →
  let off (q : Piece) : Nat := q.key - (2 ^ 48 + tidSpire u * 2 ^ 22)
  (∀ q ∈ ps, 2 ^ 48 + tidSpire u * 2 ^ 22 ≤ q.key ∧ off q < 0x300000 ∧ off q / 196608 = u / 16 % 16
    ∧ (q.len = 1 ∨ (q.len = 2 ∧ off q % 2 = 0))) →
  p ∈ ps → s.turnOf (tidSpire u) < since + (ps.filter (fun q => decide (keepBank (off q) = keepBank (off p)))).length →
  exec (.evLoadResponse u j) s = .next s)

/-- R164, R167, R173, R180: a store enters the queue with the bytes of its register and the address its operands name, and no byte of
memory changes yet; with eight entries queued it parks; SREL joins once the queue is empty and, for SYSTEM, every peer has
acknowledged the posted writes of every agent (log 86: the model's reading), and at DIE scope or wider leaves no dirty sector in the spire's cache; CZERO is one store of 256 zero bytes.

R164, R170: a store of one piece to a keep is performed: the bytes it carries, where it says, and no other byte; its entry
leaves the queue. A store to a ONCE page that its thread parks on ends the park and makes the words full (R172).

Where the rules leave the form open it is the model's: log 9, 14, 86. -/
def Obligations.StoresQueuedAndPerformed : Prop :=
  (∀ (g : Guard) (d a : Reg) (i : BitVec 10) (sc : Scope) (s : State) (o : Nat),
  s.guardOk g = true →
  let va (n : Nat) : Word := BitVec.ofInt 64 ((s.getX a).toInt + i.toInt * n)
  let bytes (n : Nat) : List Byte :=
    if n = 16 then leBytes 8 (s.getX d).toNat ++ leBytes 8 (s.getX (d + 1)).toNat else leBytes n (s.getX d).toNat
  let joins (x : Instr) (ps : List StorePiece) : Prop := ∃ t, exec x s = .next t
    ∧ t.thr = { s.thr with queue := s.thr.queue ++ [.store s.serial ps], pc := s.thr.pc + 4 }
    ∧ SameOthers s t ∧ SameBytes s t ∧ { t with slots := s.slots, serial := s.serial } = s ∧ t.serial = s.serial + 1
  let stores (x : Instr) (n : Nat) : Prop := OwnKeep s (va n) n o → o % n = 0 →
    (s.thr.queue.length < 8 → joins x [⟨ownKey s o, bytes n, false, (va n).toNat⟩])
    ∧ (8 ≤ s.thr.queue.length → ∃ t, exec x s = .next t ∧ Parks .mem (.wait .storeRoom) s t)
  stores (.sb g d a i) 1 ∧ stores (.sh g d a i) 2 ∧ stores (.sw g d a i) 4 ∧ stores (.sd g d a i) 8
  ∧ (d.val % 2 = 0 → stores (.sq g d a i) 16)
  ∧ (∀ z : OrdSize, ∀ n, (z = .b ∧ n = 1) ∨ (z = .h ∧ n = 2) ∨ (z = .w ∧ n = 4) ∨ (z = .d ∧ n = 8) ∨ (z = .q ∧ n = 16) →
      OwnKeep s (s.getX a) n o → o % n = 0 →
      (s.thr.queue ≠ [] → ∃ t, exec (.srel g d a sc z) s = .next t ∧ Parks .mem (.wait .drained) s t)
      ∧ (s.thr.queue = [] → sc = .system → s.peersAcked = false → ∃ t, exec (.srel g d a sc z) s = .next t ∧ Parks .mem (.wait .acked) s t)
      ∧ (s.thr.queue = [] → sc ≠ .system ∨ s.peersAcked = true → risingFrom 0 (s.spire (tidSpire s.tid)).cache = true →
          ∃ t, exec (.srel g d a sc z) s = .next t
            ∧ t.thr = { s.thr with
                queue := [.store s.serial [⟨ownKey s o, bytes n, false, (s.getX a).toNat⟩]], pc := s.thr.pc + 4 }
            ∧ SameOthers s t
            ∧ (scopeWide sc = true → ∀ e ∈ (t.spire (tidSpire s.tid)).cache, e.2.dirty = 0)
            ∧ (scopeWide sc = false → t.mem = s.mem ∧ t.spires = s.spires)))
  ∧ (OwnKeep s (s.getX a - BitVec.ofNat 64 ((s.getX a).toNat % 256)) 256 o → s.thr.queue.length < 8 →
      joins (.czero g a) ((List.range 8).map (fun k =>
        ⟨ownKey s o + 32 * k, List.replicate 32 0, false, 0x7F1000000000 + o + 32 * k⟩))))
  ∧ (∀ (u q n k va : Nat) (data : List Byte) (s : State),
  let v := s.slot u
  2 ^ 48 ≤ k → s.home k = .keep ((k - 2 ^ 48) / 2 ^ 22) ((k - 2 ^ 48) % 2 ^ 22) →
  (q < 8 → v.queue[q]? = some (.store n [⟨k, data, false, va⟩]) → (∀ e ∈ v.queue.take q, e.touches k data.length = false) →
    ∃ t, exec (.evStorePerformed u q 0) s = .next t
      ∧ t.slot u = { v with queue := v.queue.eraseIdx q }
      ∧ (∀ i, i < data.length → memGet (k + i) t.mem = data.getD i 0) ∧ SameBytesBut k data.length s t
      ∧ (∀ x, x ≠ u → t.slot x = s.slot x) ∧ { t with slots := s.slots, mem := s.mem } = s)
  ∧ (∀ since raised ser, v.st = .park → v.queue = [] → k % 8 = 0 → data.length = 8 →
      v.park = some ⟨.mem, .once [⟨k, data, true, va⟩], since, raised, ser⟩ → natIn (k / 8) s.full = false →
      ∃ t, exec (.evStorePerformed u 8 0) s = .next t
        ∧ t.slot u = { v with st := .run, park := none, pc := v.pc + 4 }
        ∧ (∀ i, i < 8 → memGet (k + i) t.mem = data.getD i 0) ∧ SameBytesBut k 8 s t
        ∧ t.full = natAdd (k / 8) s.full))

/-- R169, R174, R181: a sync-word instruction with its earlier accesses performed, for SYSTEM with the peers'
acknowledgements of every agent's posted writes (log 86: the model's reading), parks MEM with its operation, scope and value until the
operation reaches its word's home; a misaligned one traps ALIGN. Stated for the own-keep window.

R132: the waiters of a list retry in the order they joined: a word that is still empty sends its one waiter back, a full one
serves it.

Where the rules leave the form open it is the model's: log 9, 15, 86. -/
def Obligations.SyncWordsIssuedAndRetried : Prop :=
  (∀ (g : Guard) (d a : Reg) (p : PReg) (sc : Scope) (s : State) (o : Nat),
  s.guardOk g = true →
  let issued (x : Instr) (op : SyncOp) (d : Reg) (p : PReg) : Prop :=
    ((s.getX a).toNat % 8 ≠ 0 → TrapsWith x .align 1 (s.getX a) s)
    ∧ (OwnKeep s (s.getX a) 8 o → o % 8 = 0 →
        let r : SyncReq := ⟨op, ownKey s o, (s.getX a).toNat, false, sc, d, p, s.getX d⟩
        ((op = .ldf ∨ op = .peekf) → ∃ t, exec x s = .next t ∧ Parks .mem (.sync r false false) s t)
        ∧ (op ≠ .ldf → op ≠ .peekf → s.thr.queue ≠ [] → ∃ t, exec x s = .next t ∧ Parks .mem (.wait .drained) s t)
        ∧ (op ≠ .ldf → op ≠ .peekf → s.thr.queue = [] → sc = .system → s.peersAcked = false →
            ∃ t, exec x s = .next t ∧ Parks .mem (.wait .acked) s t)
        ∧ (op ≠ .ldf → op ≠ .peekf → s.thr.queue = [] → sc ≠ .system ∨ s.peersAcked = true → ∃ t, exec x s = .next t
            ∧ t.thr.st = .park ∧ (∃ k, t.thr.park = some k ∧ k.reason = .mem ∧ k.op = .sync r false false)
            ∧ { t.thr with st := s.thr.st, park := s.thr.park } = s.thr ∧ SameOthers s t
            ∧ (scopeWide sc = false → SameOutside s t)))
  issued (.ldf g d a sc) .ldf d 0 ∧ issued (.ldfe g d a sc) .ldfe d 0 ∧ issued (.stef g d a sc) .stef d 0
  ∧ issued (.stf g d a sc) .stf d 0 ∧ issued (.sto g d a sc) .sto d 0 ∧ issued (.sete g a sc) .sete 0 0
  ∧ issued (.peekf g p a sc) .peekf 0 p ∧ issued (.arrive g d a sc) .arrive d 0 ∧ issued (.expect g d a sc) .expect d 0)
  ∧ (∀ (u k va list : Nat) (d : Reg) (since : Nat) (raised : Bool) (ser : Nat) (s : State),
  let v := s.slot u
  s.waits = [(list, u)] → v.st = .park → v.queue = [] → 2 ^ 48 ≤ k → k % 8 = 0 → NoError s k 8 →
  s.home k = .keep ((k - 2 ^ 48) / 2 ^ 22) ((k - 2 ^ 48) % 2 ^ 22) →
  v.park = some ⟨.sync, .sync ⟨.ldf, k, va, false, .spire, d, 0, 0⟩ true true, since, raised, ser⟩ →
  (natIn (k / 8) s.full = false → exec (.evWaitlistRetry list) s = .next s)
  ∧ (natIn (k / 8) s.full = true → ∃ t, exec (.evWaitlistRetry list) s = .next t
      ∧ t.slot u = { v.setX d (BitVec.ofNat 64 (bytesAt s k 8)) with st := .run, park := none, pc := v.pc + 4 }
      ∧ t.waits = [] ∧ t.mem = s.mem))

/-- R132, R174 to R176: a sync-word operation at a word of a keep, by its full/empty bit: what it returns, what the word and the
bit become, when it waits or faults, and that a change of the bit makes the waiters of the word's list retry before anything else acts;
the count barrier of R175 among them. Stated for SPIRE scope, with no queued store to the word
and the thread in no wait list; the waiting thread joins its word's list while it has room.
Where the rules leave the form open it is the model's: log 9. -/
def Obligations.SyncWordsAtHome : Prop := ∀ (u k va : Nat) (d : Reg) (p : PReg) (op : SyncOp) (x : Word) (since : Nat)
    (raised : Bool) (ser : Nat) (reason : Reason) (s : State),
  let v := s.slot u
  v.st = .park → v.nest = false → v.held = false → v.queue = [] → (∀ e ∈ s.waits, e.2 ≠ u) → 2 ^ 48 ≤ k → k % 8 = 0 → NoError s k 8 →
  s.home k = .keep ((k - 2 ^ 48) / 2 ^ 22) ((k - 2 ^ 48) % 2 ^ 22) →
  v.park = some ⟨reason, .sync ⟨op, k, va, false, .spire, d, p, x⟩ false false, since, raised, ser⟩ →
  let w : Word := BitVec.ofNat 64 (bytesAt s k 8)
  let full := natIn (k / 8) s.full
  let gen := w.toNat / 2 ^ 48
  let arrived := w.toNat / 2 ^ 24 % 2 ^ 24
  let pending := w.toNat % 2 ^ 24
  let ends (f : Slot → Slot) (data : Option Word) (now : Bool) : Prop :=
    ∃ t, exec (.evSyncWordAtHome u) s = .next t
      ∧ t.slot u = f { v with st := .run, park := none, pc := v.pc + 4 } ∧ (∀ y, y ≠ u → t.slot y = s.slot y)
      ∧ (op ≠ .peekf → t.full = if now then natAdd (k / 8) s.full else natDel (k / 8) s.full) ∧ (op = .peekf → t.full = s.full)
      ∧ t.agenda = (if op ≠ .peekf ∧ full ≠ now ∧ (∃ e ∈ s.waits, e.1 = waitList k) then .retryList (waitList k) :: s.agenda else s.agenda)
      ∧ bytesAt t k 8 = (data.getD w).toNat ∧ SameBytesBut k 8 s t
      ∧ { t with slots := s.slots, full := s.full, mem := s.mem, agenda := s.agenda } = s
  let waits : Prop := ∃ t, exec (.evSyncWordAtHome u) s = .next t ∧ (t.slot u).st = .park
      ∧ (∃ q join, (t.slot u).park = some q ∧ q.reason = .sync
          ∧ q.op = .sync ⟨op, k, va, false, .spire, d, p, x⟩ true join
          ∧ join = decide ((s.waits.filter (fun e => decide (e.1 = waitList k))).length < Config.waitListEntries)
          ∧ t.waits = if join then s.waits ++ [(waitList k, u)] else s.waits)
      ∧ { t.slot u with park := v.park } = v ∧ t.full = s.full ∧ t.mem = s.mem
  let faults (c : Cause) (sub : Nat) : Prop := ∃ t, exec (.evSyncWordAtHome u) s = .next t
      ∧ t.slot u = { v with
          st := .run, park := none, tepc := codeAddr v.pc, tcause := BitVec.ofNat 8 c.code, tsub := BitVec.ofNat 64 sub
          tval := BitVec.ofNat 64 va, tnode := 0, pprv := v.prv, prv := (if v.prv = .user then .kernel else v.prv), nest := true
          pc := v.tvec }
      ∧ t.full = s.full ∧ t.mem = s.mem
  let settles (a b : Nat) (g : Slot → Slot) : Prop :=
    if b ≠ 0 ∧ a = b then ends g (some (BitVec.ofNat 64 ((gen + 1) % 65536 * 2 ^ 48))) true
    else ends g (some (BitVec.ofNat 64 (gen * 2 ^ 48 + a * 2 ^ 24 + b))) false
  (op = .ldf → if full then ends (Slot.setX d w) none true else waits)
  ∧ (op = .ldfe → if full then ends (Slot.setX d w) none false else waits)
  ∧ (op = .stef → if full then waits else ends id (some x) true)
  ∧ (op = .stf → ends id (some x) true)
  ∧ (op = .sto → if full then faults .secondWrite 0 else ends id (some x) true)
  ∧ (op = .sete → ends id none false)
  ∧ (op = .peekf → ends (Slot.setP p full) none full)
  ∧ (op = .expect → if x.toNat ≥ 2 ^ 24 ∨ pending + x.toNat ≥ 2 ^ 24 then faults .expectOvf 0
      else settles arrived (pending + x.toNat) id)
  ∧ (op = .arrive → if arrived = 2 ^ 24 - 1 then faults .expectOvf 1 else settles (arrived + 1) pending (Slot.setX d w))

/-- What each atomic computes (R177): the new value of its `w` bits from the old value, X[b] and X[d]; none where it writes nothing.

R163, R177, R178: an atomic at a keep: the word takes the new value and no other byte changes; a posted one leaves the queue, a
parked one's old value sets out for its thread.

Where the rules leave the form open it is the model's: log 9. -/
def Obligations.AtomicsComputedAndPerformed : Prop :=
  (∀ (wide once : Bool) (key va m : Nat) (b c : Word),
  let n := if wide then 64 else 32
  let old := m % 2 ^ n
  let x := b.toNat % 2 ^ n
  let signed (v : Nat) : Int := if v < 2 ^ (n - 1) then v else (v : Int) - 2 ^ n
  let new (op : AmoOp) : Option Nat := (⟨op, wide, key, va, once, b, c⟩ : AmoReq).apply m
  let result (op : AmoOp) : Word := (⟨op, wide, key, va, once, b, c⟩ : AmoReq).result m
  new .add = some ((old + x) % 2 ^ n) ∧ new .and = some (old &&& x) ∧ new .or = some (old ||| x) ∧ new .xor = some (old ^^^ x)
  ∧ new .swp = some x ∧ new .cas = (if old = c.toNat % 2 ^ n then some x else none)
  ∧ new .minu = some (min old x) ∧ new .maxu = some (max old x)
  ∧ new .min = some (if signed old ≤ signed x then old else x) ∧ new .max = some (if signed old ≤ signed x then x else old)
  ∧ new .fadd = some (if wide then (fAdd fp64 .rne (fp64.decode m) (fp64.decode b.toNat)).1
      else (fAdd fp32 .rne (fp32.decode m) (fp32.decode b.toNat)).1)
  ∧ (∀ op, op ≠ .fadd → m < 2 ^ n → result op = BitVec.ofInt 64 (signed old))
  ∧ (m < 2 ^ n → result .fadd = BitVec.ofNat 64 m))
  ∧ (∀ (u q n : Nat) (r : AmoReq) (s : State),
  let v := s.slot u
  let m := bytesAt s r.key r.size
  2 ^ 48 ≤ r.key → NoError s r.key r.size → s.home r.key = .keep ((r.key - 2 ^ 48) / 2 ^ 22) ((r.key - 2 ^ 48) % 2 ^ 22) → r.once = false →
  let written (t : State) : Prop := SameBytesBut r.key r.size s t ∧ t.full = s.full
    ∧ bytesAt t r.key r.size = (r.apply m).getD m
  (q < 8 → v.queue[q]? = some (.amo n r) → (∀ e ∈ v.queue.take q, e.touches r.key r.size = false) →
    ∃ t, exec (.evAtomicAtHome u q) s = .next t ∧ written t ∧ t.slot u = { v with queue := v.queue.eraseIdx q }
      ∧ (∀ x, x ≠ u → t.slot x = s.slot x))
  ∧ (∀ d k, v.queue = [] → v.park = some k → k.op = .atomic r d →
    ∃ t, exec (.evAtomicAtHome u 8) s = .next t ∧ written t
      ∧ t.slot u = { v with park := some { k with op := .reply d (r.result m) } }
      ∧ (∀ x, x ≠ u → t.slot x = s.slot x)))

/-- R169, R177, R178: an atomic naming x0 is posted into the store queue and the thread goes on; any other parks MEM; a misaligned one
traps. Stated for the own-keep window. Where the rules leave the form open it is the model's: log 9. -/
def Obligations.AtomicsIssued : Prop := ∀ (g : Guard) (d a b : Reg) (s : State) (o : Nat), s.guardOk g = true →
  let issued (x : Instr) (op : AmoOp) (wide : Bool) : Prop :=
    let n := if wide then 8 else 4
    let r : AmoReq := ⟨op, wide, ownKey s o, (s.getX a).toNat, false, s.getX b, s.getX d⟩
    ((s.getX a).toNat % n ≠ 0 → TrapsWith x .align 1 (s.getX a) s)
    ∧ (OwnKeep s (s.getX a) n o → o % n = 0 →
      (d ≠ 0 → ∃ t, exec x s = .next t ∧ Parks .mem (.atomic r d) s t)
      ∧ (d = 0 → s.thr.queue.length < 8 → ∃ t, exec x s = .next t
          ∧ t.thr = { s.thr with queue := s.thr.queue ++ [.amo s.serial r], pc := s.thr.pc + 4 }
          ∧ SameOthers s t ∧ { t with slots := s.slots, serial := s.serial } = s)
      ∧ (d = 0 → 8 ≤ s.thr.queue.length → ∃ t, exec x s = .next t ∧ Parks .mem (.wait .storeRoom) s t))
  issued (.aaddD g d a b) .add true ∧ issued (.aandD g d a b) .and true ∧ issued (.aorD g d a b) .or true
  ∧ issued (.axorD g d a b) .xor true ∧ issued (.aminD g d a b) .min true ∧ issued (.amaxD g d a b) .max true
  ∧ issued (.aminuD g d a b) .minu true ∧ issued (.amaxuD g d a b) .maxu true ∧ issued (.aswpD g d a b) .swp true
  ∧ issued (.acasD g d a b) .cas true ∧ issued (.afaddD g d a b) .fadd true
  ∧ issued (.aaddW g d a b) .add false ∧ issued (.aandW g d a b) .and false ∧ issued (.aorW g d a b) .or false
  ∧ issued (.axorW g d a b) .xor false ∧ issued (.aminW g d a b) .min false ∧ issued (.amaxW g d a b) .max false
  ∧ issued (.aminuW g d a b) .minu false ∧ issued (.amaxuW g d a b) .maxu false ∧ issued (.aswpW g d a b) .swp false
  ∧ issued (.acasW g d a b) .cas false ∧ issued (.afaddW g d a b) .fadd false

/-- R179, R181: the fences. With nothing queued they complete at once: one that releases leaves no dirty sector in the spire's cache at
DIE scope or wider, one that acquires no clean word, in sectors with dirty words too (log 84: the model's reading); with stores queued, one that releases parks, for CPY and SRV for the engine,
and so does one for SYSTEM while a peer has not acknowledged some agent's posted write (log 86: the model's reading); CPY and SRV park while a copy of the thread has to land or a record of it
is out.

R165, R166, R180: the cache operations on a line that the spire's cache holds for its home, the address passing the checks of a
load: CFLUSH leaves no sector of the line, CINV no clean one and no instruction line of the core, CCLEAN no dirty one, and all
three park MEM until done; CPREF leaves all eight sectors whole and goes on (stated where the line's set has room, R19).

R128, R129, R144, R366, R370: the line that a fetch waits for arrives in the core's instruction cache and the thread issues its
instruction; a walk that succeeds leaves its translation in the spire's TLB and the access that waited for it goes on in the same
issue, still the same park where it waits again; one that fails makes the access fault and leaves the TLB as it was. Stated for a line
without an uncorrectable error and for a walk that one thread of the spire alone waits for.

Where the rules leave the form open it is the model's: log 9, 10, 68, 84, 86. -/
def Obligations.OrderingAndCaches : Prop :=
  (∀ (g : Guard) (sc : Scope) (s : State), s.guardOk g = true →
  risingFrom 0 (s.spire (tidSpire s.tid)).cache = true →
  let sp := tidSpire s.tid
  let done (x : Instr) (rel acq : Bool) : Prop := ∃ t, exec x s = .next t
    ∧ t.thr = { s.thr with pc := s.thr.pc + 4 } ∧ SameOthers s t
    ∧ (scopeWide sc = false → SameOutside s t)
    ∧ (rel = false → t.mem = s.mem)
    ∧ (scopeWide sc = true → ∀ e ∈ (t.spire sp).cache, (rel = true → e.2.dirty = 0) ∧ (acq = true → e.2.bare))
    ∧ { t with slots := s.slots, spires := s.spires, mem := s.mem } = s
  let waits (x : Instr) (why : Reason) (c : WaitCond) : Prop := ∃ t, exec x s = .next t ∧ Parks why (.wait c) s t
  let all (c : WaitCond) : Prop :=
    waits (.fenceRel g sc) .mem c ∧ waits (.fenceAr g sc) .mem c ∧ waits (.fenceCpy g sc) .engine c ∧ waits (.fenceSrv g sc) .engine c
  let engine (x : Instr) (c : WaitCond) : Prop := ∃ t, exec x s = .next t ∧ t.thr.st = .park
    ∧ (∃ k, t.thr.park = some k ∧ k.reason = .engine ∧ k.op = .wait c)
  let copies := ∃ ch, ch < 16 ∧ ∃ e ∈ ((s.spire sp).channel ch).queue, e.issuer = .thread (s.thr.handle s.tid)
    ∧ (e.st = .queued ∨ e.st = .landing ∨ (e.st = .frozen ∧ ((s.spire sp).channel ch).side ≠ 2))
  let records := ∃ r ∈ (s.spire sp).regions, ∃ f ∈ r.2.flights, f.tid = s.tid
  ((∀ e ∈ s.thr.queue, ∃ n ps, e = .store n ps) → done (.fenceAcq g sc) false true)
  ∧ ((∃ n r, QEntry.amo n r ∈ s.thr.queue) → waits (.fenceAcq g sc) .mem .drained)
  ∧ (s.thr.queue ≠ [] → all .drained)
  ∧ (s.thr.queue = [] → sc = .system → s.peersAcked = false → all .acked)
  ∧ (s.thr.queue = [] → sc ≠ .system ∨ s.peersAcked = true → done (.fenceRel g sc) true false ∧ done (.fenceAr g sc) true true
      ∧ (¬ copies → done (.fenceCpy g sc) true true) ∧ (copies → engine (.fenceCpy g sc) (.copiesLanded sc))
      ∧ (¬ records → done (.fenceSrv g sc) true true) ∧ (records → engine (.fenceSrv g sc) .recordsBack)))
  ∧ (∀ (g : Guard) (a : Reg) (s : State) (c : Chunk), s.guardOk g = true →
  let sp := tidSpire s.tid
  let k := c.key + ((s.getX a).toNat - c.va)
  s.check s.ctx ⟨.read, s.getX a, 1, false, false, false, false, false⟩ = .pass [c] → c.va ≤ (s.getX a).toNat →
  (s.getX a).toNat < c.va + c.len → NoError s c.key c.len → sp < 160 → (s.home k).cached = true → risingFrom 0 (s.spire sp).cache = true →
  let parks (t : State) : Prop := t.thr.st = .park
    ∧ (∃ q, t.thr.park = some q ∧ q.reason = .mem ∧ q.op = .finish .now 0 0)
    ∧ { t.thr with st := s.thr.st, park := s.thr.park } = s.thr ∧ SameOthers s t
  let others (t : State) : Prop := ∀ sec, sec / 8 ≠ k / 256 → tget sec (t.spire sp).cache = tget sec (s.spire sp).cache
  (∃ t, exec (.cflush g a) s = .next t ∧ parks t ∧ others t ∧ ∀ e ∈ (t.spire sp).cache, e.1 / 8 ≠ k / 256)
  ∧ (∃ t, exec (.cinv g a) s = .next t ∧ parks t ∧ others t ∧ SameBytes s t
      ∧ (∀ e ∈ (t.spire sp).cache, e.1 / 8 = k / 256 → e.2.dirty ≠ 0)
      ∧ (∀ e ∈ (t.core (tidCoreKey s.tid)).icache, e.1 / 4 ≠ k / 256))
  ∧ (∃ t, exec (.cclean g a) s = .next t ∧ parks t ∧ others t ∧ ∀ e ∈ (t.spire sp).cache, e.1 / 8 = k / 256 → e.2.dirty = 0)
  ∧ ((setLines (k / 256) (s.spire sp).cache).length < 16 ∨ k / 256 ∈ setLines (k / 256) (s.spire sp).cache →
      ∃ t, exec (.cpref g a) s = .next t ∧ t.thr = { s.thr with pc := s.thr.pc + 4 } ∧ SameOthers s t ∧ others t ∧ SameBytes s t
      ∧ ∀ j, j < 8 → ∃ e, tget (k / 256 * 8 + j) (t.spire sp).cache = some e ∧ e.have_ = 0xFF))
  ∧ (∀ (u : Nat) (since : Nat) (raised : Bool) (ser : Nat) (r : Reason) (s : State),
  let v := s.slot u
  let g := tidSpire u
  let again : Slot := { v with st := .run, park := none }
  (∀ line, v.park = some ⟨r, .fetch line, since, raised, ser⟩ → NoError s (64 * line) 64 →
    let f := s.fillLine g (tidCoreKey u) line
    (∃ bits, tget line (f.core (tidCoreKey u)).icache = some bits)
    ∧ (∀ w, ({ f.setSlot u again with tid := u } : State).fetch = .ok w → exec (.evIcacheFill u) s = .next (f.setSlot u again)))
  ∧ (∀ va kind n, v.park = some ⟨r, .walk va kind n, since, raised, ser⟩ → s.walkers g = [(u, (v.asid, va / 4096))] →
    (s.spire g).misses = [] →
    let goes (t : State) : Prop := ∀ i t', kind ≠ .fetch → v.ins = some i → goesOn i { t.setSlot u again with tid := u } = .next t' →
      exec (.evPageWalk u) s = .next { t'.keepPark u ⟨r, .walk va kind n, since, raised, ser⟩ with tid := s.tid }
    ((s.spire g).tlbFind v.asid va ≠ none → goes s)
    ∧ (∀ e t, (s.spire g).tlbFind v.asid va = none → State.walk (v.ctx g) va s = (t, .found e) →
        goes t ∧ e.hits v.asid va = true
        ∧ ((s.spire g).tlb.length < 1024 → (t.spire g).tlb = (s.spire g).tlb ++ [e]))
    ∧ (∀ sub t, (s.spire g).tlbFind v.asid va = none → State.walk (v.ctx g) va s = (t, .fails sub) →
        v.nest = false → v.held = false → ∃ t', exec (.evPageWalk u) s = .next t'
          ∧ (t'.slot u).tcause.toNat = kind.pageCause.code ∧ (t'.slot u).tsub = BitVec.ofNat 64 sub
          ∧ (t'.slot u).tval = BitVec.ofNat 64 va ∧ (t'.slot u).pc = v.tvec ∧ (t'.slot u).nest = true
          ∧ (t'.spire g).tlb = (s.spire g).tlb)))

/-- R188 to R190, R194: GJOIN and GLEAVE by their table: the lowest free member index, the refusals, and what the group table holds
after. Stated for a leave that leaves other members and no instance pending.

R191, R192: a collective by a thread that is no member traps GROUP with TSUB 1, one of another kind than the pending instance with
TSUB 2; the first issue begins an instance whose wait set is every member, a later one of the wait set is counted, one by a thread
that joined since is held; each of these parks GROUP. The operands are those at the issue.

Where the rules leave the form open it is the model's: log 15. -/
def Obligations.GroupsAndCollectives : Prop :=
  (∀ (g : Guard) (d : Reg) (n : BitVec 6) (s : State), s.guardOk g = true →
  let sp := tidSpire s.tid
  let h := s.thr.handle s.tid
  let entry := tget n.toNat (s.spire sp).groups
  let kept (x : Instr) (w : Word) (e : Group) : Prop := ∃ t, exec x s = .next t
    ∧ t.getX d = (if d = 0 then 0 else w) ∧ (∀ r, r ≠ d → t.getX r = s.getX r) ∧ t.thr.pc = s.thr.pc + 4
    ∧ { t.thr with x := s.thr.x, pc := s.thr.pc } = s.thr ∧ SameOthers s t ∧ SameBytes s t
    ∧ tget n.toNat (t.spire sp).groups = some e
    ∧ (∀ m, m ≠ n.toNat → tget m (t.spire sp).groups = tget m (s.spire sp).groups) ∧ (∀ u, u ≠ sp → t.spire u = s.spire u)
  (entry = none → kept (.gjoin g d n) 0 ⟨s.thr.asid, [(h, 0)], none, []⟩ ∧ GivesX (.gleave g d n) d 1 s)
  ∧ (∀ e, entry = some e →
      (∀ i, e.members.find? (fun m => decide (m.1 = h)) = some (h, i) →
        GivesX (.gjoin g d n) d (BitVec.ofNat 64 i) s
        ∧ ((∃ m ∈ e.members, m.1 ≠ h) → e.inst = none → e.held = [] →
            kept (.gleave g d n) 0 { e with members := e.members.filter (fun m => decide (m.1 ≠ h)) }))
      ∧ ((∀ m ∈ e.members, m.1 ≠ h) →
        GivesX (.gleave g d n) d 1 s
        ∧ (e.asid ≠ s.thr.asid → s.thr.prv = .user → GivesX (.gjoin g d n) d (-2) s)
        ∧ (e.asid = s.thr.asid ∨ s.thr.prv ≠ .user →
            ((∀ i, i < 32 → ∃ m ∈ e.members, m.2 = i) → GivesX (.gjoin g d n) d (-1) s)
            ∧ (∀ i, i < 32 → (∀ j, j < i → ∃ m ∈ e.members, m.2 = j) → (∀ m ∈ e.members, m.2 ≠ i) →
                kept (.gjoin g d n) (BitVec.ofNat 64 i) { e with members := e.members ++ [(h, i)] })))))
  ∧ (∀ (g : Guard) (d a : Reg) (n : BitVec 6) (s : State), s.guardOk g = true →
  let sp := tidSpire s.tid
  let h := s.thr.handle s.tid
  let entry := tget n.toNat (s.spire sp).groups
  let issued (x : Instr) (k : Nat) (d a : Reg) : Prop :=
    let p : Part := ⟨h, k, s.getX a, s.getX d, d⟩
    let parks (e : Group) : Prop := ∃ t, exec x s = .next t
      ∧ t.thr = { s.thr with
          st := .park, park := some ⟨.group, .group n.toNat, s.turnOf (tidSpire s.tid), false, s.serial⟩ }
      ∧ SameOthers s t ∧ SameBytes s t ∧ tget n.toNat (t.spire sp).groups = some e
      ∧ (∀ m, m ≠ n.toNat → tget m (t.spire sp).groups = tget m (s.spire sp).groups) ∧ (∀ u, u ≠ sp → t.spire u = s.spire u)
    ((entry = none ∨ ∃ e, entry = some e ∧ ∀ m ∈ e.members, m.1 ≠ h) → TrapsWith x .group 1 0 s)
    ∧ (∀ e, entry = some e → (∃ m ∈ e.members, m.1 = h) →
      (e.inst = none → parks { e with inst := some ⟨k, e.members.map Prod.fst, [p]⟩ })
      ∧ (∀ c, e.inst = some c →
        (h ∈ c.wait → c.kind = k → parks { e with inst := some { c with parts := c.parts ++ [p] } })
        ∧ (h ∈ c.wait → c.kind ≠ k → TrapsWith x .group 2 0 s)
        ∧ (h ∉ c.wait → parks { e with held := e.held ++ [p] })))
  issued (.gsync g n) 2 0 0 ∧ issued (.gshfl g d a n) 3 d a ∧ issued (.gshflx g d a n) 4 d a ∧ issued (.gbcast g d a n) 5 d a
  ∧ issued (.gvoteAny g d a n) 6 d a ∧ issued (.gvoteAll g d a n) 7 d a ∧ issued (.gvoteBal g d a n) 8 d a
  ∧ issued (.gmatch g d a n) 9 d a ∧ issued (.gredAdd g d a n) 10 d a ∧ issued (.gredMin g d a n) 11 d a
  ∧ issued (.gredMax g d a n) 12 d a ∧ issued (.gredFadd g d a n) 13 d a ∧ issued (.gredFmax g d a n) 14 d a
  ∧ issued (.gscanAdd g d a n) 15 d a)

/-- R191, R192, R195 to R198: an instance of two participants completes once both have issued and their stores are performed: what each
receives by kind, the flags of a reduction, and a participant whose FCSR enables one traps instead.
Where the rules leave the form open it is the model's: log 14. -/
def Obligations.CollectiveResults : Prop := ∀ (sp n k : Nat) (asid : BitVec 12) (p q : Part) (s : State),
  let u := handleTid p.who
  let w := handleTid q.who
  let v := s.slot u
  let z := s.slot w
  (s.spire sp).group n = some ⟨asid, [(p.who, 0), (q.who, 1)], some ⟨k, [p.who, q.who], [p, q]⟩, []⟩ →
  p.who ≠ q.who → u ≠ w → 2 ≤ k → k ≤ 15 → v.queue = [] → z.queue = [] → v.held = false → v.nest = false →
  let x := fp32.decode p.v.toNat
  let y := fp32.decode q.v.toNat
  let fl : Flags := if k = 13 then (fAdd fp32 .rne x y).2 else if k = 14 then nvIf (x.isSig || y.isSig) else 0
  let pick (own : Word) (i : Nat) : Word := if i = 0 then p.v else if i = 1 then q.v else own
  let mask (a b : Bool) : Word := BitVec.ofNat 64 ((if a then 1 else 0) + (if b then 2 else 0))
  let value (i : Nat) (own : Part) : Word :=
    match k with
    | 3 => pick own.v (own.dv.toNat % 32)
    | 4 => pick own.v (i ^^^ (own.dv.toNat % 32))
    | 5 => pick own.v (own.dv.toNat % 32)
    | 6 => if p.v ≠ 0 ∨ q.v ≠ 0 then 1 else 0
    | 7 => if p.v ≠ 0 ∧ q.v ≠ 0 then 1 else 0
    | 8 => mask (decide (p.v ≠ 0)) (decide (q.v ≠ 0))
    | 9 => mask (decide (p.v = own.v)) (decide (q.v = own.v))
    | 10 => p.v + q.v
    | 11 => if p.v.toInt ≤ q.v.toInt then p.v else q.v
    | 12 => if p.v.toInt ≤ q.v.toInt then q.v else p.v
    | 13 => BitVec.ofNat 64 (fAdd fp32 .rne x y).1
    | 14 => BitVec.ofNat 64 (fMinMax fp32 true p.v.toNat q.v.toNat).1
    | 15 => if i = 0 then p.v else p.v + q.v
    | _ => 0
  let gets (t : State) (c : Nat) (b : Slot) (i : Nat) (o : Part) : Prop :=
    t.slot c = { (if k = 2 then b else b.setX o.d (value i o)) with
      fl := b.fl ||| fl, st := .run, park := none, pc := b.pc + 4 }
  (fl &&& z.en = 0 → ∃ t, exec (.evCollectiveComplete sp n) s = .next t
    ∧ (fl &&& v.en = 0 → gets t u v 0 p)
    ∧ (fl &&& v.en ≠ 0 → (t.slot u).tcause = 0x14 ∧ (t.slot u).fl = v.fl ||| fl ∧ (t.slot u).x = v.x
        ∧ (t.slot u).tval = fl.setWidth 64 ∧ (t.slot u).pc = v.tvec)
    ∧ gets t w z 1 q ∧ (∀ c, c ≠ u → c ≠ w → t.slot c = s.slot c) ∧ SameBytes s t
    ∧ (t.spire sp).group n = some ⟨asid, [(p.who, 0), (q.who, 1)], none, []⟩)

/-- R205, R208, R210, R213, R214, R216, R219, R223, R224: the server family. A misaligned image address traps ALIGN; SRV and SRVNW join
the entry port of the region that holds the image, or trap on another shape; while a record of the tag is in flight SRV waits ENGINE,
and SRVNW, decided as it issues, at the port; without one SRV joins the placement queue and SRVNW says false; the status words and
effects of the rest by their table. Stated where no call of the spire has issued later (`uses` counts them).
Where the rules leave the form open it is the model's: log 19, 25, 60, 111. -/
def Obligations.ServerCalls : Prop := ∀ (g : Guard) (d a : Reg) (p : PReg) (n r : BitVec 3) (s : State), s.guardOk g = true →
  let h := tidSpire s.tid
  let sp := s.spire h
  let addr := s.getX a
  let asid := s.thr.asid
  let nargs := n.toNat + 1
  let nrets := r.toNat + 1
  let args := (List.range nargs).map (fun i => s.getX (Fin.ofNat 64 (i + 1)))
  let image := sp.hearth.find? (fun i => decide (i.asid = asid ∧ i.addr = addr))
  let pins := (image.map Image.pins).getD 0
  let others (t : State) : Prop := SameOthers s t ∧ (∀ u, u ≠ h → t.spire u = s.spire u)
    ∧ { t with slots := s.slots, spires := s.spires } = s
  let parks (x : Instr) (why : Reason) (op : ParkOp) (pr : Vector Bool 8) (q : State → Prop) : Prop :=
    ∃ t, exec x s = .next t ∧ others t ∧ q t
      ∧ t.thr = { s.thr with p := pr, st := .park, park := some ⟨why, op, s.turnOf h, false, s.serial⟩ }
  let answersBy (x : Instr) (w : Word) (q : State → Prop) : Prop :=
    ∃ t, exec x s = .next t ∧ others t ∧ q t ∧ t.getX d = (if d = 0 then 0 else w) ∧ (∀ k, k ≠ d → t.getX k = s.getX k)
      ∧ t.thr.pc = s.thr.pc + 4 ∧ { t.thr with x := s.thr.x, pc := s.thr.pc } = s.thr
  let rest (t : State) : List Image := (t.spire h).hearth.filter (fun i => !decide (i.asid = asid ∧ i.addr = addr))
  let sameRest (t : State) : Prop := rest t = rest s ∧ (t.spire h).places = sp.places ∧ (t.spire h).regions = sp.regions
  let seq := sp.uses + 1
  let call : CallReq := ⟨addr, nargs, nrets, args, seq⟩
  let set (p : PReg) : Vector Bool 8 := if p = 0 then s.thr.p else s.thr.p.set p true
  let shapeTrap (x : Instr) : Prop := ∃ t, exec x s = .next t ∧ others t ∧ t.thr.tcause = 0x0B ∧ t.thr.tval = 0 ∧ t.thr.tnode = 0
    ∧ t.thr.tsub = BitVec.ofNat 64 (2 ^ 16 + Cause.shape.code) ∧ t.thr.tepc = codeAddr s.thr.pc ∧ t.thr.pc = s.thr.tvec
    ∧ t.thr.x = s.thr.x ∧ t.thr.p = s.thr.p
  (addr.toNat % 256 ≠ 0 →
    TrapsWith (.srv g a n r) .align 1 addr s ∧ TrapsWith (.srvnw g p a n r) .align 1 addr s ∧ TrapsWith (.srvq g d a) .align 1 addr s
    ∧ TrapsWith (.cfgld g d a) .align 1 addr s ∧ TrapsWith (.cfgpin g d a) .align 1 addr s
    ∧ TrapsWith (.cfgunpin g d a) .align 1 addr s ∧ TrapsWith (.cfgev g d a) .align 1 addr s)
  ∧ (addr.toNat % 256 = 0 →
    (∀ k reg plane, sp.placed asid addr = some (k, reg) → s.region h k = some reg → reg.active = some plane →
      let joins (t : State) : Prop := t.region h k = some { reg with waiting := reg.waiting ++ [s.tid] }
      (plane.nargs = nargs → plane.nrets = nrets → (∀ u ∈ reg.waiting, s.callSeq u ≤ seq) →
        (sp.tagBusy (tidTag s.tid) = false → parks (.srv g a n r) .srv (.port k call) s.thr.p joins
          ∧ parks (.srvnw g p a n r) .srv (.port k call) (set p) joins)
        ∧ (sp.tagBusy (tidTag s.tid) = true → parks (.srvnw g p a n r) .engine (.port k call) (set p) joins))
      ∧ ((plane.nargs ≠ nargs ∨ plane.nrets ≠ nrets) → s.thr.nest = false → s.thr.held = false →
        shapeTrap (.srvnw g p a n r) ∧ (sp.tagBusy (tidTag s.tid) = false → shapeTrap (.srv g a n r))))
    ∧ (sp.tagBusy (tidTag s.tid) = true → parks (.srv g a n r) .engine (.held call) s.thr.p
        (fun t => (t.spire h).places = sp.places ∧ (t.spire h).regions = sp.regions))
    ∧ (sp.placed asid addr = none →
      (sp.tagBusy (tidTag s.tid) = false → (∀ q ∈ sp.places, q.seq ≤ seq) → parks (.srv g a n r) .engine (.hearth call) s.thr.p (fun t =>
        (t.spire h).places = sp.places ++ [⟨asid, addr, s.thr.ptbr, s.thr.kwin, s.thr.prv, some s.tid, seq⟩]))
      ∧ (∃ t, exec (.srvnw g p a n r) s = .next t ∧ others t ∧ t.getP p = (if p = 0 then true else false)
          ∧ (∀ q, q ≠ p → t.getP q = s.getP q) ∧ t.thr.pc = s.thr.pc + 4
          ∧ { t.thr with p := s.thr.p, pc := s.thr.pc } = s.thr ∧ (t.spire h).places = sp.places))
    ∧ (let base := (if image.isSome then 1 else 0) + (if sp.places.any (fun x => decide (x.asid = asid ∧ x.addr = addr)) then 4 else 0)
          + 2 ^ 8 * pins
      (sp.holder asid addr = none → answersBy (.srvq g d a) (BitVec.ofNat 64 base) sameRest)
      ∧ (∀ k reg, sp.holder asid addr = some (k, reg) → reg.st ≠ .loading →
          answersBy (.srvq g d a) (BitVec.ofNat 64 (base + (if reg.st = .placed then 2 else 0) + (if reg.st = .closing then 8 else 0)
            + 2 ^ 16 * min 255 (reg.flights.length + (reg.waiting.filter (fun u => (s.slot u).queue.isEmpty && (s.slot u).park.any (fun k => decide (k.reason = .srv)))).length)
            + 2 ^ 24 * k)) sameRest)
      ∧ (∀ k reg, sp.holder asid addr = some (k, reg) → reg.st = .loading →
          answersBy (.srvq g d a) (BitVec.ofNat 64 ((if image.isSome then 1 else 0) + 4 + 2 ^ 8 * pins)) sameRest))
    ∧ (sp.placed asid addr ≠ none → answersBy (.cfgld g d a) 0 sameRest)
    ∧ (sp.placed asid addr = none → (∀ q ∈ sp.places, q.seq ≤ seq) → answersBy (.cfgld g d a) 1 (fun t => rest t = rest s
        ∧ (t.spire h).places = sp.places ++ [⟨asid, addr, s.thr.ptbr, s.thr.kwin, s.thr.prv, none, seq⟩]))
    ∧ (image = none → answersBy (.cfgpin g d a) 2 sameRest)
    ∧ (∀ i, image = some i →
        (i.pins = 255 → answersBy (.cfgpin g d a) 3 (fun t => sameRest t ∧ (t.spire h).pins asid addr = 255))
        ∧ (i.pins = 0 → 192 < ((sp.hearth.filter (fun j => decide (j.pins ≠ 0))).map (fun j => (j.bytes.length + 4095) / 4096)).sum
              + (i.bytes.length + 4095) / 4096 →
            answersBy (.cfgpin g d a) 2 (fun t => sameRest t ∧ (t.spire h).pins asid addr = 0))
        ∧ (i.pins < 255 → (i.pins ≠ 0
              ∨ ((sp.hearth.filter (fun j => decide (j.pins ≠ 0))).map (fun j => (j.bytes.length + 4095) / 4096)).sum
                + (i.bytes.length + 4095) / 4096 ≤ 192) →
            answersBy (.cfgpin g d a) 0 (fun t => sameRest t ∧ (t.spire h).pins asid addr = i.pins + 1)))
    ∧ (pins = 0 → answersBy (.cfgunpin g d a) 1 (fun t => t.spire h = sp))
    ∧ (pins ≠ 0 → answersBy (.cfgunpin g d a) 0 (fun t => sameRest t ∧ (t.spire h).pins asid addr = pins - 1))
    ∧ (pins ≠ 0 → answersBy (.cfgev g d a) 2 (fun t => t.spire h = sp))
    ∧ (image = none → sp.placed asid addr = none → answersBy (.cfgev g d a) 1 (fun t => t.spire h = sp))
    ∧ (pins = 0 → image ≠ none → (∀ e, sp.holder asid addr = some e → e.2.st = .closing) →
        answersBy (.cfgev g d a) 0 (fun t => t.spire h = { sp with hearth := rest s }))
    ∧ (∀ k reg, pins = 0 → image ≠ none → sp.holder asid addr = some (k, reg) → reg.st = .loading → s.region h k = some reg →
        answersBy (.cfgev g d a) 0 (fun t => (t.spire h).hearth = rest s ∧ (t.spire h).places = sp.places
          ∧ ∃ r', t.region h k = some r' ∧ r'.st = .empty ∧ r'.shadow = none ∧ r'.reserved = none ∧ r'.waiting = reg.waiting))
    ∧ (∀ k reg, pins = 0 → sp.placed asid addr = some (k, reg) → s.region h k = some reg → reg.waiting = [] →
        answersBy (.cfgev g d a) 0 (fun t => (t.spire h).hearth = rest s
          ∧ t.region h k = some { reg with st := .closing, reserved := none })))

/-- R207, R210 to R214, R218, R219, R224: what a call passes through. The hearth begins to place an image of a waiting call into an
empty region of its shape, which is then LOADING; it becomes PLACED and the call goes on to its entry port, behind those that issued earlier; the record enters, x1 first, its last token with DIM 1; a complete return is written to x1 upward, or a
recorded fault traps SRV_POISON; a closed region with nothing left is empty.
Where the rules leave the form open it is the model's: log 14, 24, 26, 27, 28. -/
def Obligations.CallsAndReturns : Prop := ∀ (h k u : Nat) (r : Region) (s : State), s.region h k = some r →
  let v := s.slot u
  let tag := BitVec.ofNat 8 u
  (∀ plane node from_ addr nargs nrets args seq since raised ser, r.active = some plane → plane.entryNode = some node →
    v.park = some ⟨.srv, .port from_ ⟨addr, nargs, nrets, args, seq⟩, since, raised, ser⟩ → v.queue = [] → r.waiting.head? = some u → r.st = .placed →
    r.halt = false → r.cut.state = 0 → (s.spire h).tagBusy tag = false → r.stitched h = false → r.parity = [] →
    (r.tokens ⟨node.site, 0⟩).length + args.length ≤ 8 →
    ∃ t r', exec (.evRecordEntry h k u) s = .next t ∧ t.region h k = some r'
      ∧ r'.waiting = r.waiting.filter (fun x => decide (x ≠ u))
      ∧ r'.flights = r.flights ++ [⟨tag, u, v.gen, nrets, v.asid, v.ptbr, v.kwin, v.prv⟩]
      ∧ r'.tokens ⟨node.site, 0⟩ = r.tokens ⟨node.site, 0⟩ ++ (List.range args.length).map (fun i =>
          ⟨false, tag, if i + 1 = args.length then 1 else 0, .data, 0xFF, args.getD i 0, 0⟩)
      ∧ (∀ q, q ≠ ⟨node.site, 0⟩ → r'.tokens q = r.tokens q)
      ∧ { r' with waiting := r.waiting, flights := r.flights, queues := r.queues, reserved := r.reserved } = r
      ∧ t.slot u = { v with park := some ⟨.srv, .flight k nrets, since, raised, ser⟩ } ∧ (∀ x, x ≠ u → t.slot x = s.slot x)
      ∧ { t with slots := s.slots, spires := s.spires } = s)
  ∧ (∀ f ts since raised ser n, r.flights = [f] → f.tid = u → f.gen = v.gen → v.st = .park →
      v.park = some ⟨.srv, .flight k n, since, raised, ser⟩ → v.held = false → (s.spire h).redirects = [] →
      r.rets = [(f.tag, ts)] → ts.length = f.nrets → (∀ i, i + 1 < ts.length → (ts.getD i ⟨false, 0, 0, .data, 0, 0, 0⟩).dim = 0) →
      (∀ t, ts.getLast? = some t → 1 ≤ t.dim) → ts ≠ [] → ts.length ≤ 8 → r.accs = [] → r.owesAccess f.tag = false →
      (r.faults = [] → (∀ t ∈ ts, t.poison = false) →
        ∃ t r', exec (.evReturnDelivery h k u) s = .next t ∧ t.region h k = some r' ∧ r'.flights = [] ∧ r'.rets = []
          ∧ (t.slot u).st = .run ∧ (t.slot u).park = none ∧ (t.slot u).pc = v.pc + 4
          ∧ (∀ i, i < ts.length → (t.slot u).getX (Fin.ofNat 64 (i + 1)) = (ts.getD i ⟨false, 0, 0, .data, 0, 0, 0⟩).payload)
          ∧ (∀ d : Reg, (d.val = 0 ∨ ts.length < d.val) → (t.slot u).getX d = v.getX d)
          ∧ { t.slot u with x := v.x, st := v.st, park := v.park, pc := v.pc } = v ∧ (∀ x, x ≠ u → t.slot x = s.slot x))
      ∧ (∀ e, r.faults = [e] → e.tag = f.tag → v.nest = false →
        ∃ t r', exec (.evReturnDelivery h k u) s = .next t ∧ t.region h k = some r' ∧ r'.flights = [] ∧ r'.rets = [] ∧ r'.faults = []
          ∧ t.slot u = { v with
              st := .run, park := none, tepc := codeAddr v.pc, tcause := 0x0B
              tsub := BitVec.ofNat 64 (2 ^ 8 * (e.sub % 256) + e.cause.code), tval := e.val, tnode := e.tnode
              pprv := v.prv, prv := (if v.prv = .user then .kernel else v.prv), nest := true, pc := v.tvec }
          ∧ (∀ x, x ≠ u → t.slot x = s.slot x)))
  ∧ (∀ p i plane, (s.spire h).places = [p] → p.tid = some u → (s.spire h).regions = [(k, r)] →
      r.kind = 0 → r.st = .empty → (s.spire h).hearth = [i] → i.asid = p.asid → i.addr = p.addr → parseImage i.bytes = some plane →
      plane.kind = 0 → plane.rows = r.rows → plane.cols = r.cols →
      ∃ t r', exec (.evHearthPlace h k) s = .next t ∧ (t.spire h).regions = [(k, r')] ∧ r'.st = .loading ∧ r'.shadow = some plane
        ∧ r'.active = none ∧ r'.imgAsid = p.asid ∧ r'.imgAddr = p.addr ∧ r'.reserved = some u ∧ r'.queues = [] ∧ r'.nodes = []
        ∧ { t with spires := s.spires } = s
        ∧ (∀ g, { t.spire g with regions := (s.spire g).regions, sites := (s.spire g).sites } = s.spire g))
  ∧ (∀ p plane nargs nrets args seq since raised ser, (s.spire h).places = [p] → p.tid = some u → p.asid = r.imgAsid →
      p.addr = r.imgAddr → r.kind = 0 → r.st = .loading → r.shadow = some plane → r.reserved = some u →
      plane.nargs = nargs → plane.nrets = nrets →
      v.park = some ⟨.engine, .hearth ⟨p.addr, nargs, nrets, args, seq⟩, since, raised, ser⟩ →
      (s.spire h).tagBusy (tidTag u) = false → (∀ x ∈ r.waiting, s.callSeq x ≤ seq) →
      ∃ t r', exec (.evHearthPlace h k) s = .next t ∧ t.region h k = some r' ∧ r'.st = .placed ∧ r'.active = some plane
        ∧ r'.imgAsid = p.asid ∧ r'.imgAddr = p.addr ∧ r'.reserved = some u ∧ r'.waiting = r.waiting ++ [u] ∧ r'.queues = []
        ∧ r'.nodes = [] ∧ (t.spire h).places = [] ∧ (t.spire h).hearth = (s.spire h).hearth
        ∧ t.slot u = { v with
            st := .park, park := some ⟨.srv, .port k ⟨p.addr, nargs, nrets, args, seq⟩, s.turnOf (tidSpire u), false, s.serial⟩ }
        ∧ (∀ x, x ≠ u → t.slot x = s.slot x))
  ∧ (r.kind = 0 → r.st = .closing → r.flights = [] → r.waiting = [] → r.accs = [] →
      ∃ r', exec (.evRegionClosed h k) s = .next (s.setRegion h k r') ∧ r'.st = .empty ∧ r'.active = none ∧ r'.shadow = none
        ∧ r'.queues = [] ∧ r'.nodes = [] ∧ r'.rets = [] ∧ r'.faults = [] ∧ r'.reserved = none)

/-- R234, R236, R239, R246, R247: the integer nodes. Each takes its operands, lane by lane, and sends one token to both consumers;
with IMMB b is the extension word. Where the rules leave the form open it is the model's: log 75. -/
def Obligations.IntegerNodes : Prop := ∀ (x y : BitVec 9) (m : BitVec 6) (s : State) (r : Region) (p : Plane) (node : PNode)
    (q0 q1 : Option PortId) (a : Token),
  let w := 64 / 2 ^ (m.toNat / 16)
  let opt := m.getLsbD 2
  let v := r.nodeState false s.site.site 0
  let lane (i : Nat) (u : Token) : Nat := u.payload.toNat / 2 ^ (w * i) % 2 ^ w
  let imm : Nat := Int.toNat (((node.exts[0]?).getD 0).toInt % ((2 ^ w : Nat) : Int))
  let sg (n : Nat) : Int := if n < 2 ^ (w - 1) then n else n - (2 ^ w : Nat)
  let wrap (z : Int) : Nat := (z % (2 ^ w : Nat)).toNat
  let lo : Int := -(2 ^ (w - 1) : Nat)
  let hi : Int := (2 ^ (w - 1) : Nat) - 1
  let sat (z : Int) : Nat := wrap (if opt then max lo (min hi z) else z)
  let gives (op : Nat) (i : Instr) (mark : Nat) (f : Nat → Nat → Nat) : Prop := CellReady (nodeWord op x y m) s r p node q0 q1 →
    v.emit = none → r.head s.site.site 0 = some a →
    (m.getLsbD 3 = true → ∃ t, SendsOut i [0] [t] [t] v s r p node q0 q1 ∧ LaneToken w mark a [] (fun i => f (lane i a) imm) t)
    ∧ (m.getLsbD 3 = false → ∀ b, r.head s.site.site 1 = some b →
        ∃ t, SendsOut i [0, 1] [t] [t] v s r p node q0 q1 ∧ LaneToken w mark a [b] (fun i => f (lane i a) (lane i b)) t)
  let mark := m.toNat % 4
  let cond (n k : Nat) : Bool :=
    match m.toNat % 8 with
    | 0 => decide (n = k) | 1 => decide (n ≠ k) | 2 => decide (sg n < sg k) | 3 => decide (n < k)
    | 4 => decide (sg n ≤ sg k) | 5 => decide (n ≤ k) | _ => decide (n &&& k ≠ 0)
  (mark ≠ 3 →
    gives 1 (.nIadd x y m) mark (fun n k => sat (sg n + sg k))
    ∧ gives 2 (.nIsub x y m) mark (fun n k => sat (sg n - sg k))
    ∧ gives 3 (.nImul x y m) mark (fun n k => if opt then wrap (sg n * sg k / (2 ^ w : Nat)) else n * k)
    ∧ gives 4 (.nIand x y m) mark (fun n k => n &&& k)
    ∧ gives 5 (.nIor x y m) mark (fun n k => n ||| k)
    ∧ gives 6 (.nIxor x y m) mark (fun n k => n ^^^ k)
    ∧ gives 7 (.nIshl x y m) mark (fun n k => n * 2 ^ (k % w))
    ∧ gives 8 (.nIshr x y m) mark (fun n k => n / 2 ^ (k % w))
    ∧ gives 9 (.nIsra x y m) mark (fun n k => wrap (sg n / (2 ^ (k % w) : Nat)))
    ∧ gives 10 (.nImin x y m) mark (fun n k => if opt then min n k else wrap (min (sg n) (sg k)))
    ∧ gives 11 (.nImax x y m) mark (fun n k => if opt then max n k else wrap (max (sg n) (sg k))))
  ∧ (m.toNat % 8 ≠ 7 → gives 12 (.nIcmp x y m) 0 (fun n k => if cond n k then 2 ^ w - 1 else 0))

/-- R248, R249: the floating-point nodes, lane by lane in FP32 or BF16 under RNE, each result once rounded and without flags; a BF16
lane of EXP2 to RSQ is widened, formed in FP32 and rounded once. -/
def Obligations.FloatNodes : Prop := ∀ (x y : BitVec 9) (m : BitVec 6) (s : State) (r : Region) (p : Plane) (node : PNode)
    (q0 q1 : Option PortId) (a : Token), m.toNat < 32 → m.getLsbD 2 = false → m.toNat % 4 ≠ 3 →
  let half := decide (16 ≤ m.toNat)
  let f := if half then bf16 else fp32
  let w := if half then 16 else 32
  let v := r.nodeState false s.site.site 0
  let val (i : Nat) (u : Token) : FVal := f.decode (u.payload.toNat / 2 ^ (w * i) % 2 ^ w)
  let code (i : Nat) (u : Token) : Nat := u.payload.toNat / 2 ^ (w * i) % 2 ^ w
  let ext : Nat := (((node.exts[0]?).getD 0)).toNat
  let imm : Nat := if half then ext / 2 ^ 16 else ext
  let ready (op : Nat) : Prop := CellReady (nodeWord op x y m) s r p node q0 q1 ∧ v.emit = none ∧ r.head s.site.site 0 = some a
  let mark := m.toNat % 4
  let two (op : Nat) (i : Instr) (go : Nat → Nat → Nat) : Prop := ready op →
    (m.getLsbD 3 = true → ∃ t, SendsOut i [0] [t] [t] v s r p node q0 q1 ∧ LaneToken w mark a [] (fun i => go (code i a) imm) t)
    ∧ (m.getLsbD 3 = false → ∀ b, r.head s.site.site 1 = some b →
        ∃ t, SendsOut i [0, 1] [t] [t] v s r p node q0 q1 ∧ LaneToken w mark a [b] (fun i => go (code i a) (code i b)) t)
  let one (op : Nat) (i : Instr) (go : FVal → Nat × Flags) : Prop := ready op → m.getLsbD 3 = false →
    ∃ t, SendsOut i [0] [t] [t] v s r p node q0 q1 ∧ LaneToken w mark a [] (fun i =>
      if half then (bf16.deliver .rne (fp32.decode (go (val i a)).1)).1 else (go (val i a)).1) t
  two 16 (.nFadd x y m) (fun n k => (fAdd f .rne (f.decode n) (f.decode k)).1)
  ∧ two 17 (.nFmul x y m) (fun n k => (fMul f .rne (f.decode n) (f.decode k)).1)
  ∧ two 19 (.nFmax x y m) (fun n k => (fMinMax f true n k).1)
  ∧ two 20 (.nFmin x y m) (fun n k => (fMinMax f false n k).1)
  ∧ (ready 18 → ∀ c, r.head s.site.site 2 = some c →
      (m.getLsbD 3 = true → ∃ t, SendsOut (.nFma x y m) [0, 2] [t] [t] v s r p node q0 q1
        ∧ LaneToken w mark a [c] (fun i => (fMulAdd f .rne (val i a) (f.decode imm) (val i c)).1) t)
      ∧ (m.getLsbD 3 = false → ∀ b, r.head s.site.site 1 = some b → ∃ t, SendsOut (.nFma x y m) [0, 1, 2] [t] [t] v s r p node q0 q1
        ∧ LaneToken w mark a [b, c] (fun i => (fMulAdd f .rne (val i a) (val i b) (val i c)).1) t))
  ∧ one 24 (.nExp2 x y m) fExp2 ∧ one 25 (.nLog2 x y m) fLog2 ∧ one 26 (.nRcp x y m) fRcp ∧ one 27 (.nRsq x y m) fRsq

/-- R252 to R258, R260: the nodes that choose, repeat, mark or check tokens. STEER and MUX without an open record, JOIN, RECIRC, EOSX,
DUP, DELAY, CONST, TAGCHK and CMPX: what each takes, sends and keeps.
Where the rules leave the form open it is the model's: log 20, 21, 22. -/
def Obligations.CourseNodes : Prop := ∀ (x y : BitVec 9) (m : BitVec 6) (s : State) (r : Region) (p : Plane) (node : PNode)
    (q0 q1 : Option PortId),
  let st := s.site.site
  let v := r.nodeState false st 0
  let ready (op : Nat) (m : BitVec 6) : Prop := CellReady (nodeWord op x y m) s r p node q0 q1 ∧ v.emit = none
  let sends (i : Instr) (pops : List Nat) (o0 o1 : List Token) (v : NodeState) : Prop := SendsOut i pops o0 o1 v s r p node q0 q1
  let out (b : Bool) (t : Token) : List Token × List Token := if b then ([], [t]) else ([t], [])
  let soiled (c t : Token) : Token := { t with poison := t.poison || c.poison }
  let ext (i : Nat) : BitVec 32 := (node.exts[i]?).getD 0
  (ready 32 m → ∀ a, r.head st 0 = some a →
    (m.getLsbD 1 = true → let o := out (decide (v.pos = m.toNat / 4 % 8)) a
      sends (.nSteer x y m) [0] o.1 o.2 { v with pos := if 1 ≤ a.dim then 0 else v.pos + 1 })
    ∧ (m.getLsbD 1 = false → v.open_ = none → ∀ c, r.head st 3 = some c →
      let b := c.payload.getLsbD 0
      let o := out b (soiled c a)
      sends (.nSteer x y m) [0, 3] o.1 o.2
        { v with open_ := if m.getLsbD 0 = true ∧ a.dim = 0 then some (b, c.poison) else none })
    ∧ (m.getLsbD 1 = false → m.getLsbD 0 = true → ∀ b k, v.open_ = some (b, k) →
      let o := out b { a with poison := a.poison || k }
      sends (.nSteer x y m) [0] o.1 o.2 { v with open_ := if a.dim = 0 then some (b, k) else none }))
  ∧ (ready 33 m → ∀ (b : Bool) (t : Token), r.head st (if b then 1 else 0) = some t →
      (v.open_ = some (b, false)
        ∨ (v.open_ = none ∧ ((v.turn = b ∧ (m.getLsbD 0 = false ∨ ∃ z, r.head st (if b then 0 else 1) = some z))
            ∨ (m.getLsbD 0 = true ∧ r.head st (if b then 0 else 1) = none)))) →
      sends (.nJoin x y m) [if b then 1 else 0] [t] [t]
        { v with open_ := if m.toNat / 2 % 8 ≤ t.dim then none else some (b, false)
                 turn := if m.toNat / 2 % 8 ≤ t.dim then !b else v.turn })
  ∧ (ready 34 m → v.open_ = none → ∀ c t, r.head st 3 = some c → r.head st (if c.payload.getLsbD 0 then 1 else 0) = some t →
      sends (.nMux x y m) [if c.payload.getLsbD 0 then 1 else 0, 3] [soiled c t] [soiled c t]
        { v with open_ := if m.getLsbD 0 = true ∧ t.dim = 0 then some (c.payload.getLsbD 0, c.poison) else none })
  ∧ (ready 35 0 → ∀ t : Token, ∀ a : Bool, ∀ q : Nat, ∀ c : Bool,
      (a = false ∧ q = 1 ∨ a = true ∧ q = 0 ∧ r.head st 1 = none ∧ v.count < ((ext 0).toNat : Int)) → r.head st q = some t →
      (c = true ↔ ∃ z, r.head st 2 = some z) → (∀ z, r.head st 2 = some z → z.poison = false) →
      sends (.nRecirc x y) (if c then [q, 2] else [q]) [t] [t]
        { v with count := v.count + (if a then 1 else 0) - (if c then 1 else 0) })
  ∧ (ready 36 m → ∀ a, r.head st 0 = some a →
      let e : Token := ⟨false, a.tag, 7, if m.getLsbD 3 then .endStream else .endTile, 0, 0, 0⟩
      sends (.nEosx x y m) [0] [a] [] { v with pend := if m.toNat % 8 ≤ a.dim then [[(0, e), (1, e)]] else [] })
  ∧ (ready 37 0 → ∀ a, r.head st 0 = some a → sends (.nDup x y) [0] [a] [a] v)
  ∧ (ready 38 0 → ∀ a, r.head st 0 = some a → sends (.nDelay x y) [0] [a] [a] v)
  ∧ (ready 39 0 → ∀ a, r.head st 0 = some a →
      let t : Token := ⟨a.poison, a.tag, a.dim, .data, 0xFF, BitVec.ofNat 64 ((ext 1).toNat * 2 ^ 32 + (ext 0).toNat), 0⟩
      sends (.nConst x y) [0] [t] [t] v)
  ∧ (ready 40 m → ∀ a, r.head st 0 = some a →
      (m.getLsbD 0 = true → (a.tag ^^^ (ext 0).setWidth 8) &&& (ext 0).extractLsb' 8 8 = 0 → sends (.nTagchk x y m) [0] [a] [a] v)
      ∧ (m.getLsbD 0 = false → ∀ b, r.head st 1 = some b → a.tag = b.tag →
          let t : Token := { a with dim := max a.dim b.dim, poison := a.poison || b.poison }
          sends (.nTagchk x y m) [0, 1] [t] [t] v)
      ∧ (m.getLsbD 0 = false → ∀ b, r.head st 1 = some b → a.tag ≠ b.tag → r.faults = [] →
          ∃ t r', exec (.nTagchk x y m) s = .next t ∧ t.region s.site.spire s.site.region = some r'
            ∧ r'.faults = [⟨a.tag, .illegal, 0x43, 0, (node.copyAt (v.pos % max 1 node.rep)).tnode s.site.region⟩] ∧ ({ t with spires := s.spires } = s)))
  ∧ (ready 43 m → m.toNat % 4 ≠ 3 → ∀ a b, r.head st 0 = some a → r.head st 1 = some b →
      let key (u : Token) : Nat := u.payload.toNat / 2 ^ 32
      let idx (u : Token) : Nat := u.payload.toNat % 2 ^ 32
      let sg (n : Nat) : Int := if n < 2 ^ 31 then n else n - (2 ^ 32 : Nat)
      let u := fp32.decode (key a)
      let w := fp32.decode (key b)
      let less : Bool :=
        match m.toNat % 4 with
        | 0 => decide (sg (key a) < sg (key b))
        | 1 => decide (key a < key b)
        | _ => !u.isNaN && (w.isNaN || u.below w || (u.isZero && w.isZero && u.sign && !w.sign))
      let same : Bool := if m.toNat % 4 = 2 then (u.isNaN && w.isNaN) || (!u.isNaN && decide (key a = key b)) else decide (key a = key b)
      let wa := decide (a.valid = 0xFF)
      let wb := decide (b.valid = 0xFF)
      let first := (wa && !wb) || (decide (wa = wb) && (less || (same && decide (idx a ≤ idx b))))
      let k := a.poison || b.poison
      let lo : Token := { (if first then a else b) with poison := k }
      let hi : Token := { (if first then b else a) with poison := k }
      if m.getLsbD 2 then sends (.nCmpx x y m) [0, 1] [hi] [lo] v else sends (.nCmpx x y m) [0, 1] [lo] [hi] v)

/-- R250, R251, R259, R261, R262: CVT, FILTER, COALESCE and the two generators: the tokens of a firing, what later firings send, and
what the node keeps. That a CVT whose FROM names a format latches the header, takes SCALE and LEN from it and poisons on a bad one is
the model's reading (log 76).
Where the rules leave the form open it is the model's: log 76, 107, 108. -/
def Obligations.PackingNodes : Prop := ∀ (x y : BitVec 9) (m : BitVec 6) (s : State) (r : Region) (p : Plane) (node : PNode)
    (q0 q1 : Option PortId),
  let st := s.site.site
  let v := r.nodeState false st 0
  let ready (op : Nat) : Prop := CellReady (nodeWord op x y m) s r p node q0 q1
  let sends (i : Instr) (pops : List Nat) (o0 o1 : List Token) (v : NodeState) : Prop := SendsOut i pops o0 o1 v s r p node q0 q1
  let ext (i : Nat) : BitVec 32 := (node.exts[i]?).getD 0
  let w := 64 / 2 ^ (m.toNat / 16)
  let lane (i : Nat) (u : Token) : Nat := u.payload.toNat / 2 ^ (w * i) % 2 ^ w
  let okLane (i : Nat) (u : Token) : Prop := ∀ j, j < w / 8 → u.valid.getLsbD (w / 8 * i + j) = true
  (ready 28 → v.emit = none → m.toNat / 8 ≤ 6 → (ext 0).toNat % 256 < 255 → ∀ a, r.head st 0 = some a → ∀ h : Header,
      let fmt := if m.toNat % 8 = 6 then 8 else m.toNat % 8
      (if m.toNat % 8 = 7 then v.hdr = some h
        else (v.hdr = none → h = ⟨0, fmt, false, 64, 127⟩) ∧ ∀ l, v.hdr = some l → h = { l with fmt := fmt }) →
      let dest := if m.toNat / 8 = 6 then 8 else m.toNat / 8
      let wf := elemWidth h.fmt
      let wt := elemWidth dest
      let len := min (64 / wf) (h.len - v.seen)
      let bad := a.poison || v.badHdr
      let word := decodeWord h.fmt h.oxt h.scale a.payload a.valid len v.outl
      let val (j : Nat) : Option FVal := (word.1.getD j none).map (applyScale ((ext 0).toNat % 256))
      let code (j : Nat) : Option (Nat × Bool) := (val j).map (convertElem dest)
      let count := (len * wt + 63) / 64
      let floats := (List.range len).filterMap val
      ∃ (toks : List Token) (spent : BitVec 8) (v' : NodeState), toks.length = count
        ∧ (∀ i, i < count → ∃ t, toks[i]? = some t ∧ t.poison = bad ∧ t.tag = a.tag ∧ t.kind = .data
            ∧ t.dim = (if i + 1 = count then a.dim else 0)
            ∧ ∀ j, j < 64 / wt → let c := if i * (64 / wt) + j < len then code (i * (64 / wt) + j) else none
                t.payload.toNat / 2 ^ (wt * j) % 2 ^ wt = (c.map (fun z => z.1 % 2 ^ wt)).getD 0
                ∧ ∀ k, k < wt / 8 → t.valid.getLsbD (wt / 8 * j + k) = c.isSome)
        ∧ (∀ k, k < 8 → spent.getLsbD k = (List.range len).any (fun j =>
            ((code j).map Prod.snd).getD false && decide (wf * j / 8 ≤ k) && decide (k < wf * j / 8 + (wf + 7) / 8)))
        ∧ (spent = 0 ∨ q1 ≠ none → sends (.nCvt x y m) [0] (toks.take 1) (if spent = 0 then [] else [{ a with poison := bad, valid := spent }]) v')
        ∧ v'.pend = toks.tail.map (fun t => [(0, t)])
        ∧ v'.seen = (if h.len ≤ v.seen + len then 0 else v.seen + len)
        ∧ v'.outl = (if h.len ≤ v.seen + len then false else word.2.1)
        ∧ { v' with pend := [], seen := v.seen, outl := v.outl, amax := v.amax, nan := v.nan, cands := v.cands } = v
        ∧ ((ext 0).getLsbD 9 = false ∨ bad = true → v'.amax = v.amax ∧ v'.nan = v.nan ∧ v'.cands = v.cands)
        ∧ ((ext 0).getLsbD 9 = true → bad = false → h.fmt ∉ [5, 6, 8] → r.kind ≠ 0 → floats ≠ [] →
            v'.cands = v.cands ∧ v'.nan = (v.nan || floats.any FVal.isNaN)
            ∧ v'.amax = (if (ext 0).getLsbD 8 = true ∧ floats.any FVal.isNaN = true then 0x7FC00000
                else BitVec.ofNat 32 (((floats.filter (fun u => !u.isNaN)).map (fun u => magCode u)).foldl max v.amax.toNat))))
  ∧ (ready 41 → v.emit = none → ∀ a b, r.head st 0 = some a → r.head st 1 = some b →
      ∃ t, sends (.nFilter x y m) [0, 1] [t] [t] v ∧ t.kind = .data ∧ t.tag = a.tag ∧ t.poison = (a.poison || b.poison)
        ∧ t.dim = a.dim
        ∧ ∀ i, i < 64 / w →
            let keep := okLane i a ∧ okLane i b ∧ lane i b ≠ 0
            (keep → lane i t = lane i a ∧ okLane i t) ∧ (¬ keep → ∀ j, j < w / 8 → t.valid.getLsbD (w / 8 * i + j) = false))
  ∧ (ready 42 → v.emit = none → v.lanes = [] → v.lpois = false → ∀ a, r.head st 0 = some a →
      let lanes := ((List.range (64 / w)).filter (fun i =>
        (List.range (w / 8)).all (fun j => a.valid.getLsbD (w / 8 * i + j)))).map (fun i => lane i a)
      let level := m.toNat % 8
      let packed := (lanes.zipIdx.map (fun z => z.1 * 2 ^ (w * z.2))).sum
      let sent (d : Nat) : Token :=
        ⟨a.poison, a.tag, d, .data, BitVec.ofNat 8 (2 ^ (w / 8 * lanes.length) - 1), BitVec.ofNat 64 packed, 0⟩
      let empty (v' : NodeState) : Prop := v'.lanes = [] ∧ { v' with lanes := v.lanes, ltag := v.ltag, lpois := v.lpois } = v
      (level ≠ 0 → level ≤ a.dim → ∃ v', sends (.nCoalesce x y m) [0] [sent a.dim] [sent a.dim] v' ∧ empty v')
      ∧ ((level = 0 ∨ a.dim < level) →
          (lanes.length = 64 / w → ∃ v', sends (.nCoalesce x y m) [0] [sent a.dim] [sent a.dim] v' ∧ empty v')
          ∧ (lanes.length < 64 / w → lanes ≠ [] → sends (.nCoalesce x y m) [0] [] []
              { v with lanes := lanes.map (BitVec.ofNat 64), ltag := a.tag, lpois := a.poison })
          ∧ (lanes = [] → sends (.nCoalesce x y m) [0] [] [] v)))
  ∧ (∀ e, (ready 48 ∨ ready 49) → v.emit = some e →
      let gen : Prop :=
        let i : Instr := if nodeOp node.word = 48 then .nLoopgen x y m else .nAddrgen x y m
        if e.i < e.n then
          sends i [] [⟨e.poison, e.tag, if e.i + 1 = e.n then e.dim else 0, .data, if e.void then 0 else 0xFF,
            if e.void then 0 else e.base + BitVec.ofNat 64 e.i * e.step, 0⟩] [] { v with emit := some { e with i := e.i + 1 } }
        else sends i [] [] [⟨e.poison, e.tag, e.inDim, .data, 0xFF, e.done, 0⟩] { v with emit := none }
      gen)
  ∧ (ready 48 → v.emit = none → ∀ a, r.head st 0 = some a →
      let n := if a.valid = 0xFF then a.payload.toNat % 2 ^ 32 else 0
      let d := max (m.toNat % 8) a.dim
      let e : Emit := ⟨(a.payload.extractLsb' 32 32).signExtend 64, (ext 0).signExtend 64, 1, max n 1, d, a.tag, a.dim, a.poison,
        BitVec.ofNat 64 n, decide (n = 0)⟩
      let t : Token := ⟨a.poison, a.tag, if n ≤ 1 then d else 0, .data, if n = 0 then 0 else 0xFF,
        if n = 0 then 0 else (a.payload.extractLsb' 32 32).signExtend 64, 0⟩
      sends (.nLoopgen x y m) [0] [t] [] { v with emit := some e })
  ∧ (ready 49 → v.emit = none → ∀ a, r.head st 0 = some a →
      let whole := decide (a.valid = 0xFF)
      let n := if whole then (ext 0).toNat % 2 ^ 24 + 1 else 1
      let d := max (min (m.toNat % 8 + 1) 7) a.dim
      let stride := BitVec.ofNat 40 ((ext 0).toNat / 2 ^ 24 * 2 ^ 32 + (ext 1).toNat)
      let e : Emit := ⟨a.payload, stride.signExtend 64, 1, n, d, a.tag, a.dim, a.poison, if whole then BitVec.ofNat 64 n else 0, !whole⟩
      let t : Token := ⟨a.poison, a.tag, if n = 1 then d else 0, .data, if whole then 0xFF else 0, if whole then a.payload else 0, 0⟩
      sends (.nAddrgen x y m) [0] [t] [] { v with emit := some e })

/-- R263, R265, R212: LDN and STN begin their accesses, ENTRY passes a record on, RETURN groups a server's tokens by tag and passes a
stream configuration's to the outbound port. Where the rules leave the form open it is the model's: log 11, 23. -/
def Obligations.PortNodes : Prop := ∀ (x y : BitVec 9) (m : BitVec 6) (s : State) (r : Region) (p : Plane) (node : PNode)
    (q0 q1 : Option PortId),
  let st := s.site.site
  let v := r.nodeState false st 0
  let size := 2 ^ (m.toNat % 4)
  let begins (i : Instr) (pops : List Nat) (acc : MemAcc) : Prop := ∃ t r', exec i s = .next t
    ∧ t.region s.site.spire s.site.region = some r' ∧ SameButRegion s t ∧ r'.accs = r.accs ++ [acc]
    ∧ (∀ q, queueOf q r'.queues = if q.site = st ∧ q.port ∈ pops then (queueOf q r.queues).drop 1 else queueOf q r.queues)
    ∧ { r' with queues := r.queues, nodes := r.nodes, fired := r.fired, spent := r.spent, accs := r.accs } = r
  let waits (q : Nat) : List Token × List Nat → Prop := fun z =>
    (m.getLsbD 3 = false ∧ z = ([], [])) ∨ (m.getLsbD 3 = true ∧ ∃ b, r.head st q = some b ∧ z = ([b], [q]))
  (CellReady (nodeWord 56 x y m) s r p node q0 q1 → v.emit = none → ∀ a z, r.head st 0 = some a → waits 1 z →
    begins (.nLdn x y m) (0 :: z.2) ⟨st, false, a.tag, (z.1.map Token.dim).foldl max a.dim, a.dim, a.payload, size, m.getLsbD 2, 0, 0,
      (a :: z.1).any Token.poison, decide (a.valid ≠ 0xFF), s.serial, false⟩)
  ∧ (CellReady (nodeWord 57 x y m) s r p node q0 q1 → v.emit = none → ∀ a b z, r.head st 0 = some a → r.head st 1 = some b → waits 2 z →
    let valid := b.valid &&& BitVec.ofNat 8 (2 ^ size - 1)
    begins (.nStn x y m) (0 :: 1 :: z.2) ⟨st, true, a.tag, ((b :: z.1).map Token.dim).foldl max a.dim, a.dim, a.payload, size, false,
      b.payload, valid, (a :: b :: z.1).any Token.poison, decide (a.valid ≠ 0xFF ∨ valid = 0), s.serial, false⟩)
  ∧ (CellReady (nodeWord 62 x y 0) s r p node q0 q1 → v.emit = none → st.unit = 13 → ∀ a, r.head st 0 = some a →
    SendsOut (.nEntry x y) [0] [a] [a] { v with pos := if r.kind = 0 ∧ a.dim = 0 then v.pos + 1 else 0 } s r p node q0 q1)
  ∧ (∀ a, s.region s.site.spire s.site.region = some r → r.st = .placed → r.active = some p →
      p.nodes.filter (fun n => decide (n.site = st)) = [node] → node.arm = 0 → s.site.arm = 0 → node.word = nodeWord 63 x y 0 →
      r.cut.state = 0 → r.passed = [] → v.pend = [] → v.emit = none → st.unit ≠ 13 → st ∉ r.spent → st ∉ r.fired →
      (∀ q, q < 4 → ∀ t, r.head st q = some t → t.kind = .data) → r.head st 0 = some a →
      let taken (q : PortId) : List Token := if q = ⟨st, 0⟩ then (queueOf q r.queues).drop 1 else queueOf q r.queues
      (r.kind = 0 → r.rets = [] → (∃ f ∈ r.flights, f.tag = a.tag) →
        ∃ t r', exec (.nReturn x y) s = .next t ∧ t.region s.site.spire s.site.region = some r' ∧ SameButRegion s t
          ∧ r'.rets = [(a.tag, [a])] ∧ (∀ q, queueOf q r'.queues = taken q)
          ∧ { r' with queues := r.queues, rets := r.rets, fired := r.fired } = r)
      ∧ (r.kind ≠ 0 → (queueOf ⟨st, 4⟩ r.queues).length < 8 →
        ∃ t r', exec (.nReturn x y) s = .next t ∧ t.region s.site.spire s.site.region = some r' ∧ SameButRegion s t
          ∧ (∀ q, queueOf q r'.queues = taken q ++ if q = ⟨st, 4⟩ then [a] else [])
          ∧ { r' with queues := r.queues, fired := r.fired } = r))

/-- R171, R237, R263, R282: an access of a memory node completes: a poisoned one sends poisoned outputs, one without an address or data
makes none, a load sends the value extended, a store writes its valid bytes; the completion token goes with it.
Where the rules leave the form open it is the model's: log 11, 14, 31. -/
def Obligations.MemoryNodeAccesses : Prop := ∀ (h k key : Nat) (s : State) (r : Region) (p : Plane) (node : PNode)
    (q0 q1 : Option PortId) (a : MemAcc) (c : Chunk), s.region h k = some r → r.st = .placed → r.active = some p →
  p.nodes.filter (fun n => decide (n.site = a.site)) = [node] → node.arm = 0 → r.accs = [a] → a.shadow = false → r.parity = [] →
  Paced r p node 0 → Paced r p node 1 →
  (p.edge node 0 = none ∧ q0 = none ∨ ∃ hops q, p.edge node 0 = some (hops, .port q) ∧ q0 = some q) →
  (p.edge node 1 = none ∧ q1 = none ∨ ∃ hops q, p.edge node 1 = some (hops, .port q) ∧ q1 = some q) → (q0 = none ∨ q0 ≠ q1) →
  let rights := s.accessRights h r a
  let ends (o0 o1 : Token) (q : State → Prop) : Prop := ∃ t r', exec (.evMemoryNodeAccessDone h k 0) s = .next t
    ∧ t.region h k = some r' ∧ r'.accs = [] ∧ q t
    ∧ (∀ x, queueOf x r'.queues = queueOf x r.queues ++ (if q0 = some x then [{ o0 with due := arrivesAt r p node 0 }]
        else if q1 = some x then [{ o1 with due := arrivesAt r p node 1 }] else []))
    ∧ { r' with queues := r.queues, accs := r.accs, sent := r.sent, crossings := r.crossings } = r ∧ (∀ u, t.slot u = s.slot u)
  let comp (bad : Bool) : Token := ⟨bad, a.tag, a.cdim, .data, 0, 0, 0⟩
  (a.poison = true → ends (if a.store then comp true else ⟨true, a.tag, a.dim, .data, 0, 0, 0⟩) (comp true) (SameBytes s))
  ∧ (a.poison = false → a.void = true →
      ends (if a.store then comp false else ⟨false, a.tag, a.dim, .data, 0, 0, 0⟩) (comp false) (SameBytes s))
  ∧ (a.poison = false → a.void = false → rights.g = h → a.size = 1 ∨ a.size = 2 ∨ a.size = 4 ∨ a.size = 8 →
      a.addr.toNat % a.size = 0 → c.va = a.addr.toNat → c.key = key → c.len = a.size → c.once = false → 2 ^ 48 ≤ key →
      s.home key = .keep ((key - 2 ^ 48) / 2 ^ 22) ((key - 2 ^ 48) % 2 ^ 22) →
      (a.store = false → s.engineCheck rights (.load a.addr a.size) true = (s, .pass [c]) →
        let w := bytesAt s key a.size
        ends ⟨false, a.tag, a.dim, .data, 0xFF,
            if a.sext then (BitVec.ofNat (8 * a.size) w).signExtend 64 else BitVec.ofNat 64 w, 0⟩ (comp false) (SameBytes s))
      ∧ (a.store = true → a.valid = BitVec.ofNat 8 (2 ^ a.size - 1) → s.checkStore rights a = (s, .pass [c]) →
        ends (comp false) (comp false) (fun t => SameBytesBut key a.size s t
          ∧ ∀ i, i < a.size → memGet (key + i) t.mem = a.data.extractLsb' (8 * i) 8)))

/-- R286 to R288, R379, R380, R410, R411, R437: the region's own steps. A site's shadow plane is written; a place whose end-of-stream
has left it swaps, its tokens passing to the new plane, and the last swap makes that plane active; a BIND whose open port loses its
slot, at the swap of the place or, where the old plane holds no node there, as the site's shadow plane is written, ends with an error;
a halted region with nothing left is quiet; a cut whose places have all passed the marker is done or stopped, with the common trigger.

R280, R290, R291, R379, R380, R402, R408, R409, R419, R428, R448: registers written from outside, in regions, a die and an island.

Where the rules leave the form open it is the model's: log 14, 29, 32, 36, 80. -/
def Obligations.RegionStepsAndRegisters : Prop :=
  (∀ (h k i j u : Nat) (s : State) (r : Region) (p : Plane), s.region h k = some r →
  let st : Site := ⟨i, j, u⟩
  (r.active = some p → r.st = .swapping → i < r.rows → j < r.cols → (i, j) ∉ r.written →
    (∃ n ∈ p.nodes, (∃ c ∈ n.cells, c.row = i ∧ c.col = j) ∧ n.site ∉ r.swapped) →
    r.binds = [] → exec (.evShadowWrite h k i j) s = .next (s.setRegion h k { r with written := r.written ++ [(i, j)] }))
  ∧ (∀ b x e q c, r.active = some p → r.st = .swapping → i < r.rows → j < r.cols → (i, j) ∉ r.written →
      (∀ n ∈ p.nodes, st ∉ n.cells) → (∃ n ∈ p.nodes, n.site ∉ r.swapped) → r.binds = [b] → b.ports = [x] →
      r.entries[x.entry]? = some e → e.site = st → e.sink = true → x.ended = false → r.shadow = some q →
      (∀ n ∈ q.nodes, st ∉ n.cells) → queueOf ⟨st, 4⟩ r.queues = [] → (s.queue b.queue).cmds = [c] → c.idx.toNat = b.packet →
      ∃ t r', exec (.evShadowWrite h k i j) s = .next t ∧ t.region h k = some r' ∧ r'.written = r.written ++ [(i, j)] ∧ r'.binds = []
        ∧ (t.queue b.queue).cmds = [{ c with done := true, stalled := none }])
  ∧ (r.active = some p → r.st = .swapping → st ∈ r.passed → st ∉ r.swapped → (i, j) ∈ r.written →
      (∃ c, r.sentEnd.find? (fun e => decide (e.1 = st)) = some (st, c)
        ∧ ∀ n ∈ p.nodes, n.site = st → n.cells = [st] ∧ (r.nodeState false st n.arm).pend = [] ∧ c + nodeCycles n < r.clock) →
      ((∃ n ∈ p.nodes, n.site ≠ st ∧ n.site ∉ r.swapped) → r.binds = [] →
        ∃ t r', exec (.evCellSwap h k i j u) s = .next t ∧ t.region h k = some r' ∧ r'.swapped = r.swapped ++ [st]
          ∧ (∀ q, q < 4 → queueOf ⟨st, q⟩ r'.queues = []
              ∧ queueOf ⟨st, q⟩ r'.squeues = queueOf ⟨st, q⟩ r.queues ++ queueOf ⟨st, q⟩ r.squeues)
          ∧ (∀ x, (x.site ≠ st ∨ 4 ≤ x.port) → queueOf x r'.queues = queueOf x r.queues ∧ queueOf x r'.squeues = queueOf x r.squeues)
          ∧ { r' with swapped := r.swapped, queues := r.queues, squeues := r.squeues } = r)
      ∧ (∀ b x e q c, (∃ n ∈ p.nodes, n.site ≠ st ∧ n.site ∉ r.swapped) → r.binds = [b] → b.ports = [x] →
          r.entries[x.entry]? = some e → e.site = st → e.sink = true → x.ended = false → r.shadow = some q →
          (∀ n ∈ q.nodes, st ∉ n.cells) → queueOf ⟨st, 4⟩ r.queues = [] → (s.queue b.queue).cmds = [c] → c.idx.toNat = b.packet →
        ∃ t r', exec (.evCellSwap h k i j u) s = .next t ∧ t.region h k = some r' ∧ r'.swapped = r.swapped ++ [st] ∧ r'.binds = []
          ∧ (t.queue b.queue).cmds = [{ c with done := true, stalled := none }])
      ∧ ((∀ n ∈ p.nodes, n.site = st ∨ n.site ∈ r.swapped) → r.binds = [] →
          (∀ x y, x < r.rows → y < r.cols → (x, y) ∈ r.written) →
        ∃ t r', exec (.evCellSwap h k i j u) s = .next t ∧ t.region h k = some r' ∧ r'.st = .placed ∧ r'.active = r.shadow
          ∧ r'.shadow = r.active ∧ r'.written = [] ∧ r'.swapped = [] ∧ r'.passed = [] ∧ r'.nodes = r.snodes))
  ∧ (r.halt = true → r.quiet = false →
      (r.kind ≠ 2 → r.holdsToken = false → r.accs = [] → r.flights = [] →
        (r.cut.stop = true → r.cut.state ≠ 1 ∧ r.cut.state ≠ 3) →
        exec (.evRegionQuiet h k) s = .next (s.setRegion h k { r with quiet := true }))
      ∧ (r.kind = 2 → r.st = .halted → exec (.evRegionQuiet h k) s = .next (s.setRegion h k { r with quiet := true })))
  ∧ (r.cut.state = 1 → (∀ n ∈ r.liveNodes, n.site ∈ r.cut.passed) →
      ∃ t, exec (.evCutDone h k) s = .next t
        ∧ t.region h k = some { r with cut := { r.cut with state := if r.cut.stop then 3 else 2 } } ∧ s.now ∈ t.trig
        ∧ (s.now ∉ s.trig → t.dbgout = max s.dbgout (s.now + 16)
          ∧ ∀ g, g < 160 → (t.spire g).dbg.seq = (s.spire g).dbg.seq + 1)
        ∧ (s.now ∈ s.trig → ∀ g, (t.spire g).dbg.seq = (s.spire g).dbg.seq)))
  ∧ (∀ (h k n v : Nat) (s : State) (r : Region), s.region h k = some r →
  let w : Word := BitVec.ofNat 64 v
  let gives (i : Instr) (r' : Region) : Prop := exec i s = .next (s.setRegion h k r')
  (∀ block idx p node, block < 256 → idx < 64 → r.active = some p →
    (r.st = .swapping → r.inShadow node.site = false
      ∧ ∀ q, r.shadow = some q → ∀ y ∈ q.nodes, y.block = block → y.idx = idx → r.inShadow y.site = false) →
    p.nodes.find? (fun x => decide (x.block = block ∧ x.idx = idx)) = some node → nodeOp node.word = 0x1C →
    ∃ r', gives (.evNodeStateWrite h k (block * 0x200 + idx * 8)) r'
      ∧ nodeStateOf (node.site, node.arm) r'.nodes
          = { nodeStateOf (node.site, node.arm) r.nodes with amax := 0, nan := false }
      ∧ (∀ x, x ≠ (node.site, node.arm) → nodeStateOf x r'.nodes = nodeStateOf x r.nodes) ∧ { r' with nodes := r.nodes } = r)
  ∧ (∀ block idx p node, block < 256 → idx < 64 → r.shadow = some p → r.st = .swapping →
    (node.site ∈ r.swapped ∨ (∀ q, r.active = some q → q.holds node.site = false) ∧ (node.site.row, node.site.col) ∈ r.written) →
    p.nodes.find? (fun x => decide (x.block = block ∧ x.idx = idx)) = some node → nodeOp node.word = 0x1C →
    ∃ r', gives (.evNodeStateWrite h k (block * 0x200 + idx * 8)) r'
      ∧ nodeStateOf (node.site, node.arm) r'.snodes
          = { nodeStateOf (node.site, node.arm) r.snodes with amax := 0, nan := false }
      ∧ (∀ x, x ≠ (node.site, node.arm) → nodeStateOf x r'.snodes = nodeStateOf x r.snodes) ∧ { r' with snodes := r.snodes } = r)
  ∧ (v % 2 = 1 → gives (.evRctlWrite h k v) { r with halt := true })
  ∧ (v % 2 = 0 → r.st ≠ .halted → gives (.evRctlWrite h k v) { r with halt := false, quiet := false })
  ∧ (v % 2 = 0 → r.st = .halted → gives (.evRctlWrite h k v) { r with
      halt := false, quiet := false, st := if r.matrix.weights.isSome then .halted else if r.matrix.queue = [] then .empty else .busy
      matrix := { r.matrix with reload := r.matrix.weights.isSome } })
  ∧ (∀ m : Fin 4, ∃ r', gives (.evBkcfgWrite h k m.val v) r'
      ∧ r'.bks[m] = ⟨w.getLsbD 63, v / 2 ^ 61 % 4, v / 2 ^ 40 % 2 ^ 8, v / 2 ^ 30 % 2 ^ 10, v / 2 ^ 24 % 2 ^ 6, (r.bks[m]).target, 0, false⟩
      ∧ (∀ x : Fin 4, x ≠ m → r'.bks[x] = r.bks[x]) ∧ { r' with bks := r.bks } = r)
  ∧ (v % 2 ^ 32 = 0 → gives (.evRefusedWrite h k v) { r with refused := 0, viol := none })
  ∧ (v % 2 ^ 32 ≠ 0 → gives (.evRefusedWrite h k v) { r with refused := BitVec.ofNat 32 v })
  ∧ (n = 1 → s.die0.booted = false → exec (.evRegisterWrite (0x1100000000 + 0x10000 * n) v) s = .next s)
  ∧ (n = 0 ∨ n = 1 ∧ s.die0.booted = true → exec (.evRegisterWrite (0x1100000000 + 0x10000 * n) v) s = .next (s.setDie n { s.die n with evq := BitVec.ofNat 6 v }))
  ∧ (n < 512 → exec (.evRegisterWrite (0x3000000000 + 8 * n) v) s = .next (s.setIsland n { s.island n with
      on := w.getLsbD 0, vfreq := if v / 2 ^ 16 % 2 ^ 4 ≤ 7 then v / 2 ^ 16 % 2 ^ 4 else (s.island n).vfreq }))
  ∧ (h < 160 → k < 64 → exec (.evRegisterWrite (h * 0x1000000 + k * 0x40000 + 0x20018) v) s
      = .next (s.setRegion h k { r with dropped := BitVec.ofNat 32 v })))

/-- R296, R303 to R309: the MATRIX family by its tables: the statuses in their order, OPEN, SHAPE, CLEAR and CLOSE, the drain descriptor,
operations queued with copies of the shape and the drain, the parks for earlier accesses and for a full queue, which end in 0 or 4 alone, the metadata check, and MXST's words.
Where the rules leave the form open it is the model's: log 34, 36. -/
def Obligations.MatrixInstructions : Prop := ∀ (g : Guard) (d a : Reg) (n : BitVec 6) (s : State), s.guardOk g = true →
  let sp := tidSpire s.tid
  let x := s.getX a
  let y := s.getX (a + 1)
  let h := s.thr.handle s.tid
  let entry := s.region sp n.toNat
  let status (i : Instr) (w : Word) : Prop := GivesX i d w s
  let none_ : Prop := entry = none ∨ ∃ r, entry = some r ∧ r.kind ≠ 2
  let bits (lo k : Nat) : Nat := x.toNat / 2 ^ lo % 2 ^ k
  let op := bits 52 4
  let k (fmt : Nat) : Nat :=
    if fmt = 9 then 1 else if fmt = 0 then 2 else if fmt = 1 ∨ fmt = 2 then 4 else if fmt = 6 ∨ fmt = 7 then 16 else 8
  let badWord : Prop := bits 56 8 ≠ 2 ∨ 3 < op ∨ (op = 1 ∧ (bits 44 2 ≠ 0 ∨ bits 32 2 ≠ 0 ∨ bits 0 16 ≠ 0)) ∨ (op ≠ 1 ∧ bits 0 52 ≠ 0)
  let fmt := bits 48 4
  let sparse := x.getLsbD 46
  let badShape : Prop := op = 1 ∧ (fmt = 8 ∨ 9 < fmt ∨ (sparse = true ∧ (fmt = 9 ∨ (bits 40 4 + 1) * k fmt % 4 ≠ 0)))
  (x.toNat % 8 ≠ 0 → TrapsWith (.mxw g d a n) .align 1 x s ∧ TrapsWith (.mxa g d a n) .align 1 x s
      ∧ TrapsWith (.mxmd g d a n) .align 1 x s)
  ∧ (badWord ∨ badShape → status (.mxc g d a n) 3)
  ∧ (none_ → (x.toNat % 8 = 0 → status (.mxw g d a n) 1 ∧ status (.mxa g d a n) 1 ∧ status (.mxmd g d a n) 1)
      ∧ status (.mxd g d a n) 1 ∧ (¬ badWord → ¬ badShape → status (.mxc g d a n) 1) ∧ status (.mxst g d a n) 0)
  ∧ (∀ r, entry = some r → r.kind = 2 →
    let m := r.matrix
    let kept (i : Instr) (r' : Region) : Prop := GivesRegion i d 0 n.toNat r' s
    let queued (i : Instr) (o : MatOp) : Prop :=
      (m.queue.length < 4 → kept i { r with
          st := if r.st = .empty then .busy else r.st, matrix := { m with queue := m.queue ++ [o] } })
      ∧ (4 ≤ m.queue.length → ∃ t, exec i s = .next t ∧ Parks .engine (.matrix n.toNat o d) s t)
    let early (i : Instr) (o : ParkOp) : Prop := s.thr.queue ≠ [] → ∃ t, exec i s = .next t ∧ Parks .mem o s t
    (m.owner ≠ some h →
      (x.toNat % 8 = 0 → status (.mxw g d a n) 2 ∧ status (.mxa g d a n) 2 ∧ status (.mxmd g d a n) 2) ∧ status (.mxd g d a n) 2
      ∧ (¬ badWord → (op = 2 ∨ op = 3) → status (.mxc g d a n) 2))
    ∧ (¬ badWord → op = 0 →
        (m.owner = none → kept (.mxc g d a n) { r with matrix := { m with
          owner := some h, asid := s.thr.asid, ptbr := s.thr.ptbr, kwin := s.thr.kwin, prv := s.thr.prv } })
        ∧ (m.owner = some h → status (.mxc g d a n) 0)
        ∧ (m.owner ≠ none → m.owner ≠ some h → status (.mxc g d a n) 2))
    ∧ (¬ badWord → ¬ badShape → op = 1 →
        let cols := ((List.range r.cols).filter (fun c => decide ((r.ocol + c) % 8 ≠ 7))).length
        (r.rows ≤ bits 40 4 ∨ cols ≤ bits 34 6 → status (.mxc g d a n) 3)
        ∧ (bits 40 4 < r.rows → bits 34 6 < cols →
            (m.owner ≠ some h → status (.mxc g d a n) 2)
            ∧ (m.owner = some h → kept (.mxc g d a n) { r with matrix := { m with
                shape := some ⟨fmt, x.getLsbD 47, sparse, bits 40 4 + 1, bits 34 6 + 1, bits 16 16 + 1⟩ } })))
    ∧ (m.owner = some h →
      (¬ badWord → op = 2 → kept (.mxc g d a n) (if r.st = .faulted
          then { r with st := .empty, matrix := { m with qdup := false, fcause := 0, ftsub := 0, faddr := 0 } }
          else { r with matrix := { m with qdup := false } }))
      ∧ (¬ badWord → op = 3 →
          (m.queue ≠ [] → ∃ t, exec (.mxc g d a n) s = .next t ∧ Parks .engine (.wait (.matrixEmpty n.toNat)) s t)
          ∧ (m.queue = [] → ∃ r', kept (.mxc g d a n) r' ∧ r'.st = .empty ∧ r'.matrix.owner = none ∧ r'.matrix.shape = none
              ∧ r'.matrix.drain = none ∧ r'.matrix.weights = none ∧ r'.matrix.qdup = false ∧ r'.matrix.fcause = 0
              ∧ r'.matrix.ftsub = 0 ∧ r'.matrix.faddr = 0 ∧ { r' with st := r.st, quiet := r.quiet, matrix := m } = r))
      ∧ (m.shape = none → (x.toNat % 8 = 0 → status (.mxw g d a n) 3 ∧ status (.mxa g d a n) 3 ∧ status (.mxmd g d a n) 3)
          ∧ status (.mxd g d a n) 3)
      ∧ (∀ sh, m.shape = some sh →
        let e := if sh.fmt = 9 then 8 else 4
        let badDrain : Prop := 2 ^ 48 ≤ x.toNat ∨ x.toNat % e ≠ 0 ∨ y.toNat % e ≠ 0
        (badDrain → status (.mxd g d a n) 3)
        ∧ (¬ badDrain → r.st = .faulted → status (.mxd g d a n) 4)
        ∧ (¬ badDrain → r.st ≠ .faulted → kept (.mxd g d a n) { r with matrix := { m with drain := some (x, y) } })
        ∧ (x.toNat % 8 = 0 →
          (sh.sparse = true → status (.mxw g d a n) 3)
          ∧ (sh.sparse = false → status (.mxmd g d a n) 3)
          ∧ (sh.sparse = false → r.st = .faulted → status (.mxw g d a n) 4)
          ∧ (sh.sparse = false → r.st ≠ .faulted →
              early (.mxw g d a n) (.matrix n.toNat (.wload x sh []) d) ∧ (s.thr.queue = [] → queued (.mxw g d a n) (.wload x sh [])))
          ∧ (m.drain = none ∨ (m.weights = none ∧ ∀ o ∈ m.queue, ∀ u z w, o ≠ .wload u z w) → status (.mxa g d a n) 3)
          ∧ (∀ dst pitch, m.drain = some (dst, pitch) → (m.weights ≠ none ∨ ∃ u z w, MatOp.wload u z w ∈ m.queue) →
              (r.st = .faulted → status (.mxa g d a n) 4)
              ∧ (r.st ≠ .faulted → early (.mxa g d a n) (.matrix n.toNat (.tile x sh dst pitch) d) ∧ (s.thr.queue = [] → queued (.mxa g d a n) (.tile x sh dst pitch))))
          ∧ (sh.sparse = true → r.st = .faulted → status (.mxmd g d a n) 4)
          ∧ (sh.sparse = true → r.st ≠ .faulted → early (.mxmd g d a n) (.wait .drained) ∧ (s.thr.queue = [] →
              ∀ c, let groups := sh.uc * (if sh.fmt = 0 ∨ sh.fmt = 9 then 1 else 2) * (sh.ur * k sh.fmt) / 4
                let size := (groups + 1) / 2
                tileOf sh.fmt ≠ none → 0 < size → size ≤ 32 →
                s.check s.ctx ⟨.read, y, size, false, false, false, false, true⟩ = .pass [c] → c.va = y.toNat → c.len = size →
                y.toNat % size = 0 → y.toNat % 32 = 0 → 2 ^ 48 ≤ c.key → NoError s c.key size →
                s.home c.key = .keep ((c.key - 2 ^ 48) / 2 ^ 22) ((c.key - 2 ^ 48) % 2 ^ 22) →
                (∃ t, exec (.mxmd g d a n) s = .next t ∧ Parks .mem (.metadata n.toNat x y sh [⟨0, c.key, size, y.toNat⟩] d) s t)
                ∧ (∀ u key since raised ser, tidSpire u = sp → (s.slot u).st = .park →
                    (s.slot u).park = some ⟨.mem, .metadata n.toNat x y sh [⟨0, key, size, y.toNat⟩] d, since, raised, ser⟩ →
                    s.home key = .keep ((key - 2 ^ 48) / 2 ^ 22) ((key - 2 ^ 48) % 2 ^ 22) → 2 ^ 48 ≤ key → NoError s key size →
                  let v := s.slot u
                  let nib (q : Nat) : Nat := bytesAt s key size / 16 ^ q % 16
                  let others (t : State) : Prop := (∀ z, z ≠ u → t.slot z = s.slot z)
                  ((∀ q, q < groups → nib q % 4 ≠ nib q / 4) → m.queue.length < 4 →
                    ∃ t, exec (.evThreadResume u) s = .next t ∧ t.region sp n.toNat = some { r with
                        st := if r.st = .empty then .busy else r.st
                        matrix := { m with queue := m.queue ++ [.wload x sh (memRead key size s.mem)] } }
                      ∧ (t.slot u).getX d = 0 ∧ (∀ z, z ≠ d → (t.slot u).getX z = v.getX z)
                      ∧ { t.slot u with x := v.x } = { v with st := .run, park := none, pc := v.pc + 4 } ∧ others t)
                  ∧ ((∀ q, q < groups → nib q % 4 ≠ nib q / 4) → 4 ≤ m.queue.length →
                    ∃ t p, exec (.evThreadResume u) s = .next t ∧ t.region sp n.toNat = some r
                      ∧ t.slot u = { v with park := some p } ∧ p.reason = .engine
                      ∧ p.op = .matrix n.toNat (.wload x sh (memRead key size s.mem)) d ∧ others t)
                  ∧ (∀ q, q < groups → nib q % 4 = nib q / 4 → (∀ z, z < q → nib z % 4 ≠ nib z / 4) → v.nest = false →
                    v.held = false → ∃ t, exec (.evThreadResume u) s = .next t ∧ t.region sp n.toNat = some r
                      ∧ t.slot u = { v with
                          st := .run, park := none, tepc := codeAddr v.pc, tcause := 0x0F
                          tsub := BitVec.ofNat 64 (4 * (q % 2)), tval := y + BitVec.ofNat 64 (q / 2), tnode := 0
                          pprv := v.prv, prv := (if v.prv = .user then .kernel else v.prv), nest := true, pc := v.tvec }
                      ∧ others t)))))))
    ∧ (∀ u o why since raised ser, tidSpire u = sp → (s.slot u).st = .park →
      (s.slot u).park = some ⟨why, .matrix n.toNat o d, since, raised, ser⟩ → (s.slot u).queue = [] →
      let ends (w : Word) (t : State) : State :=
        t.setSlot u { (s.slot u).setX d w with st := .run, park := none, pc := (s.slot u).pc + 4 }
      (r.st = .faulted → exec (.evThreadResume u) s = .next (ends 4 s))
      ∧ (r.st ≠ .faulted → m.queue.length < 4 → exec (.evThreadResume u) s = .next (ends 0 (s.setRegion sp n.toNat { r with
          st := if r.st = .empty then .busy else r.st, matrix := { m with queue := m.queue ++ [o] } }))))
    ∧ (let idle := m.queue = [] ∧ (r.st = .empty ∨ r.st = .faulted)
       (x.getLsbD 2 = true → ¬ idle → ∃ t, exec (.mxst g d a n) s = .next t ∧ Parks .engine (.wait (.matrixIdle n.toNat)) s t)
       ∧ (x.getLsbD 2 = false ∨ idle →
          status (.mxst g d a n) (match bits 0 2 with
            | 0 => BitVec.ofNat 64 (m.frow * 2 ^ 32 + m.fcause * 2 ^ 24 + m.ftsub * 2 ^ 16 + m.queue.length * 2 ^ 8
                + (if m.qdup then 2 ^ 7 else 0) + (if m.weights.isSome then 2 ^ 6 else 0) + (if m.owner = some h then 2 ^ 5 else 0)
                + r.st.code)
            | 1 => m.faddr
            | _ => 0))))

/-- R85, R298 to R303, R310, R312, R314, R406, R409: a matrix region's own steps. The next operation starts, or faults on weights of another shape; the
stream's words are taken as headers, checked, and as elements; the last of a load brings its weights into force; a region that is
resumed reads the weights in force again before it leaves HALTED; a row is computed
cell row by cell row from the south-going accumulator and stored; HALT takes effect between operations.
An operation enters at the west edge as a control token, then word by word; a breakpoint on port a of a used row's westmost cell
counts each; the cells that compute a row are FIRED.
Where the rules leave the form open it is the model's: log 14, 33, 34, 35, 36. -/
def Obligations.MatrixSteps : Prop := ∀ (h k : Nat) (s : State) (r : Region), s.region h k = some r → r.kind = 2 →
  let m := r.matrix
  let gives (i : Instr) (r' : Region) : Prop := exec i s = .next (s.setRegion h k r')
  let enters (kind : TKind) (w : Word) (i : Instr) (r' : Region) : Prop := ∀ rows,
    (∀ u, m.run = some u → (∃ a sh md, u.op = .wload a sh md ∧ rows = sh.ur) ∨ (∃ a sh dst pitch, u.op = .tile a sh dst pitch ∧ rows = sh.ur)) →
    exec i s = .next ((s.setRegion h k r').westEdge h k rows kind w)
  let starts (mop : Nat) (sh : TileShape) (i : Instr) (r' : Region) : Prop :=
    exec i s = .next ((s.setRegion h k r').westEdge h k sh.ur .control (BitVec.ofNat 64 (2 * 2 ^ 56 + mop * 2 ^ 52 + sh.fmt * 2 ^ 48
      + (if sh.acc then 2 ^ 47 else 0) + (if sh.sparse then 2 ^ 46 else 0) + (sh.ur - 1) * 2 ^ 40 + (sh.uc - 1) * 2 ^ 34
      + (sh.m - 1) * 2 ^ 16)))
  let faults (i : Instr) (code sub : Nat) (addr : Word) (r : Region) : Prop := gives i { r with
    st := .faulted, matrix := { r.matrix with queue := [], run := none, fcause := code, ftsub := sub, faddr := addr } }
  (m.run = none → r.halt = false → (r.st = .empty ∨ r.st = .busy) → m.closing = false →
    (∀ a sh md rest, m.queue = .wload a sh md :: rest → ∃ u, starts 8 sh (.evMatrixOpStart h k) { r with
        st := .busy, matrix := { m with run := some u } } ∧ u.op = .wload a sh md ∧ u.next = a ∧ u.unit = 0 ∧ u.have_ = 0 ∧ u.left = 0
        ∧ u.elems = [] ∧ u.again = false)
    ∧ (∀ a sh dst pitch rest, m.queue = .tile a sh dst pitch :: rest →
        (∀ w, m.weights = some w →
          (w.shape.fmt ≠ sh.fmt ∨ w.shape.ur ≠ sh.ur ∨ w.shape.uc ≠ sh.uc ∨ w.shape.sparse ≠ sh.sparse →
            faults (.evMatrixOpStart h k) Cause.shape.code 0x12 0 { r with matrix := { m with frow := 0 } })
          ∧ (w.shape.fmt = sh.fmt → w.shape.ur = sh.ur → w.shape.uc = sh.uc → w.shape.sparse = sh.sparse →
            (m.reload = false → ∃ u, starts 9 sh (.evMatrixOpStart h k) { r with
                st := .busy, matrix := { m with frow := 0, run := some u } } ∧ u.op = .tile a sh dst pitch ∧ u.next = a)
            ∧ (m.reload = true → ∃ u, starts 8 w.shape (.evMatrixOpStart h k) { r with
                st := .busy, matrix := { m with run := some u } } ∧ u.op = .wload w.addr w.shape w.md ∧ u.next = w.addr
                ∧ u.again = true)))))
  ∧ (∀ w, m.run = none → r.halt = false → r.st = .halted → m.reload = true → m.weights = some w →
      ∃ u, starts 8 w.shape (.evMatrixOpStart h k) { r with matrix := { m with run := some u } }
        ∧ u.op = .wload w.addr w.shape w.md ∧ u.next = w.addr ∧ u.unit = 0 ∧ u.have_ = 0 ∧ u.left = 0 ∧ u.elems = []
        ∧ u.again = true)
  ∧ (∀ u bs, m.run = some u → u.done = false → r.parity = [] → m.closing = false →
      s.engineRead ⟨h, m.asid, m.ptbr, m.kwin, m.prv⟩ u.next 8 true = (s, .ok bs) →
      let w : Word := BitVec.ofNat 64 (leNat bs)
      let f (lo n : Nat) : Nat := w.toNat / 2 ^ lo % 2 ^ n
      let units := match u.op with
        | .wload _ sh _ => sh.uc * (if sh.fmt = 0 ∨ sh.fmt = 9 then 1 else 2)
        | .tile _ sh _ _ => sh.m
      let size := match u.op with
        | .wload _ sh _ => if sh.sparse then sh.depth / 2 else sh.depth
        | .tile _ sh _ _ => sh.depth
      let takes := match u.op with
        | .wload _ sh _ => decide (f 16 4 = sh.fmt)
        | .tile _ sh _ _ => tileAccepts sh.fmt (f 16 4)
      let sound := f 56 8 = 1 ∧ f 24 32 = 0 ∧ 1 ≤ f 8 7 ∧ f 8 7 ≤ 64 ∧ f 16 4 ≤ 9
      let fits := u.have_ + f 8 7 ≤ size ∧ (w.getLsbD 15 = true ↔ u.unit + 1 = units ∧ u.have_ + f 8 7 = size)
      (match u.op with
        | .wload _ sh _ => tileOf sh.fmt ≠ none
        | .tile _ sh _ _ => tileOf sh.fmt ≠ none) →
      let refuses (code sub : Nat) : Prop := enters .control w (.evMatrixStreamRead h k) { r with
        st := .faulted, matrix := { m with queue := [], run := none, fcause := code, ftsub := sub, faddr := u.next } }
      (u.left = 0 → ¬ sound → refuses Cause.illegal.code 0x40)
      ∧ (u.left = 0 → sound → takes = false → refuses Cause.shape.code 0x10)
      ∧ (u.left = 0 → sound → takes = true → ¬ fits → refuses Cause.shape.code 0x11)
      ∧ (u.left = 0 → sound → takes = true → fits → enters .control w (.evMatrixStreamRead h k) { r with matrix := { m with run := some { u with
          next := u.next + 8, hdr := ⟨f 20 4, f 16 4, w.getLsbD 15, f 8 7, f 0 8⟩, left := f 8 7, had := false } } })
      ∧ (u.left ≠ 0 →
        let n := min (64 / elemWidth u.hdr.fmt) u.left
        let word := decodeWord u.hdr.fmt u.hdr.oxt u.hdr.scale w 0xFF n u.had
        let m' : Matrix := { m with qdup := m.qdup || word.2.2 }
        let u' : MatRun := { u with
          next := u.next + 8, left := u.left - n, had := word.2.1
          elems := u.elems ++ word.1.map (fun e => e.getD (.fin false 0 0)) }
        (u.have_ + n < size → enters .data w (.evMatrixStreamRead h k)
            { r with matrix := { m' with run := some { u' with have_ := u.have_ + n } } })
        ∧ (size ≤ u.have_ + n → (∃ a sh dst pitch, u.op = .tile a sh dst pitch) → enters .data w (.evMatrixStreamRead h k)
            { r with matrix := { m' with run := some { u' with unit := u.unit + 1, have_ := 0, done := true } } })
        ∧ (size ≤ u.have_ + n → u.unit + 1 = units → u.again = false → ∀ a sh md, u.op = .wload a sh md → sh.sparse = false →
            enters .data w (.evMatrixStreamRead h k) { r with
              st := if m.queue.drop 1 = [] then .empty else .busy
              matrix := { m' with
                weights := some ⟨sh, a, md, u'.elems.map some⟩, reload := false, queue := m.queue.drop 1, run := none } })
        ∧ (size ≤ u.have_ + n → u.unit + 1 = units → u.again = true → ∀ a sh md, u.op = .wload a sh md → sh.sparse = false →
            enters .data w (.evMatrixStreamRead h k) { r with
              st := if m.queue = [] then .empty else .busy
              matrix := { m' with weights := some ⟨sh, a, md, u'.elems.map some⟩, reload := false, run := none } })))
  ∧ (∀ u w a sh dst pitch t, m.run = some u → m.weights = some w → u.op = .tile a sh dst pitch → u.done = true → sh.acc = false →
      m.closing = false →
      let va := dst + BitVec.ofNat 64 (u.unit - 1) * pitch
      let cell (j : Nat) : Nat := (List.range sh.ur).foldl (fun north i =>
        let products := List.zipWith product ((u.elems.drop (i * sh.k)).take sh.k) ((w.cols.drop (j * sh.depth + i * sh.k)).take sh.k)
        match tileAcc sh.fmt with
        | some f => (fAdd f .rne (f.decode north) (f.decode (f.deliver .rne (exactSum .rne products).1).1)).1
        | none => (((north : Int) + products.foldl (fun t v => t + v.scaled 0) 0) % (2 ^ 32 : Nat)).toNat) 0
      s.engineStore ⟨h, m.asid, m.ptbr, m.kwin, m.prv⟩ va
          ((List.range sh.width).flatMap (fun j => leBytes (if sh.fmt = 9 then 8 else 4) (cell j))) true = (t, none) →
      ∀ r', t.region h k = some r' → r'.matrix.closing = false → exec (.evRowDrain h k) s = .next (t.setRegion h k (Region.cellsFire sh
        (if u.unit = sh.m then { r' with
            st := if r'.matrix.queue.drop 1 = [] then .empty else .busy
            matrix := { r'.matrix with frow := r'.matrix.frow + 1, queue := r'.matrix.queue.drop 1, run := none } }
          else { r' with matrix := { r'.matrix with frow := r'.matrix.frow + 1, run := some { u with done := false, elems := [] } } }))))
  ∧ (r.halt = true → m.run = none → (r.st = .empty ∨ r.st = .busy ∨ r.st = .halted) →
      gives (.evMatrixHalt h k) { r with st := .halted, quiet := true })
  ∧ (∀ rows kind w, (∀ (i : Nat) (b : Breakpoint), r.bks[i]? = some b → b.en = false ∨ b.dst ≠ 28 ∨ rows ≤ b.row) → s.westEdge h k rows kind w = s)
  ∧ (∀ rows kind w (b : Breakpoint), r.bks[0]? = some b → (∀ (i : Nat) (c : Breakpoint), 0 < i → r.bks[i]? = some c → c.en = false) → b.en = true → b.dst = 28 → b.row < rows →
      some b.col = ((List.range r.cols).find? (fun c => decide ((r.ocol + c) % 8 ≠ 7))) → b.count + 1 ≠ b.target ∨ b.hit = true →
      ∀ bks : Vector Breakpoint 4, bks[0]? = some { b with count := b.count + 1 } → (∀ i : Nat, 0 < i → bks[i]? = r.bks[i]?) →
      s.westEdge h k rows kind w = s.setRegion h k { r with bks := bks })
  ∧ (∀ (sh : TileShape) row col, row < sh.ur → sh.ur ≤ r.rows → col < r.cols → (r.ocol + col) % 8 ≠ 7 →
      ((List.range col).filter (fun c => decide ((r.ocol + c) % 8 ≠ 7))).length < sh.uc →
      (⟨row, col, 0⟩ : Site) ∈ (Region.cellsFire sh r).fired ∧ { Region.cellsFire sh r with fired := r.fired } = r)

/-- R317 to R323, R330, R331, R333 to R335: the COPY family. CSHP writes a level of the staging shape; CPY is refused, traps, parks or
enters its channel's queue, in the order of issue, starting at once behind no other; a parked CPY enters when its thread's accesses
are performed and its channel takes it; the channel registers; RESUME, CLEAR and abort with their statuses; WMRD and WMWAIT. Where the
rules leave the form open it is the model's: log 54 (SIGP of a copy frozen on its signal), 68, 105 (a CPY waits behind earlier waiters of
its channel). -/
def Obligations.CopyInstructions : Prop := ∀ (g : Guard) (d a : Reg) (one : BitVec 1) (c : BitVec 4) (s : State), s.guardOk g = true →
  let sp := tidSpire s.tid
  let h := s.thr.handle s.tid
  let k := (s.spire sp).channel c.toNat
  let x := s.getX a
  let y := s.getX (a + 1)
  let sig := s.getX d
  let status (i : Instr) (w : Word) : Prop := GivesX i d w s
  let kept (i : Instr) (w : Word) (k' : Channel) : Prop := ∃ t, exec i s = .next t ∧ StepsX d w s t
    ∧ { t with slots := s.slots } = s.setSpire sp ((s.spire sp).setChannel c.toNat k')
  let foreign := k.owner ≠ none ∧ k.owner ≠ some h
  let cnt := y.toNat / 2 ^ 40 % 2 * 2 ^ 24 + x.toNat / 2 ^ 40
  let loge := y.toNat / 2 ^ 44 % 16
  let level : Fin 8 := Fin.ofNat 8 (y.toNat / 2 ^ 41)
  let sg (w : Word) : Int := if w.toNat % 2 ^ 40 < 2 ^ 39 then (w.toNat % 2 ^ 40 : Nat) else (w.toNat % 2 ^ 40 : Nat) - 2 ^ 40
  let badLevel := 2 ^ 48 ≤ y.toNat ∨ 8 < loge ∨ 2 ^ 24 < cnt
  let default_ : CopyShape := ⟨Vector.replicate 8 ⟨1, 0, 0⟩, 0⟩
  let live := k.queue.find? (fun e => decide (e.st = .landing ∨ e.st = .signal ∨ e.st = .frozen))
  let dead := k.queue.find? (fun e => decide (e.st = .aborted))
  let mine (e : CopyEntry) : Prop := s.thr.prv ≠ .user ∨ e.asid = s.thr.asid
  let total (e : CopyEntry) := (e.shape.levels.toList.map Level.cnt).prod
  let cstat : Word := BitVec.ofNat 64 (k.fcause * 2 ^ 32 + k.ftsub % 256 * 2 ^ 24 + k.side * 2 ^ 16
    + (if dead.isSome then 2 ^ 15 else 0) + (if ∃ e, live = some e ∧ (e.st = .signal ∨ (e.st = .frozen ∧ e.next = total e)) then 2 ^ 14 else 0) + k.queue.length * 2 ^ 8
    + (if ∃ e, live = some e ∧ e.port ≠ none then 2 ^ 7 else 0)
    + (match live with | none => 0 | some e => if e.st = .frozen then 2 else 1))
  let base (e : CopyEntry) : Word := if e.port = none then e.dst else 0
  let stop (e : CopyEntry) : Word := if e.port = none then ((e.dst + BitVec.ofInt 64 e.shape.span).setWidth 48).setWidth 64 else 0
  let of (z : Option CopyEntry) (f : CopyEntry → Word) : Word := (z.map f).getD 0
  let room (n : Nat) : Prop := k.queue.length < 4 ∧ ∀ z ∈ s.slots, tidSpire z.1 = sp → ∀ q r, z.2.park = some q → q.op = .copy r →
    r.ch = c.toNat → n ≤ r.seq
  let entry (u : Nat) (r : CopyReq) (st : CopyState) : CopyEntry := {
    shape := r.shape, src := r.src, dst := r.dst, sig := r.sig, issuer := .thread ((s.slot u).handle u), asid := (s.slot u).asid
    ptbr := (s.slot u).ptbr, kwin := (s.slot u).kwin, prv := (s.slot u).prv, port := r.port, st := st, next := 0
    wm := if r.port = none then r.dst.setWidth 48 else 0, seq := r.seq, hold := [], serial := s.serial, far := false }
  let takes (e : CopyState → CopyEntry) (P : Channel → Prop) : Prop :=
    (live ≠ none → P { k with queue := k.queue ++ [e .queued], shape := default_, owner := none })
    ∧ ((∀ z ∈ k.queue, z.st = .aborted) → P { k with
        queue := k.queue ++ [e .landing], wm := (e .landing).wm, shape := default_, owner := none })
  (badLevel → status (.cshp g d a c) 3)
  ∧ (¬ badLevel → kept (.cshp g d a c) (if foreign then 1 else 0) { k with
      shape := ⟨(if foreign then default_.levels else k.shape.levels).set level ⟨cnt, sg x, sg y⟩, loge⟩, owner := some h })
  ∧ (foreign → status (.cpy g d a one c) 2)
  ∧ (¬ foreign → one = 1 → (s.spire sp).copyPort y = none → status (.cpy g d a one c) 3)
  ∧ (¬ foreign → ∀ port, (one = 0 ∧ port = none ∨ one = 1 ∧ port = (s.spire sp).copyPort y ∧ port ≠ none) →
      let empty := ∃ l ∈ k.shape.levels.toList, l.cnt = 0
      let far := 2 ^ 48 < y.toNat + k.shape.span.toNat
      (sig.toNat % 8 ≠ 0 → TrapsWith (.cpy g d a one c) .align 1 sig s)
      ∧ (sig.toNat % 8 = 0 → empty → TrapsWith (.cpy g d a one c) .shape 1 0 s)
      ∧ (sig.toNat % 8 = 0 → ¬ empty → one = 0 →
          (k.shape.monotone = false → TrapsWith (.cpy g d a one c) .shape 2 0 s)
          ∧ (k.shape.monotone = true → far → TrapsWith (.cpy g d a one c) .shape 3 0 s)
          ∧ (k.shape.monotone = true → ¬ far → windowCrosses sp y.toNat k.shape.span.toNat = true →
              TrapsWith (.cpy g d a one c) .xspace 0 y s))
      ∧ (sig.toNat % 8 = 0 → ¬ empty →
          (one = 1 ∨ (k.shape.monotone = true ∧ ¬ far ∧ windowCrosses sp y.toNat k.shape.span.toNat = false)) →
          let r : CopyReq := ⟨c.toNat, k.shape, x, y, sig, port, (s.spire sp).copySeq, d⟩
          let s' := s.setSpire sp { s.spire sp with copySeq := (s.spire sp).copySeq + 1 }
          (s.thr.queue ≠ [] → ∃ t, exec (.cpy g d a one c) s = .next t ∧ Parks .mem (.copy r) s' t)
          ∧ (s.thr.queue = [] → ¬ room r.seq → ∃ t, exec (.cpy g d a one c) s = .next t ∧ Parks .cpyq (.copy r) s' t)
          ∧ (s.thr.queue = [] → room r.seq → takes (entry s.tid r) (fun k' => ∃ t, exec (.cpy g d a one c) s = .next t ∧ StepsX d 0 s t
              ∧ { t with slots := s.slots } = { s.setSpire sp
                  ({ s.spire sp with copySeq := (s.spire sp).copySeq + 1 }.setChannel c.toNat k') with serial := s.serial + 1 }))))
  ∧ (∀ u r q, tidSpire u = sp → r.ch = c.toNat → (s.slot u).st = .park → (s.slot u).park = some q → q.op = .copy r →
      let v := s.slot u
      (v.queue ≠ [] → exec (.evThreadResume u) s = .next s)
      ∧ (v.queue = [] → ¬ room r.seq → q.reason = .cpyq → exec (.evThreadResume u) s = .next s)
      ∧ (v.queue = [] → ¬ room r.seq → q.reason ≠ .cpyq →
          exec (.evThreadResume u) s = .next (s.setSlot u { v with park := some ⟨.cpyq, .copy r, s.turnOf sp, false, s.serial⟩ }))
      ∧ (v.queue = [] → room r.seq → takes (entry u r) (fun k' => ∃ t, exec (.evThreadResume u) s = .next t
          ∧ t.slot u = { v.setX r.d 0 with st := .run, park := none, pc := v.pc + 4 } ∧ (∀ z, z ≠ u → t.slot z = s.slot z)
          ∧ { t with slots := s.slots } = { s.setSpire sp ((s.spire sp).setChannel c.toNat k') with serial := s.serial + 1 })))
  ∧ status (.cpyq g d a c) (match x.toNat % 8 with
      | 0 => cstat | 1 => k.faddr | 2 => of live base | 3 => of live stop
      | 4 => of live (fun e => match e.issuer with | .thread u => u.setWidth 64 | .command _ _ => 0)
      | 5 => of dead base | 6 => of dead stop | _ => of dead (fun e => e.wm.setWidth 64))
  ∧ (2 ≤ x.toNat → status (.cpyres g d a c) 3)
  ∧ (x = 0 →
      ((∀ e ∈ k.queue, e.st ≠ .frozen) → status (.cpyres g d a c) 1)
      ∧ ((∃ e ∈ k.queue, e.st = .frozen ∧ ¬ mine e) → status (.cpyres g d a c) 2)
      ∧ ((∃ e ∈ k.queue, e.st = .frozen) → (∀ e ∈ k.queue, e.st = .frozen → mine e) → kept (.cpyres g d a c) 0 { k with
          fcause := 0, ftsub := 0, side := 0, faddr := 0
          queue := k.queue.map (fun e => if e.st = .frozen then { e with st := if k.side = 2 then .signal else .landing } else e) }))
  ∧ (x = 1 →
      (dead = none → status (.cpyres g d a c) 1)
      ∧ ((∃ e ∈ k.queue, e.st = .aborted ∧ ¬ mine e) → status (.cpyres g d a c) 2)
      ∧ (dead ≠ none → (∀ e ∈ k.queue, e.st = .aborted → mine e) →
          kept (.cpyres g d a c) 0 { k with queue := k.queue.filter (fun e => decide (e.st ≠ .aborted)) }))
  ∧ (let target (e : CopyEntry) : Prop :=
        e.st = .landing ∨ e.st = .signal ∨ e.st = .frozen ∨ (one = 1 ∧ e.st = .queued)
     ((∀ e ∈ k.queue, ¬ target e) → status (.cpyabt g d one c) 1)
      ∧ ((∃ e ∈ k.queue, target e ∧ ¬ mine e) → status (.cpyabt g d one c) 2)
      ∧ ((∃ e ∈ k.queue, target e) → (∀ e ∈ k.queue, target e → mine e ∧ ∃ u, e.issuer = .thread u) →
          (∀ e ∈ k.queue, e.st = .queued → one = 1) → kept (.cpyabt g d one c) 0 { k with
            fcause := 0, ftsub := 0, side := 0, faddr := 0, queue := k.queue.map (fun e => { e with st := .aborted }) }))
  ∧ status (.wmrd g d c) (k.wm.setWidth 64)
  ∧ (x = 0xFFFFFFFFFFFFFFFF →
      ((∃ e ∈ k.queue, e.st ≠ .aborted) →
        ∃ t, exec (.wmwait g d a c) s = .next t ∧ Parks .wmark (.wait (.channelMark c.toNat x)) s t)
      ∧ ((∀ e ∈ k.queue, e.st = .aborted) → status (.wmwait g d a c) cstat))
  ∧ (x ≠ 0xFFFFFFFFFFFFFFFF → zoneOf sp x.toNat = .space →
      let holds (e : CopyEntry) : Prop := e.st ≠ .aborted ∧ e.port = none ∧ zoneOf sp e.dst.toNat = .space ∧ e.asid = s.thr.asid
        ∧ e.dst.toNat ≤ e.wm.toNat ∧ e.wm.toNat ≤ x.toNat ∧ x.toNat < e.dst.toNat + e.shape.span.toNat
      ((∃ e ∈ k.queue, holds e) → ∃ t, exec (.wmwait g d a c) s = .next t ∧ Parks .wmark (.wait (.channelMark c.toNat x)) s t)
      ∧ ((∀ e ∈ k.queue, (e.port = none → e.dst.toNat ≤ e.wm.toNat) ∧ ¬ holds e) → status (.wmwait g d a c) cstat))
  ∧ (∀ n o, zoneOf sp x.toNat = .keep n o →
      let holds (e : CopyEntry) : Prop := e.st ≠ .aborted ∧ e.port = none ∧ ∃ w, zoneOf sp e.dst.toNat = .keep n w
        ∧ e.dst.toNat ≤ e.wm.toNat ∧ w + (e.wm.toNat - e.dst.toNat) ≤ o ∧ o < w + e.shape.span.toNat
      let inside (e : CopyEntry) : Prop := e.port = none → e.dst.toNat ≤ e.wm.toNat
        ∧ ∀ m w, zoneOf sp e.dst.toNat = .keep m w → w + e.shape.span.toNat ≤ 0x300000
      ((∃ e ∈ k.queue, holds e) → ∃ t, exec (.wmwait g d a c) s = .next t ∧ Parks .wmark (.wait (.channelMark c.toNat x)) s t)
      ∧ ((∀ e ∈ k.queue, inside e ∧ ¬ holds e) → status (.wmwait g d a c) cstat))

/-- R318, R321 to R325, R328, R336: a copy at work. An element whose checks pass lands whole and the watermark moves to the next, the last
one ending the copy or making its signal due; a check that fails on the source side, on the destination side or at an aborted earlier
window, or a signal that meets a fault, freezes the copy and tells its issuer: a thread gets a CPY_FROZEN event, which ends a park at a
watermark or a full channel and in another park goes to the lantern too, as that of an ended thread does; a command stalls. A port
copy's bytes leave as a token; the signal's ARRIVE ends the copy. Landing is stated between keeps. Where the rules leave the form open
it is the model's: log 14, 54, 70 (DIM at the end of a run), 81, 86 (a signal that waits on the posted peer writes of every agent). -/
def Obligations.CopySteps : Prop := ∀ (h c : Nat) (e : CopyEntry) (rest : List CopyEntry) (s : State), c < 16 →
  let k := (s.spire h).channel c
  k.queue = e :: rest → (∀ z ∈ rest, z.st = .aborted) →
  (∀ j, j < 16 → j ≠ c → ∀ z ∈ ((s.spire h).channel j).queue, z.st ≠ .landing ∧ z.st ≠ .signal ∧ z.st ≠ .frozen) →
  let rights : Ctx := ⟨h, e.asid, e.ptbr, e.kwin, e.prv⟩
  let size := 2 ^ e.shape.loge
  let place (stride : Level → Int) (n : Nat) : Int := ((e.shape.levels.toList.zipIdx.map (fun l =>
    ((n / ((e.shape.levels.toList.take l.2).map Level.cnt).prod % l.1.cnt : Nat) : Int) * stride l.1))).sum
  let src : Word := e.src + BitVec.ofInt 64 (place Level.sstr e.next)
  let dst (n : Nat) : Word := e.dst + BitVec.ofInt 64 (place Level.dstr n)
  let total := (e.shape.levels.toList.map Level.cnt).prod
  let stop : Word := e.dst + BitVec.ofInt 64 e.shape.span
  let chan (t : State) : Channel := (t.spire h).channel c
  let freezes (i : Instr) (side : Nat) (f : Flt) (b : State) : Prop :=
    let k' : Channel := { k with
      queue := { e with st := .frozen } :: rest, fcause := f.cause.code, ftsub := f.sub, side := side, faddr := f.val }
    let ends (b' : State) : Prop := ∃ t, exec i s = .next t ∧ { t with spires := b.spires } = b'
      ∧ { t.spire h with lastCh := (b.spire h).lastCh } = (b.spire h).setChannel c k' ∧ ∀ j, j ≠ h → t.spire j = b.spire j
    (∀ u, e.issuer = .thread u →
      let z := handleTid u
      let v := b.slot z
      let v' : Slot := { v with events := v.events ++ [⟨.cpyFrozen, BitVec.ofNat 64 c, f.val⟩] }
      let lantern (b : State) : State := b.post ⟨6, (b.die (tidDie z)).evq.toNat, tidDie z, Cause.cpyFrozen.code, u.setWidth 64,
          BitVec.ofNat 64 c, f.val, 0⟩
      let alive : Prop := v.st ≠ .free ∧ v.st ≠ .drain ∧ v.st ≠ .ended ∧ v.gen = handleGen u
      (¬ alive → ends (lantern b))
      ∧ (alive → v.park = none → ends (b.setSlot z v'))
      ∧ (∀ p, alive → v.park = some p → (p.reason = .wmark ∨ p.reason = .cpyq) →
          ends { b.setSlot z { v' with st := .run, park := none } with waits := b.waits.filter (fun w => decide (w.2 ≠ z)) })
      ∧ (∀ p, alive → v.park = some p → p.reason ≠ .wmark → p.reason ≠ .cpyq → ends (lantern (b.setSlot z v'))))
    ∧ (∀ q i cmd, e.issuer = .command q i → (b.queue q).cmds.find? (fun m => decide (m.idx.toNat = i)) = some cmd →
      ends ((b.setQueue q { b.queue q with
          code := BitVec.ofNat 8 f.cause.code
          cmds := (b.queue q).cmds.map (fun m => if m.idx.toNat = i then { m with stalled := some f } else m) }).post
        ⟨2, q, q / 32, f.cause.code, BitVec.ofNat 64 i, f.val, cmd.words[0] >>> 32, 0⟩))
  (e.st = .landing → e.port = none →
    (∀ f, s.engineCheck rights (.load src size) false = (s, .fault f) → freezes (.evElementLand h c) 0 f s)
    ∧ (∀ cs f, s.engineCheck rights (.load src size) false = (s, .pass cs) →
        s.engineCheck rights (.store (dst e.next) size) false = (s, .fault f) → freezes (.evElementLand h c) 1 f s)
    ∧ (∀ cs ds f, s.engineCheck rights (.load src size) false = (s, .pass cs) →
        s.engineCheck rights (.store (dst e.next) size) false = (s, .pass ds) →
        watermarkRow (((s.spire h).wins h).filter (fun w => decide (w.seq < e.seq))) e.asid cs = .fault f →
        freezes (.evElementLand h c) 0 f s)
    ∧ (∀ c1 c2 : Chunk, s.engineCheck rights (.load src size) false = (s, .pass [c1]) →
        s.engineCheck rights (.store (dst e.next) size) false = (s, .pass [c2]) →
        (∀ w ∈ (s.spire h).wins h, e.seq ≤ w.seq) → size ≤ 32 → src.toNat % 32 = 0 → (dst e.next).toNat % 32 = 0 →
        c1.va = src.toNat → c2.va = (dst e.next).toNat → c1.len = size → c2.len = size → c2.once = false →
        2 ^ 48 ≤ c1.key → 2 ^ 48 ≤ c2.key →
        s.home c1.key = .keep ((c1.key - 2 ^ 48) / 2 ^ 22) ((c1.key - 2 ^ 48) % 2 ^ 22) →
        s.home c2.key = .keep ((c2.key - 2 ^ 48) / 2 ^ 22) ((c2.key - 2 ^ 48) % 2 ^ 22) →
        ∃ t, exec (.evElementLand h c) s = .next t ∧ SameBytesBut c2.key size s t
          ∧ (∀ i, i < size → memGet (c2.key + i) t.mem = memGet (c1.key + i) s.mem)
          ∧ (e.next + 1 ≠ total → (chan t).queue = { e with next := e.next + 1, wm := (dst (e.next + 1)).setWidth 48 } :: rest
              ∧ (chan t).wm = (dst (e.next + 1)).setWidth 48)
          ∧ (e.next + 1 = total → e.sig ≠ 0 →
              (chan t).queue = { e with next := total, wm := stop.setWidth 48, st := .signal } :: rest ∧ (chan t).wm = stop.setWidth 48)
          ∧ (e.next + 1 = total → e.sig = 0 → (∃ u, e.issuer = .thread u) → (chan t).queue = rest ∧ (chan t).wm = stop.setWidth 48)
          ∧ (∀ u, t.slot u = s.slot u)))
  ∧ (∀ p r plane node u o, e.st = .landing → e.port = some p → e.issuer = .thread u → e.hold = [] → e.shape.loge = 3 →
      e.next < total → k.wm = e.wm → h < 160 → (∀ w ∈ (s.spire h).wins h, e.seq ≤ w.seq) →
      src.toNat = 0x7F1000000000 + o → o % 8 = 0 → o + 8 ≤ 0x300000 → rights.keepRight h .read = true → NoError s (keepKey h o) 8 →
      s.region h p.region = some r → r.st = .placed → r.halt = false → r.parity = [] → r.active = some plane →
      plane.nodes.find? (fun n => decide (n.block = p.block ∧ n.idx = p.node)) = some node →
      let counts := e.shape.levels.toList.map Level.cnt
      let ended := ((List.range 8).takeWhile (fun l => decide ((e.next + 1) % (counts.take (l + 1)).prod = 0))).length
      ((r.tokens ⟨node.site, 0⟩).length < 8 →
        ∃ t r', exec (.evElementLand h c) s = .next t ∧ t.region h p.region = some r'
          ∧ r'.tokens ⟨node.site, 0⟩ = r.tokens ⟨node.site, 0⟩
              ++ [⟨false, BitVec.ofNat 8 (u.toNat % 256), min ended 7, .data, 0xFF, BitVec.ofNat 64 (bytesAt s (keepKey h o) 8), 0⟩]
          ∧ (∀ q, q ≠ ⟨node.site, 0⟩ → r'.tokens q = r.tokens q) ∧ SameBytes s t
          ∧ (e.next + 1 ≠ total → (chan t).queue = { e with next := e.next + 1, wm := e.wm + 8 } :: rest ∧ (chan t).wm = e.wm + 8)
          ∧ (e.next + 1 = total → e.sig = 0 → (chan t).queue = rest ∧ (chan t).wm = e.wm + 8)
          ∧ (e.next + 1 = total → e.sig ≠ 0 →
              (chan t).queue = { e with next := total, wm := e.wm + 8, st := .signal } :: rest ∧ (chan t).wm = e.wm + 8))
      ∧ (8 ≤ (r.tokens ⟨node.site, 0⟩).length → e.next + 1 ≠ total →
        ∃ t, exec (.evElementLand h c) s = .next t ∧ t.region h p.region = some r ∧ SameBytes s t
          ∧ (chan t).queue = { e with next := e.next + 1, hold := memRead (keepKey h o) 8 s.mem } :: rest ∧ (chan t).wm = e.wm))
  ∧ (e.st = .signal → h < 160 → (s.spire h).cache = [] → (s.windowFar h e = true → ∀ x ∈ s.peerOut, x.posted = false) →
      (∀ q i, e.issuer = .command q i → (s.inHost rights e.sig) = (s, false)) →
      (∀ f, s.engineCheck rights ⟨.readWrite, e.sig, 8, true, true, false, false, false⟩ true = (s, .fault f) →
        freezes (.evCopySignal h c) 2 f s)
      ∧ (∀ c1 t o, s.engineCheck rights ⟨.readWrite, e.sig, 8, true, true, false, false, false⟩ true = (s, .pass [c1]) →
        c1.va = e.sig.toNat → c1.len = 8 → (∀ q, s.home c1.key ≠ .peer q) →
        s.syncHome h ⟨.arrive, c1.key, e.sig.toNat, c1.once, .package, 0, 0, 0⟩ = (t, o) → (t.spire h).channel c = k →
        (∀ f, o = .fault f → freezes (.evCopySignal h c) 2 f t)
        ∧ (∀ u, e.issuer = .thread u → (∀ f, o ≠ .fault f) →
            exec (.evCopySignal h c) s = .next (t.setSpire h ((t.spire h).setChannel c { k with queue := rest })))))
  ∧ (s.windowFar h e = true → (∃ x ∈ s.peerOut, x.posted = true) → e.st = .signal → exec (.evCopySignal h c) s = .next s)

/-- R320, R322, R325, R330, R331, R333 to R336: each form of the tongs completes. CSHP stages a level, CPY queues a copy, CPYQ reads a
channel register, CPYRES resumes or clears, CPYABT aborts, WMRD reads a watermark, WMWAIT that need not wait goes on; an element lands
from keep to keep; a landed copy's signal arrives at a word of a keep, and the copy ends. -/
def Obligations.CopyFamilyCompletes : Prop := ∀ (g : Guard) (d a : Reg) (one : BitVec 1) (c : BitVec 4) (s : State), s.guardOk g = true →
  let sp := tidSpire s.tid
  let h := s.thr.handle s.tid
  let k := (s.spire sp).channel c.toNat
  let x := s.getX a
  let y := s.getX (a + 1)
  let sig := s.getX d
  let chan (t : State) : Channel := (t.spire sp).channel c.toNat
  let cnt := y.toNat / 2 ^ 40 % 2 * 2 ^ 24 + x.toNat / 2 ^ 40
  let loge := y.toNat / 2 ^ 44 % 16
  let sg (w : Word) : Int := if w.toNat % 2 ^ 40 < 2 ^ 39 then (w.toNat % 2 ^ 40 : Nat) else (w.toNat % 2 ^ 40 : Nat) - 2 ^ 40
  let mine (e : CopyEntry) : Prop := s.thr.prv ≠ .user ∨ e.asid = s.thr.asid
  let active (e : CopyEntry) : Prop := e.st = .landing ∨ e.st = .signal ∨ e.st = .frozen
  (y.toNat < 2 ^ 48 → loge ≤ 8 → cnt ≤ 2 ^ 24 → (k.owner = none ∨ k.owner = some h) →
    ∃ t, exec (.cshp g d a c) s = .next t ∧ StepsX d 0 s t
      ∧ chan t = { k with shape := ⟨k.shape.levels.set (Fin.ofNat 8 (y.toNat / 2 ^ 41)) ⟨cnt, sg x, sg y⟩, loge⟩, owner := some h })
  ∧ ((k.owner = none ∨ k.owner = some h) → one = 0 → sig.toNat % 8 = 0 → (∀ l ∈ k.shape.levels.toList, l.cnt ≠ 0) →
      k.shape.monotone = true → y.toNat + k.shape.span.toNat ≤ 2 ^ 48 → windowCrosses sp y.toNat k.shape.span.toNat = false →
      s.thr.queue = [] → k.queue.length < 4 →
      (∀ z ∈ s.slots, tidSpire z.1 = sp → ∀ q r, z.2.park = some q → q.op = .copy r → r.ch = c.toNat → (s.spire sp).copySeq ≤ r.seq) →
    ∃ t e, exec (.cpy g d a one c) s = .next t ∧ StepsX d 0 s t ∧ (chan t).shape = ⟨Vector.replicate 8 ⟨1, 0, 0⟩, 0⟩
      ∧ (chan t).owner = none ∧ (chan t).queue.length = k.queue.length + 1 ∧ (chan t).queue.getLast? = some e
      ∧ e.shape = k.shape ∧ e.src = x ∧ e.dst = y ∧ e.sig = sig ∧ e.issuer = .thread h ∧ e.asid = s.thr.asid ∧ e.ptbr = s.thr.ptbr
      ∧ e.kwin = s.thr.kwin ∧ e.prv = s.thr.prv ∧ e.port = none ∧ e.next = 0 ∧ e.wm = y.setWidth 48 ∧ e.seq = (s.spire sp).copySeq)
  ∧ (∃ t, exec (.cpyq g d a c) s = .next t ∧ StepsX d (k.reg (x.toNat % 8)) s t ∧ { t with slots := s.slots } = s)
  ∧ (x = 0 → (∃ e ∈ k.queue, e.st = .frozen) → (∀ e ∈ k.queue, e.st = .frozen → mine e) →
    ∃ t, exec (.cpyres g d a c) s = .next t ∧ StepsX d 0 s t ∧ (chan t).fcause = 0 ∧ (chan t).ftsub = 0 ∧ (chan t).side = 0
      ∧ (chan t).faddr = 0 ∧ (chan t).queue = k.queue.map (fun e =>
          if e.st = .frozen then { e with st := if k.side = 2 then .signal else .landing } else e))
  ∧ (x = 1 → (∃ e ∈ k.queue, e.st = .aborted) → (∀ e ∈ k.queue, e.st = .aborted → mine e) →
    ∃ t, exec (.cpyres g d a c) s = .next t ∧ StepsX d 0 s t ∧ (chan t).queue = k.queue.filter (fun e => decide (e.st ≠ .aborted)))
  ∧ ((∃ e ∈ k.queue, active e) → (∀ e ∈ k.queue, active e ∨ (one = 1 ∧ e.st = .queued) → mine e) →
    ∃ t, exec (.cpyabt g d one c) s = .next t ∧ StepsX d 0 s t ∧ (chan t).queue.length = k.queue.length
      ∧ ∀ (i : Nat) (e : CopyEntry), k.queue[i]? = some e → active e ∨ (one = 1 ∧ e.st = .queued) → (chan t).queue[i]? = some { e with st := .aborted })
  ∧ (∃ t, exec (.wmrd g d c) s = .next t ∧ StepsX d (k.wm.setWidth 64) s t ∧ { t with slots := s.slots } = s)
  ∧ ((∀ e ∈ k.queue, e.st = .aborted) →
    ∃ t, exec (.wmwait g d a c) s = .next t ∧ StepsX d k.cstat s t ∧ { t with slots := s.slots } = s)
  ∧ (∀ (n j : Nat) (e : CopyEntry), n < 160 → j < 16 → ((s.spire n).channel j).queue = [e] →
      (∀ i, i < 16 → i ≠ j → ((s.spire n).channel i).queue = []) →
      let rights : Ctx := ⟨n, e.asid, e.ptbr, e.kwin, e.prv⟩
      let size := 2 ^ e.shape.loge
      (∀ o q, e.st = .landing → e.port = none → e.shape.loge ≤ 5 → o % size = 0 → q % size = 0 → o + size ≤ 0x300000 →
        q + size ≤ 0x300000 → (e.source e.next).toNat = 0x7F1000000000 + o → (e.target e.next).toNat = 0x7F1000000000 + q →
        rights.keepRight n .read = true → rights.keepRight n .write = true → NoError s (keepKey n o) size →
        NoError s (keepKey n q) size →
        ∃ t, exec (.evElementLand n j) s = .next t ∧ SameBytesBut (keepKey n q) size s t ∧ (∀ u, t.slot u = s.slot u)
          ∧ (∀ i, i < size → memGet (keepKey n q + i) t.mem = memGet (keepKey n o + i) s.mem)
          ∧ (e.next + 1 ≠ e.shape.total → ((t.spire n).channel j).wm = (e.target (e.next + 1)).setWidth 48))
      ∧ (∀ o u, e.st = .signal → e.issuer = .thread u → (s.spire n).cache = [] → (s.windowFar n e = true → ∀ x ∈ s.peerOut, x.posted = false) →
        0 ≤ e.shape.span → e.dst.toNat + e.shape.span.toNat ≤ 2 ^ 48 →
        (e.port ≠ none ∨ e.wm = (e.dst + BitVec.ofInt 64 e.shape.span).setWidth 48) →
        e.sig.toNat = 0x7F1000000000 + o → o % 8 = 0 → o + 8 ≤ 0x300000 → rights.keepRight n .readWrite = true →
        NoError s (keepKey n o) 8 →
        let w := bytesAt s (keepKey n o) 8
        let arrived := w / 2 ^ 24 % 2 ^ 24
        let pending := w % 2 ^ 24
        arrived ≠ 2 ^ 24 - 1 →
        ∃ t, exec (.evCopySignal n j) s = .next t ∧ ((t.spire n).channel j).queue = [] ∧ SameBytesBut (keepKey n o) 8 s t
          ∧ (∀ u, t.slot u = s.slot u)
          ∧ bytesAt t (keepKey n o) 8 = (if pending ≠ 0 ∧ arrived + 1 = pending then (w / 2 ^ 48 + 1) % 65536 * 2 ^ 48
              else w / 2 ^ 48 * 2 ^ 48 + (arrived + 1) * 2 ^ 24 + pending)))

/-- R338, R341 to R345, R349, R350, R352, R355: the MERGE family by its tables: the statuses in their order, MERGE_STOP at a frozen
context, opening, resuming and releasing, streams and pushes, the spill area, MFIN and the set members begun from their blocks, and
the context registers. Where the rules leave the form open it is the model's: log 51. -/
def Obligations.MergeInstructions : Prop := ∀ (g : Guard) (d a : Reg) (c u : BitVec 1) (k : BitVec 4) (s : State), s.guardOk g = true →
  let sp := tidSpire s.tid
  let h := s.thr.handle s.tid
  let v := s.context sp c.toNat
  let own := v.owner = some h
  let x := s.getX a
  let y := s.getX (a + 1)
  let status (i : Instr) (w : Word) : Prop := GivesX i d w s
  let kept (i : Instr) (v' : Context) : Prop := ∃ t, exec i s = .next t ∧ StepsX d 0 s t
    ∧ { t with slots := s.slots } = s.setContext sp c.toNat v'
  let stops (i : Instr) : Prop := own → v.st = .frozen → TrapsWith i .mergeStop v.ftsub v.faddr s
  let parks (i : Instr) (why : Reason) (o : ParkOp) : Prop := ∃ t, exec i s = .next t ∧ Parks why o s t
  let bits (lo n : Nat) : Nat := x.toNat / 2 ^ lo % 2 ^ n
  let badStart := 2 ^ 31 ≤ x.toNat ∨ bits 6 10 ≠ 0 ∨ bits 3 1 ≠ 0 ∨ bits 0 2 = 3
    ∨ (bits 0 2 = 0 ∧ bits 2 1 = 1 ∧ bits 16 15 < 3) ∨ (bits 0 2 = 0 ∧ bits 2 1 = 0 ∧ bits 16 15 ≠ 0)
    ∨ (bits 0 2 ≠ 0 ∧ (bits 16 15 ≠ 0 ∨ bits 4 2 ≠ 0 ∨ bits 2 1 ≠ 0))
  let cap := if bits 2 1 = 1 then bits 16 15 + 1 else 0
  let other := (s.context sp (c.toNat + 1)).cap
  let strm := Instr.mstrm g d a c u k
  let push := Instr.mpush g d a c k
  (badStart → status (.mstart g d a c) 3)
  ∧ (¬ badStart → bits 0 2 = 0 →
      (own → status (.mstart g d a c) 1)
      ∧ (¬ own → v.owner ≠ none → status (.mstart g d a c) 2)
      ∧ (v.owner = none → 32768 < cap + other → status (.mstart g d a c) 4)
      ∧ (v.owner = none → cap + other ≤ 32768 → ∃ v', kept (.mstart g d a c) v' ∧ v'.st = .open_ ∧ v'.owner = some h
          ∧ v'.asid = s.thr.asid ∧ v'.ptbr = s.thr.ptbr ∧ v'.kwin = s.thr.kwin ∧ v'.prv = s.thr.prv ∧ v'.mode = decide (bits 2 1 = 1)
          ∧ v'.vfmt = bits 4 2 ∧ v'.cap = cap ∧ v'.buffer = [] ∧ v'.streams = Vector.replicate 16 none ∧ v'.runList = []
          ∧ v'.spbase = 0 ∧ v'.spnext = 0 ∧ v'.splimit = 0 ∧ v'.sat = false ∧ v'.ovr = false ∧ v'.rng = false))
  ∧ (¬ badStart → bits 0 2 ≠ 0 → ¬ own → status (.mstart g d a c) 2)
  ∧ (¬ badStart → own → bits 0 2 = 1 →
      (v.st ≠ .frozen → status (.mstart g d a c) 1)
      ∧ (v.st = .frozen → kept (.mstart g d a c) { v with st := v.kept, ftsub := 0, faddr := 0 }))
  ∧ (¬ badStart → own → bits 0 2 = 2 →
      (v.st = .final ∨ v.st = .setop → parks (.mstart g d a c) .engine (.wait (.crucible c.toNat)))
      ∧ (v.st ≠ .final → v.st ≠ .setop → ∃ v', kept (.mstart g d a c) v' ∧ v'.st = .free ∧ v'.owner = none ∧ v'.cap = 0
          ∧ v'.buffer = [] ∧ v'.runList = []))
  ∧ (x.toNat % 16 ≠ 0 → TrapsWith strm .align 1 x s)
  ∧ (x.toNat % 16 = 0 →
      (¬ own → status strm 2) ∧ stops strm ∧ (own → v.st ≠ .frozen → v.st ≠ .open_ → status strm 1)
      ∧ (own → v.st = .open_ →
          let bad := 2 ^ 48 ≤ x.toNat ∨ (u = 1 ∧ (v.mode = true ∨ x.toNat % 32 ≠ 0 ∨ y ≠ 0)) ∨ (u = 0 ∧ 2 ^ 32 < y.toNat)
            ∨ (v.mode = false ∧ v.streams[k.toNat] ≠ none)
          let busy := v.mode = true ∧ ∃ z, v.streams[k.toNat] = some z ∧ (z.unread = true ∨ z.items ≠ [])
          (bad → status strm 3)
          ∧ (¬ bad → busy → parks strm .engine (.wait (.stream c.toNat k.toNat)))
          ∧ (¬ bad → ¬ busy → s.thr.queue ≠ [] → parks strm .mem (.wait .drained))
          ∧ (¬ bad → ¬ busy → s.thr.queue = [] → kept strm { v with
              streams := v.streams.set k.toNat (some ⟨x, y.toNat, 0, decide (u = 1), false, []⟩) })))
  ∧ (¬ own → status push 2) ∧ stops push ∧ (own → v.st ≠ .frozen → v.st ≠ .open_ → status push 1)
  ∧ (own → v.st = .open_ → v.mode = false → status push 3)
  ∧ (own → v.st = .open_ → v.mode = true →
      let busy := v.cap ≤ v.buffer.length ∨ v.spilling = true
        ∨ ∃ z, v.streams[k.toNat] = some z ∧ (z.unread = true ∨ z.items ≠ [])
      (busy → parks push .engine (.wait (.push c.toNat k.toNat)))
      ∧ (¬ busy → kept push { v with buffer := v.buffer ++ [⟨x.toNat, toAcc v.vfmt y.toNat, k.toNat⟩] }))
  ∧ (¬ own → status (.mspill g d a c) 2)
  ∧ (own → v.st = .final ∨ v.st = .setop → status (.mspill g d a c) 1)
  ∧ (own → v.st ≠ .final → v.st ≠ .setop →
      let bad := x.toNat % 32 ≠ 0 ∨ y.toNat % 32 ≠ 0 ∨ 2 ^ 48 ≤ x.toNat ∨ 2 ^ 48 ≤ y.toNat ∨ y.toNat < x.toNat
        ∨ (v.runList ≠ [] ∧ (x ≠ v.spbase ∨ y.toNat < v.splimit.toNat))
      (bad → status (.mspill g d a c) 3)
      ∧ (¬ bad → v.st = .open_ → kept (.mspill g d a c) (if v.runList = [] then { v with spbase := x, spnext := x, splimit := y }
          else { v with splimit := y })))
  ∧ (∀ i : Instr, (i = .mfin g d a c ∨ i = .xsect g d a c ∨ i = .xunion g d a c ∨ i = .xcnt g d a c) →
      (x.toNat % 8 ≠ 0 → TrapsWith i .align 1 x s)
      ∧ (x.toNat % 8 = 0 → (¬ own → status i (-2)) ∧ stops i
        ∧ (own → v.st = (if i = .mfin g d a c then .final else .setop) → parks i .engine (.merge c.toNat d))
        ∧ (own → v.st = (if i = .mfin g d a c then .setop else .final) → status i (-1))
        ∧ (own → v.st = .open_ → i ≠ .mfin g d a c →
            v.buffer ≠ [] ∨ v.runList ≠ [] ∨ (∃ z ∈ v.streams.toList, z ≠ none) → status i (-1))
        ∧ (own → v.st = .open_ → (i = .mfin g d a c ∨ (v.buffer = [] ∧ v.runList = [] ∧ ∀ z ∈ v.streams.toList, z = none)) →
            (s.thr.queue ≠ [] → parks i .mem (.wait .drained))
            ∧ (s.thr.queue = [] → ∀ e, s.check s.ctx ⟨.read, x, 48, false, false, false, false, true⟩ = .pass [e] → e.va = x.toNat →
              e.len = 48 → 2 ^ 48 ≤ e.key → NoError s e.key 48 →
              (∀ z, z < 48 → s.home (e.key + z) = .keep ((e.key + z - 2 ^ 48) / 2 ^ 22) ((e.key + z - 2 ^ 48) % 2 ^ 22)) →
              let f (z : Nat) : Nat := bytesAt s (e.key + 8 * z) 8
              let form := f 0
              let nrows := f 5 / 2 ^ 32
              let val := if v.vfmt = 1 then 8 else if v.vfmt = 2 then 2 else 4
              let badFin := 2 < form ∨ 2 ^ 32 < f 4 ∨ 2 ^ 48 ≤ f 1 ∨ 2 ^ 48 ≤ f 2 ∨ 2 ^ 48 ≤ f 3
                ∨ (form = 1 ∧ (f 1 % 4 ≠ 0 ∨ f 2 % val ≠ 0 ∨ f 3 % 4 ≠ 0 ∨ nrows = 0 ∨ 2 ^ 31 < nrows))
                ∨ (form ≠ 1 ∧ (f 1 % (if form = 0 then 16 else 32) ≠ 0 ∨ f 2 ≠ 0 ∨ f 3 ≠ 0 ∨ f 5 ≠ 0))
              let badSet := f 0 % 8 ≠ 0 ∨ f 2 % 8 ≠ 0 ∨ 2 ^ 32 < f 1 ∨ 2 ^ 32 < f 3 ∨ f 4 % 8 ≠ 0 ∨ f 5 % 8 ≠ 0
                ∨ (i = .xcnt g d a c ∧ (f 4 ≠ 0 ∨ f 5 ≠ 0))
              let begins (q : Context → Prop) : Prop := ∃ t, exec i s = .next t
                ∧ t.thr = { s.thr with st := .park, park := some ⟨.engine, .merge c.toNat d, s.turnOf sp, false, s.serial⟩ }
                ∧ SameOthers s t ∧ q (t.context sp c.toNat) ∧ (∀ z, z ≠ sp → t.spire z = s.spire z)
                ∧ { t with slots := s.slots, spires := s.spires } = s
              ((i = .mfin g d a c → badFin → status i (-3)) ∧ (i ≠ .mfin g d a c → badSet → status i (-3))
                ∧ (i = .mfin g d a c → ¬ badFin → begins (fun w => w = { v with
                    st := .final, ovr := false, rng := false, back := [], merged := none
                    desc := some ⟨form, BitVec.ofNat 64 (f 1), BitVec.ofNat 64 (f 2), BitVec.ofNat 64 (f 3), f 4, f 5 % 2 ^ 32, nrows⟩ }))
                ∧ (i ≠ .mfin g d a c → ¬ badSet → begins (fun w => w.st = .setop ∧ ∃ o, w = { v with st := .setop, setop := some o }
                    ∧ o.kind = (if i = .xsect g d a c then 6 else if i = .xunion g d a c then 7 else 8)
                    ∧ o.pbase.toNat = f 0 ∧ o.pcnt = f 1 ∧ o.qbase.toNat = f 2 ∧ o.qcnt = f 3 ∧ o.outk.toNat = f 4
                    ∧ o.outi.toNat = f 5 ∧ o.ip = 0 ∧ o.iq = 0 ∧ o.n = 0)))))))
  ∧ (v.st = .free → status (.mstat g d a c) 0)
  ∧ (v.st ≠ .free → status (.mstat g d a c) (match x.toNat % 8 with
      | 0 => BitVec.ofNat 64 (min v.runList.length 65535 * 2 ^ 48 + v.buffer.length * 2 ^ 32
          + (if v.st = .frozen then v.ftsub.toNat / 2 ^ 24 % 16 * 2 ^ 24 + v.ftsub.toNat % 256 * 2 ^ 8 else 0)
          + (if v.rng then 2 ^ 7 else 0) + (if v.ovr then 2 ^ 6 else 0) + (if v.sat then 2 ^ 5 else 0) + (if own then 2 ^ 4 else 0)
          + (if v.mode then 2 ^ 3 else 0) + v.st.code)
      | 1 => v.faddr | 2 => v.ftsub | 3 => v.spbase | 4 => v.spnext | 5 => v.splimit | 6 => v.outcnt | _ => BitVec.ofNat 64 v.cap))

/-- R87, R88, R344, R346 to R348, R350 to R354: a context at work. A reader takes an element into the buffer or its stream, or freezes
the context with ORDER; a spill writes its run and empties the buffer, or freezes with SPILL_FULL; a finish folds every key's
values in their order, writes the sums by rising key and gives their number; a set operation ends with its count.
Where the rules leave the form open it is the model's: log 14, 49, 50. -/
def Obligations.MergeSteps : Prop := ∀ (h c k : Nat) (v : Context) (s : State), c < 2 → s.context h c = v →
  let rights : Ctx := ⟨h, v.asid, v.ptbr, v.kwin, v.prv⟩
  let gives (i : Instr) (v' : Context) : Prop := exec i s = .next (s.setContext h c v')
  let stops (i : Instr) (sub : Nat) (tval : Word) : Prop := ∀ u, v.owner = some u → (s.slot (handleTid u)).st = .run →
    (s.slot (handleTid u)).gen = handleGen u → (s.slot (handleTid u)).park = none →
    exec i s = .next ((s.setContext h c { v with
        st := .frozen, kept := .open_, ftsub := BitVec.ofNat 64 sub, faddr := tval }).setSlot (handleTid u)
      { s.slot (handleTid u) with events := (s.slot (handleTid u)).events ++ [⟨.mergeStop, BitVec.ofNat 64 sub, tval⟩] })
  (∀ x bs, k < 16 → v.streams.toList[k]? = some (some x) → x.run = false → x.pos < x.count → v.st = .open_ → v.spilling = false →
    (∀ t, v.owner = some t → (s.slot (handleTid t)).park = none) →
    let va := x.base + BitVec.ofNat 64 (16 * x.pos)
    s.engineRead rights va 16 true = (s, .ok bs) →
    let key := leNat (bs.take 8)
    let val := toAcc v.vfmt (leNat ((bs.drop 8).take 8))
    let advanced (y : Stream) : Context := { v with streams := v.streams.set (k % 16) (some y) (Nat.mod_lt _ (by decide)) }
    (v.mode = true → (∀ z ∈ v.streams.toList, ∀ y, z = some y → y.items = []) → v.buffer.length < v.cap →
      gives (.evStreamRead h c k) { advanced { x with pos := x.pos + 1 } with buffer := v.buffer ++ [⟨key, val, k⟩] })
    ∧ (v.mode = false → (∀ e, x.items.getLast? = some e → e.1 ≤ key) →
        gives (.evStreamRead h c k) (advanced { x with pos := x.pos + 1, items := x.items ++ [(key, val)] }))
    ∧ (v.mode = false → (∃ e, x.items.getLast? = some e ∧ key < e.1) → stops (.evStreamRead h c k) (5 + k * 2 ^ 24) va))
  ∧ (v.mode = true → v.st = .open_ → v.spilling = true → v.wrote = 0 → (∀ z ∈ v.streams.toList, ∀ y, z = some y → y.items = []) →
      let m := v.buffer.length
      let size := (32 + 16 * m + 31) / 32 * 32
      let at_ (i : Nat) : Word := v.spnext + BitVec.ofNat 64 (32 + 16 * i)
      let stores : List (Word × List Byte) := (List.range m).map (fun i => (at_ i,
          leBytes 8 (v.buffer.getD i ⟨0, 0, 0⟩).key ++ leBytes 8 (v.buffer.getD i ⟨0, 0, 0⟩).val))
        ++ (if m % 2 = 1 then [(at_ m, List.replicate 16 0)] else [])
        ++ [(v.spnext, leBytes 8 ((v.buffer.head?.map BufItem.key).getD 0) ++ leBytes 8 ((v.buffer.getLast?.map BufItem.key).getD 0)
              ++ leBytes 8 m ++ [BitVec.ofNat 8 (if v.vfmt = 2 then 0 else v.vfmt), 0] ++ leBytes 2 (v.runList.length % 65536)
              ++ [0x52, 0x55, 0x4E, 0x31])]
      (v.splimit.toNat < v.spnext.toNat + size → stops (.evSpill h c) 1 (BitVec.ofNat 64 (v.spnext.toNat + size)))
      ∧ (∀ t n, v.spnext.toNat + size ≤ v.splimit.toNat → State.writeFrom rights stores 0 (s.setContext h c v) = (t, n, none) →
          exec (.evSpill h c) s = .next (t.setContext h c { v with
            runList := v.runList ++ [(v.spnext.toNat, m)], spnext := BitVec.ofNat 64 (v.spnext.toNat + size), buffer := []
            spilling := false, wrote := 0 })))
  ∧ (∀ o t n u d since raised ser, v.st = .final → v.mode = false → v.spilling = false → v.runList = [] → v.merged = none →
      v.back = [] → v.desc = some o → o.form = 0 → v.wrote = 0 →
      (∀ z ∈ v.streams.toList, ∀ y, z = some y → y.unread = false) → v.owner = some u →
      let xs := v.streams.toList.flatMap (fun z => (z.map Stream.items).getD [])
      ∀ sums : List (Nat × Nat), sums.Pairwise (fun a b => a.1 < b.1) → (∀ key, (∃ e ∈ sums, e.1 = key) ↔ ∃ e ∈ xs, e.1 = key) →
      (∀ e ∈ sums, ∃ w ws, (xs.filter (fun z => decide (z.1 = e.1))).map Prod.snd = w :: ws ∧ e.2 = ws.foldl (accAdd v.vfmt) w) →
      let s' := s.setContext h c { v with merged := some ⟨sums, false⟩ }
      State.writeFrom rights ((sums.take o.limit).zipIdx.map (fun e =>
          (o.kbase + BitVec.ofNat 64 (16 * e.2), leBytes 8 e.1.1 ++ leBytes 8 (outValue v.vfmt e.1.2).1))) 0 s' = (t, n, none) →
      t.slot (handleTid u) = s.slot (handleTid u) → (s.slot (handleTid u)).st = .park → (s.slot (handleTid u)).gen = handleGen u →
      (s.slot (handleTid u)).park = some ⟨.engine, .merge c d, since, raised, ser⟩ → handleTid u < 65536 →
      ∃ t', exec (.evMergeFinish h c) s = .next t' ∧ (t'.context h c).st = .open_ ∧ (t'.context h c).buffer = []
        ∧ (t'.context h c).streams = Vector.replicate 16 none ∧ (t'.context h c).runList = []
        ∧ (t'.context h c).outcnt = BitVec.ofNat 64 sums.length ∧ (t'.context h c).ovr = decide (o.limit < sums.length)
        ∧ t'.slot (handleTid u) = { (s.slot (handleTid u)).setX d (BitVec.ofNat 64 sums.length) with
            st := .run, park := none, pc := (s.slot (handleTid u)).pc + 4 })
  ∧ (∀ o p q u d since raised ser, v.st = .setop → v.setop = some o → o.hp = some p → o.hq = some q → o.ip + 1 = o.pcnt →
      o.iq + 1 = o.qcnt → o.outk = 0 → o.outi = 0 → v.owner = some u →
      (s.slot (handleTid u)).st = .park → (s.slot (handleTid u)).gen = handleGen u → handleTid u < 65536 →
      (s.slot (handleTid u)).park = some ⟨.engine, .merge c d, since, raised, ser⟩ →
      let n := o.n + (if p = q then 1 else if o.kind = 7 then 2 else 0)
      ∃ t', exec (.evSetOperation h c) s = .next t' ∧ t'.context h c = { v with st := .open_, setop := none }
        ∧ t'.slot (handleTid u) = { (s.slot (handleTid u)).setX d (BitVec.ofNat 64 n) with
            st := .run, park := none, pc := (s.slot (handleTid u)).pc + 4 }
        ∧ (∀ x, x ≠ handleTid u → t'.slot x = s.slot x))

/-- R48, R83, R134, R141, R156, R358 to R361: CSRRW, CSRRS and CSRRC on every CSR: the old value in X[d], the new value by the member,
W1C bits cleared through X[a] alone, reserved and read-only fields as they were; with a = x0, CSRRS and CSRRC write nothing.
Where the rules leave the form open it is the model's: log 12, 53. -/
def Obligations.ControlRegisters : Prop := ∀ (g : Guard) (d a : Reg) (n : BitVec 10) (s : State), s.guardOk g = true →
  (n.toNat < 0x100 ∨ s.thr.prv ≠ .user) →
  let x := s.getX a
  let v := s.thr
  let gives (i : Instr) (old : Word) (v' : Slot) : Prop := ∃ t, exec i s = .next t ∧ StepsX d old (s.setThr v') t ∧ SameOutside s t
  let acts (old : Word) (put : Word → Word → Slot) : Prop := gives (.csrrw g d a n) old (put x x)
    ∧ (a = 0 → gives (.csrrs g d a n) old v ∧ gives (.csrrc g d a n) old v)
    ∧ (a ≠ 0 → gives (.csrrs g d a n) old (put (old ||| x) 0) ∧ gives (.csrrc g d a n) old (put (old &&& ~~~x) x))
  let fixed (old : Word) : Prop := gives (.csrrw g d a n) old v ∧ gives (.csrrs g d a n) old v ∧ gives (.csrrc g d a n) old v
  let one (b : Bool) (k : Nat) : Nat := if b then 2 ^ k else 0
  (n = 0x001 → acts (BitVec.ofNat 64 (v.fl.toNat + v.en.toNat * 2 ^ 8 + v.rm.code * 2 ^ 16)) (fun w _ => { v with
      fl := w.extractLsb' 0 6, en := w.extractLsb' 8 6, rm := (RMode.ofCode (w.toNat / 2 ^ 16 % 8)).getD v.rm }))
  ∧ (n = 0x002 → acts (BitVec.ofNat 64 (v.drops.toNat * 2 ^ 16 + one v.sBad 2 + one v.sRef 1 + one v.sStale 0)) (fun w c => { v with
      drops := w.extractLsb' 16 8, sBad := v.sBad && !c.getLsbD 2, sRef := v.sRef && !c.getLsbD 1, sStale := v.sStale && !c.getLsbD 0 }))
  ∧ (n = 0x080 → s.tid < 65536 → fixed (BitVec.ofNat 64 (16 * s.turnOf (tidSpire s.tid) + s.tid % 16)))
  ∧ (n = 0x081 → fixed (BitVec.ofNat 64 (s.now * 4 / 5)))
  ∧ (n = 0x100 → acts v.tvec (fun w _ => { v with tvec := w &&& 0xFFFFFFFFFFFC#64 }))
  ∧ (n = 0x101 → acts (BitVec.ofNat 64 (one (decide (v.events ≠ [])) 5 + one v.nest 4 + v.pprv.code * 4 + v.prv.code)) (fun w _ => { v with
      nest := w.getLsbD 4
      pprv := match Priv.ofCode (w.toNat / 4 % 4) with
        | some q => if q.code ≤ v.prv.code then q else v.pprv
        | none => v.pprv }))
  ∧ (n = 0x102 → acts v.tepc (fun w _ => { v with tepc := w &&& 0xFFFFFFFFFFFC#64 }))
  ∧ (n = 0x103 → acts (BitVec.ofNat 64 v.tcause.toNat) (fun w _ => { v with tcause := w.extractLsb' 0 8 }))
  ∧ (n = 0x104 → acts v.tsub (fun w _ => { v with tsub := w }))
  ∧ (n = 0x105 → acts v.tval (fun w _ => { v with tval := w }))
  ∧ (n = 0x106 → acts v.tnode (fun w _ => { v with tnode := w &&& 0xFFFFFFFFFF80#64 }))
  ∧ (n = 0x107 → acts v.tscr0 (fun w _ => { v with tscr0 := w }))
  ∧ (n = 0x108 → acts v.tscr1 (fun w _ => { v with tscr1 := w }))
  ∧ (n = 0x109 → acts (BitVec.ofNat 64 (one v.wSlp 33 + one v.wFired 32 + v.wLimit.toNat)) (fun w c => { v with
      wSlp := w.getLsbD 33, wFired := v.wFired && !c.getLsbD 32, wLimit := w.extractLsb' 0 32 }))
  ∧ (n = 0x10A → acts (BitVec.ofNat 64 v.asid.toNat) (fun w _ => { v with asid := w.extractLsb' 0 12 }))
  ∧ (n = 0x10B → acts v.ptbr (fun w _ => { v with ptbr := w &&& 0xFFFFFFFFF000#64 }))
  ∧ (∀ j (h : j < 5), n = BitVec.ofNat 10 (0x10C + j) → acts v.kwin[j] (fun w _ => { v with kwin := v.kwin.set j w h }))

/-- R371, R373 to R375, R377, R378: TLBI drops the entries of its kind in the spires of its scope and no others, and has the
sync words that threads there wait on translated again (log 88: the model's reading); SLOTCTL queries, holds and
releases; SLOTSAVE and SLOTLOAD by their statuses in order, a thread at a boundary saved with its image in the save area and its
slot freed under the same generation, and restored from it, an image whose pc has bits 1:0 set being refused with status 3 (log 71: the model's reading).
Where the rules leave the form open it is the model's: log 37, 38, 39, 71, 78, 88. -/
def Obligations.SlotAdministration : Prop := ∀ (g : Guard) (d a b : Reg) (s : State), s.guardOk g = true → s.thr.prv ≠ .user →
  let x := s.getX a
  let y := s.getX b
  let sp := tidSpire s.tid
  let h : BitVec 24 := x.extractLsb' 0 24
  let u := h.toNat % 65536
  let v := s.slot u
  let status (i : Instr) (w : Word) : Prop := GivesX i d w s
  let targeted (i : Instr) (bad : Prop) (then_ : Prop) : Prop :=
    let wrong := 2 ^ 24 ≤ x.toNat ∨ tidValid u = false ∨ tidSpire u ≠ sp ∨ h = s.thr.handle s.tid ∨ bad
    (wrong → status i 3)
    ∧ (¬ wrong → v.st = .free ∨ v.st = .drain ∨ v.st = .ended ∨ v.gen.toNat ≠ h.toNat / 65536 → status i 1)
    ∧ (¬ wrong → v.st = .run ∨ v.st = .park → v.gen.toNat = h.toNat / 65536 → s.thr.prv.code < v.prv.code → status i 2)
    ∧ (¬ wrong → v.st = .run ∨ v.st = .park → v.gen.toNat = h.toNat / 65536 → v.prv.code ≤ s.thr.prv.code → then_)
  let ctl := Instr.slotctl g d a b
  let save := Instr.slotsave g d a b
  let load := Instr.slotload g d a
  let absent := (s.die (sp / 80)).absent
  let marked := ∃ e ∈ absent, e.handle = h
  targeted ctl (4 ≤ y.toNat ∨ y.toNat = 3)
    ((y = 0 → status ctl (BitVec.ofNat 64 (v.pc.toNat / 4 % 2 ^ 46 * 2 ^ 18 + v.prv.code * 2 ^ 16 + v.gen.toNat * 2 ^ 8
        + (match v.park with | some k => k.reason.code * 2 ^ 4 | none => 0) + (if v.held then 2 ^ 3 else 0)
        + (if v.held then 4 else if v.st = .run then 1 else 2))))
      ∧ (∀ hold : Bool, y = (if hold then 1 else 2) → ∃ t, exec ctl s = .next t ∧ StepsX d 0 (s.setSlot u { v with held := hold }) t
          ∧ SameOutside s t))
  ∧ targeted save (y.toNat % 1024 ≠ 0)
    ((marked → status save 1)
      ∧ (¬ marked → 256 ≤ absent.length → status save 4)
      ∧ (¬ marked → absent.length < 256 → OwnKeep s y 1024 (y.toNat - 0x7F1000000000) → v.queue ≠ [] →
          ∃ t, exec save s = .next t ∧ t.thr.st = .park
            ∧ (∃ k, t.thr.park = some k ∧ k.reason = .engine
                ∧ k.op = .save h (ownKey s (y.toNat - 0x7F1000000000)) y.toNat false d)
            ∧ SameOthers s t ∧ SameBytes s t)
      ∧ (¬ marked → absent.length < 256 → OwnKeep s y 1024 (y.toNat - 0x7F1000000000) → v.queue = [] → v.st = .run → v.park = none →
          v.events = [] → v.trapDue = none → v.poison = none → (s.core (tidCoreKey u)).waiting = [] → (s.spire sp).cache = [] →
          let k := ownKey s (y.toNat - 0x7F1000000000)
          ∃ t, exec save s = .next t
            ∧ t.thr.pc = s.thr.pc + 4 ∧ t.getX d = 0 ∧ (∀ r, r ≠ d → t.getX r = s.getX r)
            ∧ { t.thr with x := s.thr.x, pc := s.thr.pc } = { s.thr with st := .run, park := none }
            ∧ t.slot u = { v with st := .free, held := false, inbox := none, launch := none, drops := 0, sBad := false, sRef := false, sStale := false }
            ∧ (∀ z, z ≠ u → z ≠ s.tid → t.slot z = s.slot z)
            ∧ (∃ e, (t.die (sp / 80)).absent = absent ++ [e] ∧ e.handle = h ∧ e.launch = v.launch ∧ e.sends = [] ∧ e.area = some k)
            ∧ SameBytesBut k 1024 s t
            ∧ bytesAt t k 8 = h.toNat ∧ bytesAt t (k + 0x008) 8 = v.pc.toNat
            ∧ bytesAt t (k + 0x010) 8 = (if v.held then 2 ^ 7 else 0) + (if v.inbox.isSome then 2 ^ 8 else 0) + v.prv.code * 2 ^ 16
            ∧ bytesAt t (k + 0x018) 8 = v.work.toNat ∧ bytesAt t (k + 0x038) 8 = (v.inbox.getD 0).toNat
            ∧ bytesAt t (k + 0x040) 8 = v.asid.toNat ∧ bytesAt t (k + 0x048) 8 = v.ptbr.toNat
            ∧ bytesAt t (k + 0x080) 8 = v.tvec.toNat ∧ bytesAt t (k + 0x0B8) 8 = v.tscr0.toNat
            ∧ (∀ r : Reg, bytesAt t (k + 0x200 + 8 * r.val) 8 = (v.getX r).toNat)))
  ∧ (x.toNat % 1024 ≠ 0 → status load 3)
  ∧ (x.toNat % 1024 = 0 → s.thr.queue ≠ [] → ∃ t, exec load s = .next t ∧ Parks .mem (.wait .drained) s t)
  ∧ (x.toNat % 1024 = 0 → s.thr.queue = [] → OwnKeep s x 1024 (x.toNat - 0x7F1000000000) →
      let img (o : Nat) : Word := BitVec.ofNat 64 (bytesAt s (ownKey s (x.toNat - 0x7F1000000000) + o) 8)
      let hh : BitVec 24 := (img 0).extractLsb' 0 24
      let z := hh.toNat % 65536
      let here := ∃ e ∈ (s.die (sp / 80)).absent, e.handle = hh
      let plain := img 0x008 &&& 3#64 = 0 ∧ img 0x010 &&& ~~~0x30180#64 = 0 ∧ img 0x010 &&& 0x30000#64 ≠ 0x30000#64 ∧ (img 0).toNat < 2 ^ 24 ∧ (img 0x018).toNat < 2 ^ 32
        ∧ img 0x020 = 0 ∧ img 0x028 = 0 ∧ img 0x030 < 256 ∧ img 0x040 < 4096 ∧ img 0x048 &&& ~~~0xFFFFFFFFF000#64 = 0
        ∧ img 0x080 &&& ~~~0xFFFFFFFFFFFC#64 = 0 ∧ img 0x088 < 0x10 ∧ img 0x090 &&& ~~~0xFFFFFFFFFFFC#64 = 0 ∧ img 0x098 < 256
        ∧ img 0x0B0 &&& ~~~0xFFFFFFFFFF80#64 = 0 ∧ img 0x0C8 = 0 ∧ img 0x0D0 = 0 ∧ img 0x0D8 = 0 ∧ img 0x1A0 = 0
      ((img 0x010).toNat / 2 ^ 16 % 4 = 3 → status load 3)
      ∧ ((img 0x010).toNat / 2 ^ 4 % 4 = 3 → status load 3)
      ∧ (8 < (img 0x010).toNat / 2 ^ 9 % 16 → status load 3)
      ∧ (img 0x008 &&& 3#64 ≠ 0 → status load 3)
      ∧ (2 ^ 24 ≤ (img 0).toNat → status load 3)
      ∧ (tidSpire z ≠ sp ∨ (tidValid z = true ∧ ¬ here) → status load 3)
      ∧ (plain → tidSpire z = sp → tidValid z = true → here →
          (s.thr.prv.code < (img 0x010).toNat / 2 ^ 16 → status load 2)
          ∧ ((img 0x010).toNat / 2 ^ 16 ≤ s.thr.prv.code → (s.slot z).st ≠ .free → status load 1)
          ∧ ((img 0x010).toNat / 2 ^ 16 ≤ s.thr.prv.code → (s.slot z).st = .free → z ≠ s.tid →
              ∃ t, exec load s = .next t ∧ StepsX d 0 (s.setSlot z (t.slot z)) t
                ∧ (t.slot z).st = .run ∧ (t.slot z).gen.toNat = hh.toNat / 65536 ∧ (t.slot z).pc = img 0x008
                ∧ (t.slot z).prv.code = (img 0x010).toNat / 2 ^ 16 ∧ (t.slot z).held = (img 0x010).getLsbD 7
                ∧ (t.slot z).inbox = (if (img 0x010).getLsbD 8 then some (img 0x038) else none)
                ∧ (t.slot z).work.toNat = (img 0x018).toNat ∧ (t.slot z).asid.toNat = (img 0x040).toNat
                ∧ (t.slot z).ptbr = img 0x048 ∧ (t.slot z).tvec = img 0x080 ∧ (t.slot z).tepc = img 0x090
                ∧ (t.slot z).tscr0 = img 0x0B8 ∧ (t.slot z).park = none ∧ (t.slot z).events = []
                ∧ (t.slot z).wLimit = (s.slot z).wLimit
                ∧ (∀ j (hj : j < 5), (t.slot z).kwin[j] = img (0x050 + 8 * j))
                ∧ (∀ r : Reg, (t.slot z).getX r = (if r = 0 then 0 else img (0x200 + 8 * r.val)))
                ∧ (∀ r : PReg, (t.slot z).getP r = (if r = 0 then true else (img 0x030).getLsbD r.val))
                ∧ (∀ e, e ∈ (t.die (sp / 80)).absent ↔ e ∈ (s.die (sp / 80)).absent ∧ e.handle ≠ hh)
                ∧ SameBytes s t)))
  ∧ (let bad := 2 ^ 28 ≤ y.toNat ∨ y.toNat / 2 ^ 5 % 2 ^ 11 ≠ 0 ∨ y.toNat / 4 % 8 = 0 ∨ 3 < y.toNat / 4 % 8
     let tlbi := Instr.tlbi g d a b
     (bad → status tlbi 3)
     ∧ (¬ bad → s.thr.queue ≠ [] → ∃ t, exec tlbi s = .next t ∧ Parks .mem (.wait .drained) s t)
     ∧ (¬ bad → s.thr.queue = [] → sp < 160 →
        let inScope (w : Nat) : Prop := w < 160 ∧ (y.toNat / 4 % 8 = 3 ∨ (y.toNat / 4 % 8 = 2 ∧ w / 80 = sp / 80)
          ∨ (y.toNat / 4 % 8 = 1 ∧ w = sp))
        let asid := y.toNat / 2 ^ 16 % 2 ^ 12
        let goes (e : TlbEntry) : Prop := y.toNat % 4 = 3 ∨ (y.toNat % 4 = 2 ∧ e.glob = false)
          ∨ (y.toNat % 4 = 1 ∧ e.glob = false ∧ e.asid.toNat = asid)
          ∨ (y.toNat % 4 = 0 ∧ e.hits (BitVec.ofNat 12 asid) x.toNat = true)
        ∃ t, exec tlbi s = .next t ∧ t.thr.st = .park
          ∧ (∃ k sc, t.thr.park = some k ∧ k.reason = .engine ∧ k.op = .finish (.flights sc s.serial) d 0)
          ∧ { t.thr with st := s.thr.st, park := s.thr.park } = s.thr
          ∧ (∀ z, z ≠ s.tid → (¬ inScope (tidSpire z) ∨ ∀ q r l, (s.slot z).park = some q → q.op ≠ .sync r true l) → t.slot z = s.slot z)
          ∧ (∀ z q r l, z ≠ s.tid → inScope (tidSpire z) → (s.slot z).park = some q → q.op = .sync r true l →
              t.slot z = { s.slot z with park := some { q with reason := .sync, op := .wait .now } } ∧ ∀ e ∈ t.waits, e.2 ≠ z)
          ∧ (∀ w, inScope w → ∀ e, e ∈ (t.spire w).tlb ↔ e ∈ (s.spire w).tlb ∧ ¬ goes e)
          ∧ (∀ w, ¬ inScope w → (t.spire w).tlb = (s.spire w).tlb)))

/-- R292 to R295: RGNSET by its statuses in order: QUERY reads RSTAT; a CREATE or DELETE that passes its checks parks ENGINE, and as the
park clears CREATE sets a region that is EMPTY, DELETE frees one that is EMPTY; no other entry of any spire changes. Where the rules leave the form open it is the model's: log 44. -/
def Obligations.RegionAdministration : Prop := ∀ (g : Guard) (d a b : Reg) (s : State), s.guardOk g = true → s.thr.prv ≠ .user →
  let x := (s.getX a).toNat
  let y := (s.getX b).toNat
  let sp := tidSpire s.tid
  let n := y / 2 ^ 8 % 64
  let bits (w lo k : Nat) : Nat := w / 2 ^ lo % 2 ^ k
  let e := s.region sp n
  let i := Instr.rgnset g d a b
  let orow := bits x 0 8
  let ocol := 8 * bits x 8 8
  let rows := bits x 24 8 + 1
  let cols := bits x 32 10 + 1
  let bad := y % 4 = 3 ∨ bits y 2 2 ≠ 0 ∨ bits y 6 2 ≠ 0 ∨ bits y 14 6 ≠ 0 ∨ bits y 32 2 ≠ 0 ∨ 2 ^ 40 ≤ y
    ∨ (y % 4 = 0 ∧ (bits y 4 2 = 3 ∨ 2 ^ 42 ≤ x ∨ bits x 16 8 ≠ 0 ∨ (bits y 4 2 ≠ 1 ∧ bits y 20 12 ≠ 0)))
  let outside := 99 < bits x 8 8 ∨ 256 < orow + rows ∨ 800 < ocol + cols
  let away := orow / 16 / 2 * 10 + ocol / 80 ≠ sp % 80
  let crossing := bits y 4 2 = 2 ∧ (orow / 16 ≠ (orow + rows - 1) / 16 ∨ ocol / 40 ≠ (ocol + cols - 1) / 40)
  let meets := ∃ h m o, h / 80 = sp / 80 ∧ (m, o) ∈ (s.spire h).regions ∧ orow < o.orow + o.rows ∧ o.orow < orow + rows
    ∧ ocol < o.ocol + o.cols ∧ o.ocol < ocol + cols
  let only (t : State) : Prop := ∀ h m, (h, m) ≠ (sp, n) → t.region h m = s.region h m
  let parks : Prop := ∃ t, exec i s = .next t ∧ Parks .engine (.rgnset (s.getX a) (s.getX b) d) s t
  let ends (u : Nat) (q : State → Prop) : Prop := ∃ t, exec (.evThreadResume u) s = .next t ∧ only t ∧ SameBytes s t ∧ q t
    ∧ t.slot u = { (s.slot u).setX d 0 with st := .run, park := none, pc := (s.slot u).pc + 4 } ∧ ∀ z, z ≠ u → t.slot z = s.slot z
  let waits (u : Nat) : Prop := tidSpire u = sp ∧ (s.slot u).st = .park ∧ ∃ k, (s.slot u).park = some k ∧ k.op = .rgnset (s.getX a) (s.getX b) d
  (bad → GivesX i d 3 s)
  ∧ (¬ bad → y % 4 = 2 → GivesX i d (match e with | some r => r.rstat | none => 0) s)
  ∧ (¬ bad → y % 4 = 1 → (e = none → GivesX i d 1 s)
      ∧ (∀ r, e = some r → r.st ≠ .empty → GivesX i d 5 s)
      ∧ (∀ r, e = some r → r.st = .empty → r.kind = 2 → r.matrix.owner ≠ none → GivesX i d 5 s)
      ∧ (∀ r, e = some r → r.st = .empty → (r.kind ≠ 2 ∨ r.matrix.owner = none) → risingFrom 0 (s.spire sp).regions = true →
          parks ∧ ∀ u, waits u → ends u (fun t => t.region sp n = none)))
  ∧ (¬ bad → y % 4 = 0 → (e ≠ none → GivesX i d 1 s)
      ∧ (e = none → outside → GivesX i d 2 s)
      ∧ (e = none → ¬ outside → away → GivesX i d 4 s)
      ∧ (e = none → ¬ outside → ¬ away → crossing → GivesX i d 2 s)
      ∧ (e = none → ¬ outside → ¬ away → sp < 160 → meets → GivesX i d 2 s)
      ∧ (e = none → ¬ outside → ¬ away → ¬ crossing → ¬ meets → parks ∧ ∀ u, waits u → ends u (fun t =>
          ∃ r, t.region sp n = some r ∧ r.st = .empty ∧ r.kind = bits y 4 2 ∧ r.asid.toNat = bits y 20 12
          ∧ r.orow = orow ∧ r.ocol = ocol ∧ r.rows = rows ∧ r.cols = cols ∧ r.eq = bits y 34 6)))

/-- R410 to R418: the probes. TRACE makes a record while EN and TRINS are set; MARK answers by its statuses in order, starts a cut or
ends one with its markers gone; SNAP and DBGTRIG raise the common trigger, once a cycle, in every spire; an armed spire latches its
slots 16 cycles later; a ring with room takes the oldest record of the FIFO.
Where the rules leave the form open it is the model's: log 14, 45, 46, 47, 48. -/
def Obligations.DebugProbes : Prop := ∀ (g : Guard) (d a b : Reg) (h : Nat) (s : State), s.guardOk g = true →
  let sp := tidSpire s.tid
  let dbg (z : State) (w : Nat) : Debug := (z.spire w).dbg
  let x := (s.getX a).toNat
  let n := x % 64
  let op := x / 2 ^ 24 % 4
  let handle : BitVec 32 := (s.thr.handle s.tid).setWidth 32
  let time : Word := BitVec.ofNat 64 (s.now * 4 / 5)
  let mine (rec : TraceRec) (bitNo : Nat) (t : State) : Prop := (dbg t sp).fifo = (dbg s sp).fifo
      ++ (if (dbg s sp).trctl.getLsbD 0 ∧ (dbg s sp).trctl.getLsbD bitNo ∧ (dbg s sp).fifo.length < 64 then [rec] else [])
  let steps (t : State) : Prop := t.thr = { s.thr with pc := s.thr.pc + 4 } ∧ SameOthers s t
    ∧ { t with slots := s.slots, spires := s.spires } = s
  let raised (cyc : Nat) (t : State) : Prop := cyc ∈ t.trig
    ∧ (cyc ∈ s.trig → t.dbgout = s.dbgout ∧ ∀ w, (dbg t w).seq = (dbg s w).seq ∧ (dbg t w).latchAt = (dbg s w).latchAt)
    ∧ (cyc ∉ s.trig → t.dbgout = max s.dbgout (cyc + 16) ∧ ∀ w, w < 160 → (dbg t w).seq = (dbg s w).seq + 1
        ∧ ((dbg s w).arm = true → (dbg s w).latchAt = none → (dbg t w).latchAt = some (cyc + 16) ∧ (dbg t w).missed = (dbg s w).missed)
        ∧ ((dbg s w).arm = false → (dbg t w).missed = (dbg s w).missed + 1 ∧ (dbg t w).latchAt = (dbg s w).latchAt))
  let mark := Instr.mark g d a
  let bad := op = 3 ∨ x / 64 % 4 ≠ 0 ∨ 2 ^ 26 ≤ x ∨ ∃ r, s.region sp n = some r ∧ r.kind = 2
  (∃ t, exec (.trace g a b) s = .next t ∧ steps t ∧ mine ⟨1, 0, handle, time, s.getX a, s.getX b⟩ 1 t
    ∧ ((dbg s sp).trctl.getLsbD 0 = false ∨ (dbg s sp).trctl.getLsbD 1 = false → t.spires = s.spires)
    ∧ ((dbg s sp).trctl.getLsbD 0 = true → (dbg s sp).trctl.getLsbD 1 = true → 64 ≤ (dbg s sp).fifo.length →
        (dbg s sp).lostFull.toNat < 2 ^ 32 - 1 → (dbg t sp).lostFull = (dbg s sp).lostFull + 1))
  ∧ (s.thr.prv ≠ .user →
      (bad → GivesX mark d 3 s)
      ∧ (¬ bad → s.region sp n = none → GivesX mark d 1 s)
      ∧ (∀ r, ¬ bad → s.region sp n = some r →
          (r.st = .empty ∨ r.st = .loading → GivesX mark d 1 s)
          ∧ (r.st = .swapping → GivesX mark d 5 s)
          ∧ (r.st ≠ .empty → r.st ≠ .loading → r.st ≠ .swapping →
              (op < 2 → r.cut.state = 1 → GivesX mark d 5 s)
              ∧ (op < 2 → r.cut.state ≠ 1 → GivesRegion mark d 0 n { r with
                  cut := ⟨BitVec.ofNat 16 (x / 2 ^ 8), 1, decide (op = 1), [], []⟩ } s)
              ∧ (op = 2 → (r.queues.map Prod.fst).Nodup → (r.squeues.map Prod.fst).Nodup → ∃ r', GivesRegion mark d 0 n r' s
                  ∧ r'.cut.state = 0 ∧ r'.cut.stop = false ∧ r'.cut.passed = []
                  ∧ (∀ q, queueOf q r'.queues = (queueOf q r.queues).filter (fun t => !t.marker)
                      ∧ queueOf q r'.squeues = (queueOf q r.squeues).filter (fun t => !t.marker))
                  ∧ r'.crossings = r.crossings.filter (fun x => !x.tok.marker) ∧ r'.stalled = r.stalled.filter (fun x => !x.tok.marker)
                  ∧ { r' with cut := r.cut, queues := r.queues, squeues := r.squeues, crossings := r.crossings, stalled := r.stalled } = r)))
      ∧ (sp < 160 → let cyc := s.now
          let q := (dbg s sp).seq + (if cyc ∈ s.trig then 0 else 1)
          ∃ t, exec (.snap g d) s = .next t ∧ raised cyc t ∧ StepsX d (q.setWidth 64) s t ∧ t.mem = s.mem
            ∧ mine ⟨4, 0, handle, time, q.setWidth 64, 0⟩ 2 t ∧ (∀ w, w ≠ sp → (dbg t w).fifo = (dbg s w).fifo)))
  ∧ (∃ t, exec .evDbgtrig s = .next t ∧ raised s.now t ∧ (∀ w, (dbg t w).fifo = (dbg s w).fifo) ∧ SameBytes s t
      ∧ ∀ u, t.slot u = s.slot u)
  ∧ (∀ c, (dbg s h).latchAt = some c → s.now < c → exec (.evSnapshotLatch h) s = .next s)
  ∧ (∀ c, (dbg s h).latchAt = some c → c ≤ s.now → ∃ t, exec (.evSnapshotLatch h) s = .next t ∧ (dbg t h).arm = false
      ∧ (dbg t h).latchAt = none ∧ (dbg t h).seq = (dbg s h).seq
      ∧ (∀ i, i < 256 → tget i (dbg t h).slotsnap = some (s.slot (mkTid h (i / 16) (i % 16))).query)
      ∧ (∀ k, k < 16 → tget (2 * k + 1) (dbg t h).chsnap = some (((s.spire h).channel k).wm.setWidth 64))
      ∧ ((∀ w, w / 80 = h / 80 → (s.spire w).regions = []) → ∀ k, k < 2560 →
          ((t.spire h).site k).snap = [(0xA0, BitVec.ofNat 64 ((dbg s h).seq.toNat * 2 ^ 48 + 8 * 2 ^ 16))])
      ∧ SameBytes s t ∧ ∀ u, t.slot u = s.slot u)
  ∧ (∀ r rest, (dbg s h).fifo = r :: rest → (s.spire h).cache = [] →
      let k := (dbg s h).trbase.toNat + 32 * ((dbg s h).trw.toNat % 2 ^ (dbg s h).trsize)
      (2 ^ (dbg s h).trsize ≤ ((dbg s h).trw - (dbg s h).trr).toNat → exec (.evTraceWrite h) s = .next s)
      ∧ (((dbg s h).trw - (dbg s h).trr).toNat < 2 ^ (dbg s h).trsize → (s.home k).cached = true →
          ∃ t, exec (.evTraceWrite h) s = .next t ∧ dbg t h = { dbg s h with fifo := rest, trw := (dbg s h).trw + 1 }
            ∧ bytesAt t k 8 = r.kind % 256 + r.sub % 256 * 2 ^ 8 + r.source.toNat * 2 ^ 32
            ∧ bytesAt t (k + 8) 8 = r.time.toNat ∧ bytesAt t (k + 16) 8 = r.data0.toNat ∧ bytesAt t (k + 24) 8 = r.data1.toNat
            ∧ SameBytesBut k 32 s t ∧ ∀ u, t.slot u = s.slot u))

/-- R385 to R389, R396, R401: the registers and packets of a queue. A doorbell beyond the ring halts it OVERRUN; 1 written to ERR restarts
it past the bad packet; FAULT retries a stalled command and ABORT ends it with code 0x45; an event is written in its ring; a packet
whose opcode, fields or privilege are wrong halts the queue with 0x40, 0x41 or 0x47; FENCE and LAUNCH, which enters its die's FIFO at
its start, its argument block read or not.
Where the rules leave the form open it is the model's: log 14, 56, 57, 59. -/
def Obligations.CommandQueues : Prop := ∀ (q n : Nat) (ws : Vector Word 8) (s : State), q < 64 →
  let v := s.queue q
  let reached := s.die0.booted = true ∧ (s.die (q / 32)).booted = true
  let w : BitVec 32 := BitVec.ofNat 32 n
  (reached →
    ((w - v.ridx).toNat ≤ 2 ^ v.log2n → exec (.evWidxWrite q n) s = .next (s.setQueue q { v with widx := w }))
    ∧ (2 ^ v.log2n < (w - v.ridx).toNat →
        exec (.evWidxWrite q n) s = .next (s.setQueue q { v with widx := w, err := true, code := 0x46, overrun := true }))
    ∧ (v.err = true → (v.widx - v.ridx).toNat ≤ 2 ^ v.log2n → exec (.evQstatErr q) s = .next (s.setQueue q { v with
        err := false, overrun := false, ridx := if v.overrun = true ∨ v.ridx = v.widx then v.ridx else v.ridx + 1 }))
    ∧ (∀ c f, v.cmds = [c] → c.stalled = some f → ((∃ i j l, c.work = .launch i j l) ∨ c.work = .wait ∨ c.work = .signal) →
        exec (.evQstatFault q) s = .next (s.setQueue q { v with cmds := [{ c with stalled := none }] })
        ∧ (let s' := s.post ⟨1, q, q / 32, 0x45, c.idx.setWidth 64, f.val, BitVec.ofNat 64 (c.words[0].toNat / 2 ^ 32), 0⟩
           exec (.evQstatAbort q) s
            = .next (s'.setQueue q { s'.queue q with cmds := [{ c with stalled := none, done := true }] })))
    ∧ (s.die0.held = [] → s.die1.held = [] → exec (.evEvrWrite q n) s = .next (s.setQueue q { v with evr := w })))
  ∧ (∀ e : EvRec, e.queue = q → e.kind < 256 → e.die < 2 → e.code < 2 ^ 32 → (v.evw - v.evr).toNat < 2 ^ v.evlog →
      (∀ h ∈ (s.die e.die).held, h.queue ≠ q) →
      let k := (if v.evloc then v.evbase.toNat % 2 ^ 48 else 2 ^ 47 + v.evbase.toNat % 2 ^ 46) + 32 * (v.evw.toNat % 2 ^ v.evlog)
      let t := s.post e
      ((s.home k).cached = true ∨ s.home k = .host) →
      t.queue q = { v with evw := v.evw + 1 } ∧ SameBytesBut k 32 s t
        ∧ bytesAt t k 8 = e.kind + q * 2 ^ 8 + e.die * 2 ^ 16 + e.code * 2 ^ 32
        ∧ bytesAt t (k + 8) 8 = e.id.toNat ∧ bytesAt t (k + 16) 8 = e.info0.toNat ∧ bytesAt t (k + 24) 8 = e.info1.toNat)
  ∧ (QueueReady q ws s →
      let op := ws[0].toNat % 256
      let spare := ws[0].toNat / 2 ^ 11 % 2 ^ 21 ≠ 0 ∨ ws[7] ≠ 0
      let halts (code : BitVec 8) : Prop := ∃ t, exec (.evFence q) s = .next t ∧ SameButLantern s t
        ∧ t.queue q = { v with err := true, code := code, overrun := false }
      let starts (i : Instr) (c : Cmd) (fifo : List (Nat × BitVec 32)) : Prop := ∃ t, exec i s = .next t ∧ SameButLantern s t
        ∧ t.queue q = { v with ridx := v.ridx + 1, cmds := [c] }
        ∧ t.die (q / 32) = { s.die (q / 32) with served := some q, fifo := fifo }
      (op = 0 ∨ 8 < op → halts 0x40)
      ∧ (1 ≤ op → op ≤ 8 → spare → halts 0x41)
      ∧ (op = 8 → (∃ j : Fin 5, ws[j.val + 2] ≠ 0) → halts 0x41)
      ∧ (op = 6 → ¬ spare → ws[4].toNat < 160 → ws[5] = 0 → ws[6] = 0 → v.privk = false → halts 0x47)
      ∧ (op = 8 → ¬ spare → (∀ j : Fin 5, ws[j.val + 2] = 0) →
          starts (.evFence q) ⟨v.ridx, ws, .fence, none, true, false⟩ (s.die (q / 32)).fifo)
      ∧ (op = 1 → ¬ spare → ws[2].toNat % 4 = 0 → ws[4].toNat < 2 ^ 50 → 1 ≤ ws[4].toNat % 2 ^ 32 →
          ws[4].toNat / 2 ^ 32 % 256 ≤ ws[4].toNat / 2 ^ 40 % 256 → ws[4].toNat / 2 ^ 40 % 256 < 160 →
          (ws[4].toNat / 2 ^ 48 = 0 ∨ (ws[4].toNat / 2 ^ 48 = 1 ∧ v.privk = true)) → ws[6] = 0 →
          (q, v.ridx) ∉ (s.die (q / 32)).fifo →
          (∃ t, exec (.evLaunch q) s = .next t ∧ (t.die (q / 32)).fifo = (s.die (q / 32)).fifo ++ [(q, v.ridx)]
            ∧ (t.queue q).ridx = v.ridx + 1 ∧ (t.die (q / 32)).served = some q)
          ∧ (ws[3] = 0 → starts (.evLaunch q) ⟨v.ridx, ws, .launch 0 0 (List.replicate 8 0), none, false, false⟩
              ((s.die (q / 32)).fifo ++ [(q, v.ridx)]))))

/-- R138, R139, R389, R391 to R397: a started command at work. WAIT waits for its word; SIGNAL writes it; a fault stalls its command with a
STALL event; a LAUNCH reads its argument block and places its threads one by one in the lowest free slot of its spires, and holds back a
younger one of the FIFO whose spires overlap its own even before its block is read; a command that is done leaves its queue, making its signal and its interrupt, a LAUNCH not before its writes to peers are acknowledged (R181). Stated for words of a keep.
The completion of a LAUNCH waits for the posted peer writes of every
agent (log 86: the model's reading). Where the rules leave the form open it is the model's: log 14, 40, 61, 62, 86. -/
def Obligations.CommandSteps : Prop := ∀ (q : Nat) (c : Cmd) (s : State), q < 64 →
  let v := s.queue q
  let ws := c.words
  let rights : Ctx := ⟨160 + q / 32, v.asid, v.ptbr, Vector.replicate 5 0, .lantern⟩
  let with_ (c' : Cmd) : Queue := { v with cmds := [c'] }
  let tag : Word := BitVec.ofNat 64 (ws[0].toNat / 2 ^ 32)
  let stalled (f : Flt) : Queue := { v with cmds := [{ c with stalled := some f }], code := BitVec.ofNat 8 f.cause.code }
  let stalls (i : Instr) (f : Flt) : Prop := exec i s = .next ((s.setQueue q (stalled f)).post ⟨2, q, q / 32, f.cause.code, BitVec.ofNat 64 c.idx.toNat, f.val, tag, 0⟩)
  let inKeep (k : Chunk) (va : Word) : Prop := k.va = va.toNat ∧ k.len = 8 ∧ k.once = false ∧ 2 ^ 48 ≤ k.key
    ∧ s.home k.key = .keep ((k.key - 2 ^ 48) / 2 ^ 22) ((k.key - 2 ^ 48) % 2 ^ 22)
  let word (k : Chunk) : Nat := bytesAt s k.key 8
  let settled (w : Nat) : Nat × Bool :=
    let p := w % 2 ^ 24
    let a := w / 2 ^ 24 % 2 ^ 24 + 1
    if p ≠ 0 ∧ a = p then ((w / 2 ^ 48 + 1) % 2 ^ 16 * 2 ^ 48, true) else (w / 2 ^ 48 * 2 ^ 48 + a * 2 ^ 24 + p, false)
  let bits (k : Chunk) (f : Bool) : List Nat := if f then natAdd (k.key / 8) s.full else natDel (k.key / 8) s.full
  let writes (i : Instr) (k : Chunk) (w : Nat) (bits : List Nat) (cmds : List Cmd) : Prop := ∃ t, exec i s = .next t
    ∧ (t.queue q).cmds = cmds ∧ bytesAt t k.key 8 = w ∧ SameBytesBut k.key 8 s t ∧ t.full = bits ∧ (∀ u, t.slot u = s.slot u)
  v.cmds = [c] →
  (c.done = false → c.stalled = none →
    (c.work = .wait →
      let cond := ws[3].toNat % 4
      let acc : Acc := { Acc.load ws[2] 8 with strict := true, sync := decide (cond = 1 ∨ cond = 2) }
      (cond = 0 → exec (.evWait q) s = .next (s.setQueue q (with_ { c with done := true })))
      ∧ (∀ f, cond ≠ 0 → s.engineCheck rights acc false = (s, .fault f) → stalls (.evWait q) f)
      ∧ (∀ k, cond ≠ 0 → s.engineCheck rights acc false = (s, .pass [k]) → inKeep k ws[2] →
          let holds := if cond = 3 then word k / 2 ^ 24 % 2 ^ 24 = word k % 2 ^ 24 else natIn (k.key / 8) s.full = decide (cond = 1)
          (holds → exec (.evWait q) s = .next (s.setQueue q (with_ { c with done := true })))
          ∧ (¬ holds → exec (.evWait q) s = .next s)))
    ∧ (c.work = .signal → ws[0].toNat % 256 = 4 →
        let sync (o : SyncOp) : Acc := ⟨o.kind, ws[2], 8, true, true, false, false, false⟩
        let spent := [{ c with done := true }]
        (ws[3].toNat % 4 = 0 →
          (∀ k, s.engineCheck rights (sync .stf) false = (s, .pass [k]) → inKeep k ws[2] →
            writes (.evSignalStf q) k ws[4].toNat (bits k true) spent)
          ∧ (∀ f, s.engineCheck rights (sync .stf) false = (s, .fault f) → stalls (.evSignalStf q) f))
        ∧ (ws[3].toNat % 4 = 1 → ∀ k, s.engineCheck rights (sync .arrive) false = (s, .pass [k]) → inKeep k ws[2] →
            word k / 2 ^ 24 % 2 ^ 24 ≠ 2 ^ 24 - 1 →
            writes (.evSignalArrive q) k (settled (word k)).1 (bits k (settled (word k)).2) spent)
        ∧ (ws[3].toNat % 4 = 2 → ∀ k,
            s.engineCheck rights ⟨.readWrite, ws[2], 8, true, false, false, false, false⟩ false = (s, .pass [k]) → inKeep k ws[2] →
            writes (.evSignalAadd q) k ((word k + ws[4].toNat) % 2 ^ 64) s.full spent))
    ∧ (c.work = .launch 0 0 [] → ws[3] ≠ 0 → (q, c.idx) ∈ (s.die (q / 32)).fifo →
        (∀ f, s.engineCheck rights (Acc.load ws[3] 64) false = (s, .fault f) → stalls (.evLaunch q) f)
        ∧ (∀ k, s.engineCheck rights (Acc.load ws[3] 64) false = (s, .pass [k]) → k.len = 64 → s.home k.key ≠ .device →
            let args : List Word := (List.range 8).map (fun i => BitVec.ofNat 64 (bytesAt s (k.key + 8 * i) 8))
            ∃ t, exec (.evLaunch q) s = .next t ∧ SameButLantern s t
              ∧ t.queue q = with_ { c with work := .launch 0 0 args }
              ∧ t.die (q / 32) = s.die (q / 32))))
  ∧ (∀ q' c', c.done = false → c'.done = false → q' / 32 = q / 32 → q' ≠ q → (s.queue q').cmds = [c'] → c.work = .launch 0 0 [] →
      (s.die (q / 32)).fifo = [(q, c.idx), (q', c'.idx)] →
      ws[4].toNat / 2 ^ 32 % 256 ≤ c'.words[4].toNat / 2 ^ 40 % 256 → c'.words[4].toNat / 2 ^ 32 % 256 ≤ ws[4].toNat / 2 ^ 40 % 256 →
      exec (.evLaunchPlace (q / 32)) s = .next s)
  ∧ (∀ placed exited args g core sl, c.done = false → args ≠ [] → c.work = .launch placed exited args → (s.die (q / 32)).fifo = [(q, c.idx)] →
      g < 160 → core < 16 → sl < 16 →
      let first := ws[4].toNat / 2 ^ 32 % 256
      let last := ws[4].toNat / 2 ^ 40 % 256
      let u := g / 80 * 32768 + g % 80 * 256 + core * 16 + sl
      let free (g core sl : Nat) : Prop := (s.island (3 * g)).st = 1 ∧ (s.slot (g / 80 * 32768 + g % 80 * 256 + core * 16 + sl)).st = .free
      first ≤ g → g ≤ last → last < 160 → free g core sl →
      (∀ g' c' s', first ≤ g' → c' < 16 → s' < 16 → 256 * g' + 16 * c' + s' < 256 * g + 16 * core + sl → ¬ free g' c' s') →
      ∃ t, exec (.evLaunchPlace (q / 32)) s = .next t ∧ (∀ z, z ≠ u → t.slot z = s.slot z)
        ∧ (t.slot u).st = .run ∧ (t.slot u).pc = ws[2] ∧ (t.slot u).work = BitVec.ofNat 32 placed ∧ (t.slot u).asid = v.asid
        ∧ (t.slot u).ptbr = v.ptbr ∧ (t.slot u).tvec = ws[5] &&& 0xFFFFFFFFFFFC#64
        ∧ (t.slot u).prv = (if ws[4].toNat / 2 ^ 48 % 4 = 1 then .kernel else .user) ∧ (t.slot u).park = none
        ∧ (∀ r : Reg, (t.slot u).getX r = (if r = 0 then 0 else args.getD (r.val - 1) 0))
        ∧ (∀ z, z < 160 → (⟨tidSpire u, v.asid, v.ptbr, (t.slot u).kwin, .user⟩ : Ctx).keepRight z .readWrite
            = decide (first ≤ z ∧ z ≤ last))
        ∧ t.queue q = with_ { c with work := .launch (placed + 1) exited args }
        ∧ (t.die (q / 32)).fifo = (if placed + 1 < ws[4].toNat % 2 ^ 32 then [(q, c.idx)] else [])
        ∧ SameBytes s t)
  ∧ (c.done = true → (c.work = .wait ∨ c.work = .signal ∨ c.work = .fence ∨ c.work = .region) →
      let irqs (t : State) : Prop := t.msix = s.msix ++ (if ws[0].getLsbD 9 then [v.msix.toNat] else [])
      ((ws[0].getLsbD 8 = false ∨ ws[1] = 0) → ∃ t, exec (.evCommandComplete q c.idx.toNat) s = .next t ∧ t.queue q = { v with cmds := [] }
          ∧ irqs t ∧ t.mem = s.mem ∧ ∀ u, t.slot u = s.slot u)
      ∧ (∀ k k', ws[0].getLsbD 8 = true → ws[1] ≠ 0 → c.sigDone = false →
          s.engineCheck rights ⟨.readWrite, ws[1], 8, false, false, false, false, false⟩ false = (s, .pass [k']) →
          s.home k'.key ≠ .host →
          s.engineCheck rights ⟨.readWrite, ws[1], 8, true, true, false, false, false⟩ false = (s, .pass [k]) → inKeep k ws[1] →
          word k / 2 ^ 24 % 2 ^ 24 ≠ 2 ^ 24 - 1 →
          writes (.evCommandComplete q c.idx.toNat) k (settled (word k)).1 (bits k (settled (word k)).2) []))
  ∧ (∀ exited args, c.done = false → c.work = .launch (ws[4].toNat % 2 ^ 32) exited args → (ws[0].getLsbD 8 = false ∨ ws[1] = 0) →
      (exited < ws[4].toNat % 2 ^ 32 → exec (.evCommandComplete q c.idx.toNat) s = .next s)
      ∧ (exited = ws[4].toNat % 2 ^ 32 → ws[4].toNat / 2 ^ 32 % 256 ≤ ws[4].toNat / 2 ^ 40 % 256 →
          (∃ o ∈ s.peerOut, o.posted = true) → exec (.evCommandComplete q c.idx.toNat) s = .next s)
      ∧ (exited = ws[4].toNat % 2 ^ 32 → (∀ g, (s.spire g).cache = []) → (∀ o ∈ s.peerOut, o.posted = false) →
          ∃ t, exec (.evCommandComplete q c.idx.toNat) s = .next t ∧ t.queue q = { v with cmds := [] } ∧ t.mem = s.mem
            ∧ ∀ u, t.slot u = s.slot u))

/-- R394, R396, R437: BIND and its ports. At its start a region that is not PLACED of kind 1 ends the command with 0x41, a retry does not ask
again; the ports of the descriptors and every SINK port are bound; an inbound port sends its doublewords, the last with DIM 1, then
an end-of-stream, which a SINK counts; an outbound port stores each token's payload, counts one beyond its descriptor or after its
last as overflow, discards where it never had one, and goes to its next descriptor at an end-of-stream.
Where the rules leave the form open it is the model's: log 14, 17, 32, 59. -/
def Obligations.BoundPorts : Prop := ∀ (q h n : Nat) (c : Cmd) (r : Region) (s : State), s.region h n = some r →
  let v := s.queue q
  let ws := c.words
  let rights : Ctx := ⟨160 + q / 32, v.asid, v.ptbr, Vector.replicate 5 0, .lantern⟩
  let idx := c.idx.toNat
  let reads (s' : State) (idx : Nat) : Prop := ∀ bs (ds : List BindDesc),
    s'.lanternRead rights (Acc.load ws[3] (32 * ws[4].toNat)) = (s', .ok bs) →
    ds.length = ws[4].toNat → (∀ i, i < ds.length → ∃ d, ds[i]? = some d ∧ d.entry < r.entries.length ∧ d.len % 8 = 0
      ∧ fieldAt bs (32 * i) 4 = d.entry ∧ fieldAt bs (32 * i + 4) 4 = 0 ∧ fieldAt bs (32 * i + 8) 8 = d.base.toNat
      ∧ fieldAt bs (32 * i + 16) 8 = d.len ∧ fieldAt bs (32 * i + 24) 8 = 0) →
    ∃ ports : List BoundPort, exec (.evBind q) s = .next (s'.setRegion h n { r with
        binds := [⟨q, idx, v.asid, v.ptbr, ports, 0, []⟩], casid := v.asid, cptbr := v.ptbr, cprv := .lantern })
      ∧ ∀ p, p ∈ ports ↔ ∃ i e, r.entries[i]? = some e ∧ (e.sink = true ∨ ∃ d ∈ ds, d.entry = i)
          ∧ p = ⟨i, ds.filter (fun d => decide (d.entry = i)), 0, false, false, false, false,
              (ds.filter (fun d => decide (d.entry = i))).isEmpty⟩
  (r.binds = [] → ws[2].toNat % 256 = h → ws[2].toNat / 256 % 64 = n →
    (QueueReady q ws s → v.badPacket ws = none → ws[0].toNat % 256 = 2 →
      let c' : Cmd := ⟨v.ridx, ws, .bind h n, none, false, false⟩
      let s' := (s.setQueue q { v with ridx := v.ridx + 1, cmds := [c'] }).setDie (q / 32) { s.die (q / 32) with served := some q }
      (r.kind ≠ 1 ∨ r.st ≠ .placed →
        let t := s'.post ⟨1, q, q / 32, 0x41, v.ridx.setWidth 64, 0, BitVec.ofNat 64 (ws[0].toNat / 2 ^ 32), 0⟩
        exec (.evBind q) s = .next (t.setQueue q { t.queue q with cmds := [{ c' with done := true }] }))
      ∧ (r.kind = 1 → r.st = .placed → reads s' v.ridx.toNat))
    ∧ (v.cmds = [c] → c.done = false → c.stalled = none → c.work = .bind h n → reads s idx))
  ∧ (∀ b p k e, r.binds = [b] → b.ports = [p] → p.entry = k → p.held = false → p.lost = false → r.entries[k]? = some e → r.st = .placed → r.parity = [] →
      let bound (p' : BoundPort) : List BindState := [{ b with ports := [p'] }]
      let mine : Ctx := ⟨h, b.asid, b.ptbr, Vector.replicate 5 0, .lantern⟩
      (∀ d ds plane node, p.descs = d :: ds → e.dir = 0 → r.active = some plane →
        plane.nodes.find? (fun x => decide (x.site = e.site)) = some node → nodeOp node.word = 0x3E →
        let sends (tok : Token) (p' : BoundPort) (eos : List (Nat × Nat)) : Prop := ∃ t r', exec (.evBindInbound h n k) s = .next t
          ∧ t.region h n = some r' ∧ r'.tokens ⟨node.site, 0⟩ = r.tokens ⟨node.site, 0⟩ ++ [tok]
          ∧ (∀ x, x ≠ ⟨node.site, 0⟩ → r'.tokens x = r.tokens x) ∧ r'.binds = bound p'
          ∧ { r' with queues := r.queues, binds := r.binds, sinkEos := r.sinkEos } = r ∧ r'.sinkEos = eos
          ∧ ∀ u, t.slot u = s.slot u
        (8 ≤ (r.tokens ⟨node.site, 0⟩).length → exec (.evBindInbound h n k) s = .next s)
        ∧ ((r.tokens ⟨node.site, 0⟩).length < 8 →
            (∀ bs, 8 * p.moved < d.len → s.engineRead mine (d.base + BitVec.ofNat 64 (8 * p.moved)) 8 true = (s, .ok bs) →
              sends ⟨false, 0, if 8 * (p.moved + 1) = d.len then 1 else 0, .data, 0xFF, BitVec.ofNat 64 (leNat bs), 0⟩
                { p with moved := p.moved + 1 } r.sinkEos)
            ∧ (d.len ≤ 8 * p.moved →
                sends ⟨false, 0, 7, .endStream, 0, 0, 0⟩ { p with descs := ds, moved := 0, ended := ds.isEmpty }
                  (if e.sink then tset k ((tget k r.sinkEos).getD 0 + 1) r.sinkEos else r.sinkEos))))
      ∧ (∀ tok rest, e.dir = 1 → queueOf ⟨e.site, 4⟩ r.queues = tok :: rest → p.closed = false →
          let takes (binds : List BindState) (eos : List (Nat × Nat)) (m : State → Prop) : Prop :=
            ∃ t r', exec (.evBindOutbound h n k) s = .next t ∧ t.region h n = some r' ∧ m t ∧ queueOf ⟨e.site, 4⟩ r'.queues = rest
              ∧ (∀ x, x ≠ ⟨e.site, 4⟩ → queueOf x r'.queues = queueOf x r.queues) ∧ r'.binds = binds ∧ r'.sinkEos = eos
              ∧ { r' with queues := r.queues, binds := r.binds, sinkEos := r.sinkEos } = r ∧ ∀ u, t.slot u = s.slot u
          (r.queues.map Prod.fst).Nodup →
          (tok.kind = .endStream → p.ended = false → takes (bound { p with descs := p.descs.drop 1, moved := 0, ended := (p.descs.drop 1).isEmpty })
              (if e.sink then tset k ((tget k r.sinkEos).getD 0 + 1) r.sinkEos else r.sinkEos) (SameBytes s))
          ∧ (tok.kind = .data → tok.poison = false → p.descs = [] →
              takes (if p.bare then bound p else [{ b with ovf := b.ovf + 1 }]) r.sinkEos (SameBytes s))
          ∧ (∀ d ds, tok.kind = .data → tok.poison = false → p.descs = d :: ds →
              (d.len ≤ 8 * p.moved → takes [{ b with ovf := b.ovf + 1 }] r.sinkEos (SameBytes s))
              ∧ (8 * p.moved < d.len → tok.valid = 0 → takes (bound { p with moved := p.moved + 1 }) r.sinkEos (SameBytes s))
              ∧ (∀ z : Chunk, 8 * p.moved < d.len → tok.valid = 0xFF →
                  let va := d.base + BitVec.ofNat 64 (8 * p.moved)
                  s.checkStore mine ⟨⟨0, 0, 0⟩, true, tok.tag, 0, 0, va, 8, false, tok.payload, 0xFF, false, false, 0, false⟩
                    = (s, .pass [z]) → va.toNat % 8 = 0 → z.va = va.toNat → z.len = 8 → z.once = false → 2 ^ 48 ≤ z.key →
                  s.home z.key = .keep ((z.key - 2 ^ 48) / 2 ^ 22) ((z.key - 2 ^ 48) % 2 ^ 22) →
                  takes (bound { p with moved := p.moved + 1 }) r.sinkEos
                    (fun t => SameBytesBut z.key 8 s t ∧ bytesAt t z.key 8 = tok.payload.toNat)))))

/-- R320, R322, R379, R389, R398 to R400: REGION does what RGNSET does, in the spire it names; COPY reads its levels and enters its
channel's queue for the command, or is refused where a thread owns the channel's staging shape; CONFIG LOAD checks its object before it writes any site; UNLOAD sets HALT, drops a cut and waits for QUIET,
FORCE for the accesses, and the region is then EMPTY. Where the rules leave the form open it is the model's: log 14, 42, 43, 59, 89, 105. -/
def Obligations.RegionCommands : Prop := ∀ (q : Nat) (c : Cmd) (s : State),
  let v := s.queue q
  let ws := c.words
  let rights : Ctx := ⟨160 + q / 32, v.asid, v.ptbr, Vector.replicate 5 0, .lantern⟩
  let idx := c.idx.toNat
  let ends (i : Instr) (code : Nat) (info : Word) : Prop :=
    let s' := s.post ⟨1, q, q / 32, code, c.idx.setWidth 64, info, BitVec.ofNat 64 (ws[0].toNat / 2 ^ 32), 0⟩
    exec i s = .next (s'.setQueue q { s'.queue q with cmds := [{ c with done := true }] })
  let room (h ch : Nat) : Prop := ((s.spire h).channel ch).queue.length < 4 ∧ ∀ z ∈ s.slots, tidSpire z.1 = h → ∀ p r,
    z.2.park = some p → p.op = .copy r → r.ch = ch → (s.spire h).copySeq ≤ r.seq
  let works (i : Instr) (w : CmdWork) (s' : State) : Prop := exec i s = .next (s'.setQueue q { v with cmds := [{ c with work := w }] })
  (∀ s' st, QueueReady q ws s → v.badPacket ws = none → ws[0].toNat % 256 = 6 →
    s.rgnset (ws[4].toNat % 256) ws[2] ws[3] = (s', st) →
    let spent : Cmd := ⟨v.ridx, ws, .region, none, true, false⟩
    ∃ t, exec (.evRegion q) s = .next t ∧ t.spires = s'.spires ∧ (∀ u, t.slot u = s.slot u)
      ∧ (t.queue q).cmds = [spent] ∧ (t.queue q).ridx = v.ridx + 1
      ∧ (st = 0 ∨ ws[3].toNat % 4 = 2 → t.queue q = { v with ridx := v.ridx + 1, cmds := [spent] } ∧ SameBytes s t)
      ∧ (st ≠ 0 → ws[3].toNat % 4 ≠ 2 → (v.evw - v.evr).toNat < 2 ^ v.evlog → (s.die (q / 32)).held = [] →
          t.queue q = { v with ridx := v.ridx + 1, cmds := [spent], evw := v.evw + 1 }))
  ∧ (v.cmds = [c] → c.done = false → c.stalled = none →
    (∀ h ch bs, c.work = .copy h ch none → ws[2].toNat % 256 = h → ws[2].toNat / 256 % 16 = ch →
      s.lanternRead rights (Acc.load ws[5] (16 * ws[6].toNat)) = (s, .ok bs) →
      let sig : Word := if ws[0].getLsbD 8 ∧ ws[1] ≠ 0 then ws[1] else 0
      (copyLevels bs ws[6].toNat = none → ends (.evCopy q) 0x41 3)
      ∧ (∀ sh, copyLevels bs ws[6].toNat = some sh → ((s.spire h).channel ch).owner ≠ none → ends (.evCopy q) 0x41 2)
      ∧ (∀ sh, copyLevels bs ws[6].toNat = some sh → ((s.spire h).channel ch).owner = none →
          (∀ f, copyFault h sh ws[4] sig false = some f → ends (.evCopy q) f.cause.code f.val)
          ∧ (copyFault h sh ws[4] sig false = none → ¬ room h ch → exec (.evCopy q) s = .next s)
          ∧ (copyFault h sh ws[4] sig false = none → room h ch → ((s.spire h).channel ch).queue = [] →
              let e : CopyEntry := {
                shape := sh, src := ws[3], dst := ws[4], sig := sig, issuer := .command q idx, asid := v.asid, ptbr := v.ptbr
                kwin := Vector.replicate 5 0, prv := .lantern, port := none, st := .landing, next := 0, wm := ws[4].setWidth 48
                seq := (s.spire h).copySeq, hold := [], serial := s.serial, far := false }
              let k := { (s.spire h).channel ch with queue := [e], wm := ws[4].setWidth 48 }
              works (.evCopy q) (.copy h ch (some (s.spire h).copySeq)) { s.setSpire h
                ({ s.spire h with copySeq := (s.spire h).copySeq + 1 }.setChannel ch k) with serial := s.serial + 1 })))
    ∧ (c.work = .load [] [] 0 [] → ∀ mb, s.lanternRead rights (Acc.load ws[4] (4 * ws[5].toNat)) = (s, .ok mb) →
        (s.readObject rights ws[2] = (s, .malformed) → ends (.evConfigLoad q) 0x42 0)
        ∧ (∀ xs, s.readObject rights ws[2] = (s, .ok xs) →
            (checkObject ws[2] xs = none → ends (.evConfigLoad q) 0x42 0)
            ∧ (∀ secs prog st, checkObject ws[2] xs = some (secs, prog) → prog[0]? = some st → st.op ≤ 7 → st.cond ≤ 3 →
                works (.evConfigLoad q) (.load secs prog 0 ((List.range ws[5].toNat).map (fun i =>
                  (fieldAt mb (4 * i) 1, fieldAt mb (4 * i + 1) 1 % 64)))) s)))
    ∧ (∀ force, let i := if force then Instr.evConfigForce q else Instr.evConfigUnload q
        (∀ mb h n, c.work = .unload none force → s.lanternRead rights (Acc.load ws[4] 4) = (s, .ok mb) → fieldAt mb 0 1 = h →
          fieldAt mb 1 1 % 64 = n →
          (s.region h n = none → ends i 0x41 0)
          ∧ (∀ r, s.region h n = some r → r.kind = 1 →
              works i (.unload (some (h, n)) force) (s.setRegion h n { r.dropCut with halt := true })))
        ∧ (∀ h n r, c.work = .unload (some (h, n)) force → s.region h n = some r → r.binds = [] →
            let ready := if force then r.accs = [] else r.isQuiet = true
            (¬ ready → exec i s = .next s)
            ∧ (ready → ∃ t r', exec i s = .next t ∧ (t.queue q).cmds = [{ c with done := true }] ∧ t.region h n = some r'
                ∧ r'.st = .empty ∧ r'.active = none ∧ r'.shadow = none ∧ r'.queues = [] ∧ r'.nodes = [] ∧ r'.halt = false
                ∧ r'.entries = [] ∧ (r'.orow, r'.ocol, r'.rows, r'.cols, r'.kind) = (r.orow, r.ocol, r.rows, r.cols, r.kind)
                ∧ SameBytes s t ∧ ∀ u, t.slot u = s.slot u))))

/-- R62, R224, R270, R286, R398, R401: the sequencing program. Each step of a started LOAD does what its opcode says in the region that the map
gives it and the program goes on with the next step, or waits; a step outside the program, or one that cannot be done, ends the
command with a SEQ_ERROR event that names it. Where the rules leave the form open it is the model's: log 28, 60, 94. -/
def Obligations.SequenceSteps : Prop := ∀ (q i : Nat) (c : Cmd) (secs : List Section) (prog : List SeqStep) (map : List (Nat × Nat))
    (st : SeqStep) (s : State),
  let v := s.queue q
  let rights : Ctx := ⟨160 + q / 32, v.asid, v.ptbr, Vector.replicate 5 0, .lantern⟩
  let k := c.idx.toNat
  v.cmds = [c] → c.done = false → c.stalled = none → c.work = .load secs prog i map → map ≠ [] → prog[i]? = some st →
  let errs (x : Instr) (j : Int) (first : Word) (s' : State) : Prop :=
    let s'' := s'.post ⟨7, q, q / 32, (j % 2 ^ 32).toNat, c.idx.setWidth 64, first, BitVec.ofNat 64 (c.words[0].toNat / 2 ^ 32), 0⟩
    exec x s = .next (s''.setQueue q { s''.queue q with cmds := [{ c with done := true }] })
  let wrong (x : Instr) : Prop := errs x i st.first s
  let goes (x : Instr) (j : Int) (s' : State) : Prop :=
    ((j < 0 ∨ prog.length ≤ j) → errs x j 0 s')
    ∧ (∀ z, 0 ≤ j → prog[j.toNat]? = some z → (7 < z.op ∨ 3 < z.cond) → errs x j z.first s')
    ∧ (∀ z, 0 ≤ j → prog[j.toNat]? = some z → z.op ≤ 7 → z.cond ≤ 3 →
        exec x s = .next (s'.setQueue q { v with cmds := [{ c with work := .load secs prog j.toNat map }] }))
  let word (z : Chunk) : Nat := bytesAt s z.key 8
  let holds (z : Chunk) : Prop :=
    if st.cond = 3 then word z / 2 ^ 24 % 2 ^ 24 = word z % 2 ^ 24 else natIn (z.key / 8) s.full = decide (st.cond = 1)
  let tests (x : Instr) (yes no : Prop) : Prop :=
    let acc : Acc := { Acc.load st.arg1 8 with strict := true, sync := decide (st.cond = 1 ∨ st.cond = 2) }
    (st.cond = 0 → yes)
    ∧ (∀ f, st.cond ≠ 0 → s.engineCheck rights acc false = (s, .fault f) → wrong x)
    ∧ (∀ z, 1 ≤ st.cond → st.cond ≤ 3 → s.engineCheck rights acc false = (s, .pass [z]) → z.va = st.arg1.toNat → z.len = 8 →
        s.home z.key ≠ .device → (holds z → yes) ∧ (¬ holds z → no))
  (st.op = 0 → exec (.evSeqEnd q k) s = .next (s.setQueue q { v with cmds := [{ c with done := true }] }))
  ∧ (st.op = 4 → tests (.evSeqWaitc q k) (goes (.evSeqWaitc q k) (i + 1) s) (exec (.evSeqWaitc q k) s = .next s))
  ∧ (st.op = 5 → st.arg0 < 2 ^ 32 →
      let o : Int := if st.arg0 < 2 ^ 31 then st.arg0 else (st.arg0 : Int) - 2 ^ 32
      tests (.evSeqSkipc q k) (goes (.evSeqSkipc q k) (i + 1 + o) s) (goes (.evSeqSkipc q k) (i + 1) s))
  ∧ (∀ x, (st.op = 1 ∧ x = Instr.evSeqLoad q k) ∨ (st.op = 2 ∧ x = .evSeqSwap q k) ∨ (st.op = 3 ∧ x = .evSeqWaiteos q k)
        ∨ (st.op = 6 ∧ x = .evSeqPin q k) ∨ (st.op = 7 ∧ x = .evSeqUnpin q k) →
      (map.length ≤ st.region → wrong x)
      ∧ (∀ h n, map[st.region]? = some (h, n) → (s.region h n = none → wrong x)
          ∧ (∀ r, s.region h n = some r → (r.kind ≠ 1 → wrong x)
            ∧ (r.kind = 1 →
              let fits := ∃ y, secs.find? (fun z => decide (z.idx = st.arg0)) = some y ∧ y.plane.kind = 1 ∧ y.plane.rows = r.rows
                ∧ y.plane.cols = r.cols
              let mark := (q + 1) * 2 ^ 32 + k
              let sink (m : Nat) : Prop := ∃ e, r.entries[m]? = some e ∧ e.sink = true
              (st.op = 1 ∨ st.op = 2 → ¬ fits → wrong x)
              ∧ (st.op = 1 → fits → r.st ≠ .empty → (r.st ≠ .loading ∨ r.reserved ≠ some mark) → exec x s = .next s)
              ∧ (∀ y, st.op = 1 → fits → secs.find? (fun w => decide (w.idx = st.arg0)) = some y → r.st = .empty →
                  ∃ t r', exec x s = .next t ∧ t.region h n = some r' ∧ r'.st = .loading ∧ r'.reserved = some mark ∧ r'.active = none
                    ∧ r'.shadow = some y.plane ∧ r'.imgAsid = v.asid ∧ r'.imgAddr = y.addr ∧ t.queue q = v ∧ SameBytes s t
                    ∧ ∀ u, t.slot u = s.slot u)
              ∧ (∀ y z, st.op = 1 → fits → secs.find? (fun w => decide (w.idx = st.arg0)) = some y → r.st = .loading →
                  r.reserved = some mark → prog[i + 1]? = some z → z.op ≤ 7 → z.cond ≤ 3 →
                  ∃ t r', exec x s = .next t ∧ t.region h n = some r' ∧ r'.st = .placed
                    ∧ r'.active = some y.plane ∧ r'.shadow = none ∧ r'.queues = [] ∧ r'.nodes = [] ∧ r'.entries = y.binds
                    ∧ r'.binds = [] ∧ r'.sinkEos = [] ∧ r'.eosTaken = 0 ∧ r'.imgAsid = r.imgAsid ∧ r'.imgAddr = r.imgAddr
                    ∧ t.queue q = { v with cmds := [{ c with work := .load secs prog (i + 1) map }] } ∧ SameBytes s t
                    ∧ ∀ u, t.slot u = s.slot u)
              ∧ (st.op = 2 → fits → r.st ≠ .placed → wrong x)
              ∧ (∀ y, st.op = 2 → fits → secs.find? (fun w => decide (w.idx = st.arg0)) = some y → r.st = .placed →
                  goes x (i + 1) (s.setRegion h n { r with
                    st := .swapping, shadow := some y.plane, written := [], swapped := [], passed := [], squeues := [], snodes := [] }))
              ∧ (st.op = 3 → (∃ m, sink m) → (∀ m, sink m → r.eosTaken < (tget m r.sinkEos).getD 0) →
                  goes x (i + 1) (s.setRegion h n { r with eosTaken := r.eosTaken + 1 }))
              ∧ (st.op = 3 → (∃ m, sink m ∧ (tget m r.sinkEos).getD 0 ≤ r.eosTaken) → exec x s = .next s)
              ∧ (st.op = 6 → r.st = .empty → wrong x)
              ∧ (let pin := Spire.pin r.imgAsid r.imgAddr ((s.spire h).useImage r.imgAsid r.imgAddr false)
                 (st.op = 6 → r.st ≠ .empty → pin.1 ≠ 0 → errs x i st.first (s.setSpire h pin.2))
                 ∧ (st.op = 6 → r.st ≠ .empty → pin.1 = 0 → goes x (i + 1) (s.setSpire h pin.2)))
              ∧ (st.op = 7 → r.st = .empty → goes x (i + 1) s)
              ∧ (st.op = 7 → r.st ≠ .empty → goes x (i + 1) (s.setSpire h (Spire.unpin r.imgAsid r.imgAddr (s.spire h)).2))))))

/-- R403 to R405: peers. The first access of a peer is performed at its home when it lies in the peer's window and below 2^41, and is
otherwise dropped with a PEER event; a failed link drops what is on it and counts what is not acknowledged; a link comes up.
Where the rules leave the form open it is the model's: log 14, 65, 66. -/
def Obligations.PeerTraffic : Prop := ∀ (p n : Nat) (r : PeerReq) (rest : List PeerReq) (s : State), p < 32 →
  let port := (s.die0.peers[p % 32]'(Nat.mod_lt _ (by decide))).2
  let d := s.die (port / 6)
  let size := match r.amo, r.sync with
    | some a, _ => if a.wide then 8 else 4
    | none, some _ => 8
    | none, none => r.data.length
  let allowed := (d.pinBase[p % 32]'(Nat.mod_lt _ (by decide))).toNat ≤ r.key
    ∧ r.key + size ≤ (d.pinLim[p % 32]'(Nat.mod_lt _ (by decide))).toNat ∧ r.key + size ≤ 2 ^ 41
  let s' := { s with peerIn := rest }
  let cell := (∃ x, s.home r.key = .lpddr x) ∨ (∃ x, s.home r.key = .dome x)
  (s.peerIn = r :: rest → r.peer = p →
    (¬ allowed → exec (.evPeerAccess p) s = .next (s'.post
        ⟨8, (s.die (port / 6)).evq.toNat, port / 6, 1, BitVec.ofNat 64 port, BitVec.ofNat 64 p, BitVec.ofNat 64 r.key, 0⟩))
    ∧ (allowed → cell →
        (r.amo = none → r.sync = none → ∃ t, exec (.evPeerAccess p) s = .next t ∧ SameBytesBut r.key size s t
            ∧ (∀ j, j < r.data.length → memGet (r.key + j) t.mem = r.data[j]?.getD 0) ∧ { t with mem := s.mem } = s')
        ∧ (∀ a, r.amo = some a → ∃ t, exec (.evPeerAccess p) s = .next t ∧ SameBytesBut r.key size s t
            ∧ bytesAt t r.key size = (a.apply (bytesAt s r.key size)).getD (bytesAt s r.key size) ∧ { t with mem := s.mem } = s')
        ∧ (∀ o, r.amo = none → r.sync = some o → o.op = .stf → o.once = false → r.key % 8 = 0 → (∃ x, s.home r.key = .dome x) →
            ∃ t, exec (.evPeerAccess p) s = .next t ∧ bytesAt t r.key 8 = o.v.toNat ∧ t.full = natAdd (r.key / 8) s.full
              ∧ SameBytesBut r.key 8 s t ∧ { t with mem := s.mem, full := s.full } = s')))
  ∧ (n < 12 →
      let goes (o : PeerOut) : Bool := decide (o.port = n)
      let comes (x : PeerReq) : Bool := decide ((s.die0.peers[x.peer % 32]'(Nat.mod_lt _ (by decide))).2 = n)
      ∃ up : Vector Bool 12, up[n]?.getD true = false ∧ (∀ m, m < 12 → m ≠ n → up[m]? = s.links[m]?)
      ∧ exec (.evPeerLinkDown n) s = .next ({ s with
          links := up, peerOut := s.peerOut.filter (fun o => !goes o), peerIn := s.peerIn.filter (fun x => !comes x) }.post
        ⟨8, (s.die (n / 6)).evq.toNat, n / 6, 2, BitVec.ofNat 64 n,
          BitVec.ofNat 64 ((s.peerOut.filter (fun o => goes o && o.posted)).length + (s.peerIn.filter comes).length), 0, 0⟩))
  ∧ (n < 12 → ∃ t, exec (.evPeerLinkUp n) s = .next t ∧ t.links[n]? = some true ∧ (∀ m, m < 12 → m ≠ n → t.links[m]? = s.links[m]?)
      ∧ { t with links := s.links } = s)

/-- R34, R141, R172, R418 to R422: power islands. A write sets ON and a level up to 7; an island that is asked for, a lantern's also by
a queue that is not empty, is CHANGING and then powers up, its counts restarted and its keep words zero and empty, but for die 1's
PCI Express controller; one asked to gate does so once idle with no trace record held, its contents gone; levels move by one, held by
the temperature, heat's a millisecond apart; a die-level island waits for what passes through it, a lantern's for its die's queues; 115 °C or more takes the island's spire at once, its threads ended.
Where the rules leave the form open it is the model's: log 14, 62, 63, 64, 73. -/
def Obligations.PowerIslands : Prop := ∀ (i w : Nat) (s : State), i < 512 →
  let v := s.island i
  let g := i / 3
  let keep (k : Nat) : Prop := 2 ^ 48 + g * 2 ^ 22 ≤ k ∧ k < 2 ^ 48 + (g + 1) * 2 ^ 22
  let level (x : Instr) (m : Nat) : Prop :=
    exec x s = .next (s.setIsland i { v with vfcur := m, cyc := v.cyc + (s.now - v.since) * (8 - v.vfcur) / 8, since := s.now })
  let off (t : State) : Prop := (t.island i).st = 0 ∧ (t.island i).on = false
  exec (.evIslctlWrite i w) s = .next (s.setIsland i { v with
      on := decide (w % 2 = 1), vfreq := if w / 2 ^ 16 % 2 ^ 4 ≤ 7 then w / 2 ^ 16 % 2 ^ 4 else v.vfreq })
  ∧ (i = 508 ∨ v.st = 1 → exec (.evIslandPowerUp i) s = .next s)
  ∧ (v.on = false → v.st = 0 → (i < 480 ∨ i % 16 ≠ 11) → exec (.evIslandPowerUp i) s = .next s)
  ∧ (v.st = 0 → i ≠ 508 →
      v.on = true ∨ (480 ≤ i ∧ i % 16 = 11 ∧ ∃ j, j < 32 ∧ (s.queue (32 * ((i - 480) / 16) + j)).ridx ≠ (s.queue (32 * ((i - 480) / 16) + j)).widx) →
      exec (.evIslandPowerUp i) s = .next (s.setIsland i { v with st := 2 }))
  ∧ (v.st = 2 → i ≠ 508 → ∃ t, exec (.evIslandPowerUp i) s = .next t
      ∧ t.island i = { v with st := 1, vfcur := 0, cyc := 0, since := s.now }
      ∧ (∀ j, j ≠ i → t.island j = s.island j) ∧ (∀ u, t.slot u = s.slot u)
      ∧ (i < 480 → i % 3 = 2 → ∀ k, if keep k then memGet k t.mem = 0 else memGet k t.mem = memGet k s.mem)
      ∧ (i < 480 → i % 3 = 2 → ∀ x, x ∈ t.full ↔ x ∈ s.full ∧ ¬ keep (8 * x))
      ∧ ((i < 480 → i % 3 ≠ 2) → (480 ≤ i → 2 ≤ i % 16) → SameBytes s t))
  ∧ (v.on = true ∨ v.st ≠ 1 → exec (.evIslandGate i) s = .next s)
  ∧ (v.on = false → v.st = 1 → i < 480 →
      (i % 3 = 0 → (∃ u, tidValid u = true ∧ tidSpire u = g ∧ (s.slot u).st ≠ .free) → exec (.evIslandGate i) s = .next s)
      ∧ (i % 3 = 0 → (s.spire g).dbg.fifo = [] → (∀ u, tidValid u = true → tidSpire u = g → (s.slot u).st = .free) → ∃ t, exec (.evIslandGate i) s = .next t
          ∧ off t ∧ (t.island i).forced = false ∧ (∀ c, c < 16 → (t.core (16 * g + c)).icache = [] ∧ (t.core (16 * g + c)).ports
              = Vector.replicate 4 none)
          ∧ (∀ u, tidValid u = true → tidSpire u = g → t.slot u = Slot.reset))
      ∧ (i % 3 = 1 → (s.spire g).dbg.fifo = [] → (∀ e ∈ (s.spire g).regions, e.2.st = .empty ∧ e.2.matrix.owner = none ∧ e.2.binds = []) →
          ∃ t, exec (.evIslandGate i) s = .next t ∧ off t ∧ (t.spire g).regions = [] ∧ (t.spire g).hearth = []
            ∧ (∀ u, t.slot u = s.slot u) ∧ SameBytes s t)
      ∧ ((s.spire g).dbg.fifo ≠ [] → exec (.evIslandGate i) s = .next s)
      ∧ (i % 3 = 1 → (∃ e ∈ (s.spire g).regions, e.2.st ≠ .empty) → exec (.evIslandGate i) s = .next s)
      ∧ (i % 3 = 2 → (s.island (3 * g)).st ≠ 0 ∨ (s.island (3 * g + 1)).st ≠ 0 → exec (.evIslandGate i) s = .next s))
  ∧ (v.on = false → v.st = 1 → 480 ≤ i →
      let d := (i - 480) / 16
      let idle : Prop := ∀ j, j < 32 → (s.queue (32 * d + j)).cmds = [] ∧ (s.queue (32 * d + j)).ridx = (s.queue (32 * d + j)).widx
      let gates (P : State → Prop) : Prop := ∃ t, exec (.evIslandGate i) s = .next t ∧ off t ∧ (t.island i).forced = false ∧ P t
        ∧ (∀ j, j ≠ i → t.island j = s.island j) ∧ SameBytes s t ∧ ∀ u, t.slot u = s.slot u
      (i % 16 = 11 → (¬ idle → exec (.evIslandGate i) s = .next s)
        ∧ (idle → gates (fun t => t.die d = { s.die d with absent := [], holding := [], held := [] })))
      ∧ (i % 16 ≠ 11 → (s.pathBusy i = true → exec (.evIslandGate i) s = .next s)
        ∧ (s.pathBusy i = false → gates (fun t => t.die0 = s.die0 ∧ t.die1 = s.die1 ∧ t.spires = s.spires))))
  ∧ (v.st ≠ 1 → exec (.evVfChange i) s = .next s)
  ∧ (v.st = 1 → v.vfcur < v.vfreq → level (.evVfChange i) (v.vfcur + 1))
  ∧ (v.st = 1 → v.vfreq < v.vfcur → v.hot = false → level (.evVfChange i) (v.vfcur - 1))
  ∧ (v.st = 1 → v.vfreq < v.vfcur → v.hot = true → exec (.evVfChange i) s = .next s)
  ∧ (v.st = 1 → 100 ≤ v.temp.toNat → v.since + 1250000 ≤ s.now → v.vfcur < 7 → level (.evThermalThrottle i) (v.vfcur + 1))
  ∧ (v.temp.toNat < 100 ∨ s.now < v.since + 1250000 ∨ 7 ≤ v.vfcur ∨ v.st ≠ 1 → exec (.evThermalThrottle i) s = .next s)
  ∧ (v.temp.toNat < 115 → exec (.evForcedGate i) s = .next s)
  ∧ (115 ≤ v.temp.toNat → i < 480 → (s.spire g).regions = [] →
      (∀ u, tidValid u = true → tidSpire u = g → (s.slot u).st = .free ∧ (s.slot u).queue = []) →
      ∃ t, exec (.evForcedGate i) s = .next t
        ∧ (∀ j, j / 3 = g → (t.island j).st = 0 ∧ (t.island j).on = false ∧ ((s.island j).st ≠ 0 → (t.island j).forced = true))
        ∧ (∀ j, j / 3 ≠ g → t.island j = s.island j) ∧ (∀ u, tidValid u = true → tidSpire u = g → (t.slot u).st = .free))

/-- R14, R27, R423 to R430: errors, start-up and attestation. A window of 16 or more corrected errors marks its structure lasting;
an uncorrectable error faults the access that meets it or ends its thread, or stays with its byte until one reads it; a die boots with
an image of the fused key, signed, of no older version, and a strip's image that is signed and of no older version, or stays in RECOVERY
with the effects of the steps before the failing one; a report is refused while one of either die is under way or after the device's
32,768, its address and nonce are those of its request, and the leaf advances as it is written, with the digests and a signature
that names the leaf and the parameter sets. Where the rules leave the form open it is the model's: log 3, 14, 67, 74, 91, 92. -/
def Obligations.ErrorsAndStart : Prop := ∀ (k i d : Nat) (e : Ecc) (s : State), d < 2 →
  let v := s.die d
  let u := s.slot k
  (s.ecc = [e] → e.cls = k → e.id = i →
    let w := s.window k i
    (w ≤ e.win → exec (.evEccWindow k i) s = .next s)
    ∧ (e.win < w → e.count < 16 → exec (.evEccWindow k i) s = .next { s with ecc := [{ e with count := 0, win := w }] })
    ∧ (e.win < w → 16 ≤ e.count → k = 5 → ∀ q, i / 64 < 2 → q = (s.die (i / 64)).evq.toNat →
        exec (.evEccWindow k i) s = .next ({ s with ecc := [{ e with count := 0, lasting := true, win := w }] }.post
          ⟨10, q, i / 64, 5, BitVec.ofNat 64 i, BitVec.ofNat 64 e.count, 1, 0⟩)))
  ∧ (tidValid k = true → u.nest = false → u.held = false → u.st = .park →
      let traps (c : Cause) (sub : Nat) (va : Nat) : Prop := ∃ t, exec (.evUncorrectableError k) s = .next t
        ∧ t.slot k = { u with
            st := .run, park := none, tepc := codeAddr u.pc, tcause := BitVec.ofNat 8 c.code, tsub := BitVec.ofNat 64 sub
            tval := BitVec.ofNat 64 va, tnode := 0, pprv := u.prv, prv := (if u.prv = .user then .kernel else u.prv), nest := true
            pc := u.tvec }
        ∧ (∀ x, x ≠ k → t.slot x = s.slot x) ∧ SameBytes s t
      ∀ why since raised ser,
        (∀ r p, u.park = some ⟨why, .load r, since, raised, ser⟩ → r.todo = [p] → traps .pageR 5 p.va)
        ∧ (∀ r dst, u.park = some ⟨why, .atomic r dst, since, raised, ser⟩ → traps .pageW 5 r.va)
        ∧ (∀ va n, u.park = some ⟨why, .walk va .read n, since, raised, ser⟩ → traps .pageR 4 va))
  ∧ (tidValid k = true → u.st = .run → u.park = none → (s.spire (tidSpire k)).groups = [] → ∃ t, exec (.evUncorrectableError k) s = .next t ∧ (t.slot k).st = .drain
      ∧ (∀ x, x ≠ k → t.slot x = s.slot x))
  ∧ (∀ a, exec (.evUncorrectableError (2 ^ 52 + a)) s = .next { s with bad := a :: s.bad.filter (fun x => decide (x ≠ a)) })
  ∧ (let good (b : Boot) : Bool := decide (sha256 b.key = Config.fusedKey) && lmsVerify b.key b.image b.sig
       && decide (Config.minVersion.toNat ≤ b.version.toNat)
     let strip (die : Nat) : Bool := lmsVerify (Config.romKey die) (Config.romImage die) (Config.romSignature die)
       && decide (Config.minVersion.toNat ≤ (Config.romVersion die).toNat)
     let fails (die : Nat) (b : Boot) : Nat := if b.ok = false ∧ b.step.toNat ≤ 1 then 1
       else if good b = false ∨ (b.ok = false ∧ b.step.toNat = 2) then 2
       else if strip die = false then 3 else if b.ok = false then min b.step.toNat 6 else 0
     let comesUp (die : Nat) (b : Boot) (v v' : Die) : Prop :=
       let failed (b : Boot) : Nat := fails die b
       v'.booted = decide (failed b = 0)
       ∧ (failed b ≠ 0 → v'.recStep = BitVec.ofNat 8 (failed b) ∧ v'.recCause = b.cause)
       ∧ v'.firmware = (if failed b = 0 ∨ 2 < failed b then b.image else v.firmware)
       ∧ v'.dome = (if failed b = 0 ∨ 4 < failed b then min b.dome 6 else v.dome)
     (∀ b, tget 0 s.boots = some b → ∃ t, exec (.evPackageReset 0) s = .next t ∧ t.slots = [] ∧ t.spires = [] ∧ t.cores = []
      ∧ t.queues = [] ∧ t.full = [] ∧ t.now = 0 ∧ (∀ x, x < 2 ^ 40 → memGet x t.mem = memGet x s.mem)
      ∧ (∀ x, 2 ^ 40 ≤ x → x < 2 ^ 47 → memGet x t.mem = 0) ∧ (t.island 491).st = 1
      ∧ t.leaf = s.leaf ∧ t.die1.booted = false ∧ comesUp 0 b Die.reset t.die0)
     ∧ (∀ b, tget 1 s.boots = some b → s.die1.booted = false → s.die1.recStep = 0 →
      ∃ t, exec (.evPackageReset 1) s = .next t ∧ comesUp 1 b s.die1 t.die1 ∧ t.die0 = s.die0 ∧ (t.island 507).st = 1))
  ∧ (s.die0.booted = true → v.booted = true → i % 2 = 1 →
      let a := v.attAddr.toNat % 2 ^ 48
      (s.die0.attBusy = true ∨ s.die1.attBusy = true ∨ 32768 ≤ s.leaf →
          exec (.evAttctlWrite d i) s = .next (s.setDie d { v with attStat := 2 }))
      ∧ (s.die0.attBusy = false → s.die1.attBusy = false → s.leaf < 32768 → exec (.evAttctlWrite d i) s
          = .next (s.setDie d { v with attBusy := true, attStat := 0, attAt := a, attNonce := memRead a 32 s.mem })))
  ∧ (v.attBusy = false → exec (.evAttestationDone d) s = .next s)
  ∧ (v.attBusy = true → 32768 ≤ s.leaf → exec (.evAttestationDone d) s = .next (s.setDie d { v with attBusy := false, attStat := 2 }))
  ∧ (v.attBusy = true → s.leaf < 32768 → v.attNonce.length = 32 → let a := v.attAt
      let plain (k : Nat) : Prop := (s.home k).cached = true ∨ s.home k = .host
      plain a → plain (a + 31 + 2812) → ∃ t, exec (.evAttestationDone d) s = .next t
        ∧ t.die d = { v with attBusy := false, attStat := 1 } ∧ t.leaf = s.leaf + 1 ∧ SameBytesBut (a + 32) 2812 s t
        ∧ (∀ m, m < 32 → memGet (a + 32 + m) t.mem = v.attNonce.getD m 0
            ∧ memGet (a + 32 + 0x20 + m) t.mem = (sha256 v.firmware).getD m 0
            ∧ memGet (a + 32 + 0x40 + m) t.mem = (sha256 (Config.romImage d)).getD m 0
            ∧ memGet (a + 32 + 0x60 + m) t.mem = (sha256 (Config.spareMap d (s.spareMap d))).getD m 0)
        ∧ (s.die0.dome ≤ 6 → s.die1.dome ≤ 6 → bytesAt t (a + 32 + 0x80) 8 = s.die0.dome + 256 * s.die1.dome)
        ∧ bytesAt t (a + 32 + 0x88) 8 = s.leaf
        ∧ bytesAt t (a + 32 + 0x90) 8 = (s.leaf / 256) * 2 ^ 16 + s.leaf % 256 * 2 ^ 24 + 3 * 2 ^ 56
        ∧ bytesAt t (a + 32 + 0x90 + 2184) 4 = 7 * 2 ^ 24
        ∧ { t with die0 := s.die0, die1 := s.die1, mem := s.mem, leaf := s.leaf } = s)

/-- R37 to R45, R245: every well-formed instruction has a word that decodes to it, a barrel instruction as a word that a thread fetches and a
node as a word of a configuration; the machine's own steps have none. -/
def Obligations.WordsDecodeBack : Prop := ∀ i : Instr, wellFormed i = true →
  match encode i, i.guard with
  | some w, some _ => decode w = .ok i
  | some w, none => decodeNode w = some i
  | none, _ => isEvent i = true

/-- The canonical form of memory is an invariant: whatever acts next, addresses rise and no listed byte is zero afterwards (the form in
which the model holds memory, log 1). -/
def Obligations.MemoryStaysCanonical : Prop := ∀ s t : State, Memory.wf s.mem = true → step s = .next t → Memory.wf t.mem = true

/-- R36, R49, R127, R143, R144, R236, R362: the step at an issue cycle runs the instruction that the thread's word decodes to, at a
place of the fabric the node that stands there, and for a step of the machine that step; the word comes from the line of the
core's instruction cache that holds the pc. What stands on the agenda goes first; then the next phase of the turn begins, after the cycles of a live fabric up to it,
in which the snapshots that are due are latched, the slots of that number issue and, in the first, the LAUNCHes place their threads;
then the turn ends, and the threads that have exited leave their slots (the model's order, log 4). -/
def Obligations.StepRunsTheInstruction : Prop := ∀ (s : State) (u : Nat) (w : BitVec 32) (i : Instr) (rest : List Action),
  let issues (s' : State) (t : Host.Outcome State Fault Refusal) : Prop := s'.tid = u → s'.thr.st = .run → s'.thr.held = false →
    s'.thr.events = [] → s'.thr.poison = none → s'.thr.trapDue = none → s'.fetch = .ok w → decode w = .ok i →
    t = exec i (s'.setThr { s'.thr with wFired := false, ins := some i })
  (s.agenda = .issue u :: rest → issues { s with agenda := rest, tid := u } (step s))
  ∧ (∀ p, s.agenda = [] → s.nextPhase = some p →
      (s.fabricLive = true → s.now % 16 < p → step s = .next { s with agenda := List.replicate (p - s.now % 16) .cycle })
      ∧ (s.fabricLive = false ∨ p ≤ s.now % 16 → ∃ t, step s = .next t ∧ t.cursor = p + 1 ∧ t.now = max s.now (s.now / 16 * 16 + p)
          ∧ { t with cursor := s.cursor, agenda := [], now := s.now } = s
          ∧ (∀ x, .issue x ∈ t.agenda ↔ tidSlot x = p ∧ ∃ v, (x, v) ∈ s.slots ∧ s.acts x v = true)
          ∧ (∀ h, .event (.evSnapshotLatch h) ∈ t.agenda ↔ ∃ v c, (h, v) ∈ s.spires ∧ v.dbg.latchAt = some c ∧ c ≤ s.now / 16 * 16 + p)
          ∧ (.event (.evLaunchPlace 0) ∈ t.agenda ↔ p = 0 ∧ s.die0.fifo ≠ []) ∧ (.event (.evLaunchPlace 1) ∈ t.agenda ↔ p = 0 ∧ s.die1.fifo ≠ [])))
  ∧ (s.agenda = [] → s.nextPhase = none → (∀ e ∈ s.cores, e.2.waiting = []) → ∃ t, step s = .next t ∧ t.cursor = 0 ∧ SameBytes s t
      ∧ t.now = (if s.fabricLive then s.now else (s.now / 16 + 1) * 16)
      ∧ (s.fabricLive = true → ∃ l, t.agenda = List.replicate (16 - s.now % 16) .cycle ++ l)
      ∧ ∀ x, t.slot x = (if (s.slot x).st = .ended then { s.slot x with st := .free } else s.slot x))
  ∧ (s.agenda = .event i :: rest → isEvent i = true → step s = exec i { s with agenda := rest })
  ∧ (∀ h n site arm r p node, s.agenda = .fire h n site arm :: rest → s.region h n = some r → r.st = .placed → r.active = some p →
      p.nodes.filter (fun m => decide (m.site = site)) = [node] → node.arm = arm → decodeNode node.word = some i →
      step s = exec i { s with agenda := rest, site := ⟨h, n, site, arm⟩ })
  ∧ (∀ c line, s.checkAttr s.ctx ⟨.fetch, s.thr.pc, 4, true, false, false, false, true⟩ = .pass [c] → c.va ≤ s.thr.pc.toNat →
      s.thr.pc.toNat + 4 ≤ c.va + c.len →
      let k := c.key + (s.thr.pc.toNat - c.va)
      tget (k / 64) (s.core (tidSpire s.tid * 16 + s.tid / 16 % 16)).icache = some line →
      s.fetch = .ok (BitVec.ofNat 32 (line.toNat / 2 ^ (8 * (k % 64)))))

/-- Words of the manual's own examples decode to the instructions that they stand for (R39, R41, R52, R98, R105, R173, R194, R197, R210,
R322, R344, R360, R371, R375, R412). -/
def Obligations.ExampleWords : Prop :=
  let g : Guard := ⟨false, 0⟩
  decode 0x02051BF2 = .ok (.srai g 5 6 63) ∧ decode 0x0B472531 = .ok (.srel g 7 9 .die .d)
  ∧ decode 0x0EC50080 = .ok (.csrrs g 5 0 0x080) ∧ decode 0x0F4024A0 = .ok (.tlbi g 0 9 10)
  ∧ decode 0x0CC70050 = .ok (.gjoin g 7 5) ∧ decode 0x0D802880 = .ok (.srv g 10 1 0)
  ∧ decode 0x0F8024A0 = .ok (.trace g 9 10) ∧ decode 0x0E035020 = .ok (.cpy g 3 20 0 2)

/-- R6, R27, R30, R46, R83, R124, R134, R156, R172, R361, R385, R416, R419: the machine right after reset: no thread, no island powered, no die
booted, memory zero and empty, and the registers at the values that the manual gives them. Slots' other registers are zero by
the model's choice (log 2). -/
def Obligations.ResetValues : Prop :=
  let s := State.reset
  Memory.wf s.mem = true ∧ s.full = [] ∧ s.now = 0 ∧ (∀ k, memGet k s.mem = 0)
  ∧ (∀ t, (s.slot t).st = .free ∧ (s.slot t).fcsr = 0 ∧ (s.slot t).sendst = 0 ∧ (s.slot t).tstat = 0 ∧ (s.slot t).wdog = 0
      ∧ (∀ r, (s.slot t).getX r = 0) ∧ (s.slot t).getP 0 = true)
  ∧ (∀ q, (s.queue q).log2n = 4 ∧ (s.queue q).evlog = 4 ∧ (s.queue q).en = false ∧ (s.queue q).widx = 0 ∧ (s.queue q).ridx = 0)
  ∧ (∀ g, (s.spire g).dbg.trsize = 6 ∧ (s.spire g).dbg.trctl = 0 ∧ (s.spire g).regions = [])
  ∧ (∀ i, (s.island i).st = 0 ∧ (s.island i).reg = 0) ∧ (s.die 0).booted = false ∧ (s.die 1).booted = false
  ∧ (∀ p : Fin 12, s.links[p] = false)
end

