-- ==== Sys2Proof/Laws/Exec.lean ====
section
/-! SUPPORT. What the dispatch does with each constructor: the one call of its meaning. -/

namespace Sys2Proof.Machine

@[simp] theorem exec_nop g (s : State) : exec (.nop g) s = execNop g s := rfl
@[simp] theorem exec_ebrk g (s : State) : exec (.ebrk g) s = execEbrk g s := rfl
@[simp] theorem exec_ecall g (s : State) : exec (.ecall g) s = execEcall g s := rfl
@[simp] theorem exec_tret g (s : State) : exec (.tret g) s = execTret g s := rfl
@[simp] theorem exec_rdcyc g d (s : State) : exec (.rdcyc g d) s = execRdcyc g d s := rfl
@[simp] theorem exec_rdtime g d (s : State) : exec (.rdtime g d) s = execRdtime g d s := rfl
@[simp] theorem exec_tid g d (s : State) : exec (.tid g d) s = execTid g d s := rfl
@[simp] theorem exec_gtid g d (s : State) : exec (.gtid g d) s = execGtid g d s := rfl
@[simp] theorem exec_add g d a b (s : State) : exec (.add g d a b) s = execAdd g d a b s := rfl
@[simp] theorem exec_sub g d a b (s : State) : exec (.sub g d a b) s = execSub g d a b s := rfl
@[simp] theorem exec_mul g d a b (s : State) : exec (.mul g d a b) s = execMul g d a b s := rfl
@[simp] theorem exec_mulh g d a b (s : State) : exec (.mulh g d a b) s = execMulh g d a b s := rfl
@[simp] theorem exec_mulhu g d a b (s : State) : exec (.mulhu g d a b) s = execMulhu g d a b s := rfl
@[simp] theorem exec_div g d a b (s : State) : exec (.div g d a b) s = execDiv g d a b s := rfl
@[simp] theorem exec_divu g d a b (s : State) : exec (.divu g d a b) s = execDivu g d a b s := rfl
@[simp] theorem exec_rem g d a b (s : State) : exec (.rem g d a b) s = execRem g d a b s := rfl
@[simp] theorem exec_remu g d a b (s : State) : exec (.remu g d a b) s = execRemu g d a b s := rfl
@[simp] theorem exec_and g d a b (s : State) : exec (.and g d a b) s = execAnd g d a b s := rfl
@[simp] theorem exec_or g d a b (s : State) : exec (.or g d a b) s = execOr g d a b s := rfl
@[simp] theorem exec_xor g d a b (s : State) : exec (.xor g d a b) s = execXor g d a b s := rfl
@[simp] theorem exec_shl g d a b (s : State) : exec (.shl g d a b) s = execShl g d a b s := rfl
@[simp] theorem exec_shr g d a b (s : State) : exec (.shr g d a b) s = execShr g d a b s := rfl
@[simp] theorem exec_sra g d a b (s : State) : exec (.sra g d a b) s = execSra g d a b s := rfl
@[simp] theorem exec_rot g d a b (s : State) : exec (.rot g d a b) s = execRot g d a b s := rfl
@[simp] theorem exec_addw g d a b (s : State) : exec (.addw g d a b) s = execAddw g d a b s := rfl
@[simp] theorem exec_subw g d a b (s : State) : exec (.subw g d a b) s = execSubw g d a b s := rfl
@[simp] theorem exec_mulw g d a b (s : State) : exec (.mulw g d a b) s = execMulw g d a b s := rfl
@[simp] theorem exec_shlw g d a b (s : State) : exec (.shlw g d a b) s = execShlw g d a b s := rfl
@[simp] theorem exec_shrw g d a b (s : State) : exec (.shrw g d a b) s = execShrw g d a b s := rfl
@[simp] theorem exec_sraw g d a b (s : State) : exec (.sraw g d a b) s = execSraw g d a b s := rfl
@[simp] theorem exec_min g d a b (s : State) : exec (.min g d a b) s = execMin g d a b s := rfl
@[simp] theorem exec_max g d a b (s : State) : exec (.max g d a b) s = execMax g d a b s := rfl
@[simp] theorem exec_minu g d a b (s : State) : exec (.minu g d a b) s = execMinu g d a b s := rfl
@[simp] theorem exec_maxu g d a b (s : State) : exec (.maxu g d a b) s = execMaxu g d a b s := rfl
@[simp] theorem exec_abs g d a (s : State) : exec (.abs g d a) s = execAbs g d a s := rfl
@[simp] theorem exec_clz g d a (s : State) : exec (.clz g d a) s = execClz g d a s := rfl
@[simp] theorem exec_ctz g d a (s : State) : exec (.ctz g d a) s = execCtz g d a s := rfl
@[simp] theorem exec_popc g d a (s : State) : exec (.popc g d a) s = execPopc g d a s := rfl
@[simp] theorem exec_brev g d a (s : State) : exec (.brev g d a) s = execBrev g d a s := rfl
@[simp] theorem exec_bswap g d a (s : State) : exec (.bswap g d a) s = execBswap g d a s := rfl
@[simp] theorem exec_sextb g d a (s : State) : exec (.sextb g d a) s = execSextb g d a s := rfl
@[simp] theorem exec_sexth g d a (s : State) : exec (.sexth g d a) s = execSexth g d a s := rfl
@[simp] theorem exec_sextw g d a (s : State) : exec (.sextw g d a) s = execSextw g d a s := rfl
@[simp] theorem exec_zextb g d a (s : State) : exec (.zextb g d a) s = execZextb g d a s := rfl
@[simp] theorem exec_zexth g d a (s : State) : exec (.zexth g d a) s = execZexth g d a s := rfl
@[simp] theorem exec_zextw g d a (s : State) : exec (.zextw g d a) s = execZextw g d a s := rfl
@[simp] theorem exec_addi g d a i (s : State) : exec (.addi g d a i) s = execAddi g d a i s := rfl
@[simp] theorem exec_andi g d a i (s : State) : exec (.andi g d a i) s = execAndi g d a i s := rfl
@[simp] theorem exec_ori g d a i (s : State) : exec (.ori g d a i) s = execOri g d a i s := rfl
@[simp] theorem exec_xori g d a i (s : State) : exec (.xori g d a i) s = execXori g d a i s := rfl
@[simp] theorem exec_shli g d a n (s : State) : exec (.shli g d a n) s = execShli g d a n s := rfl
@[simp] theorem exec_shri g d a n (s : State) : exec (.shri g d a n) s = execShri g d a n s := rfl
@[simp] theorem exec_srai g d a n (s : State) : exec (.srai g d a n) s = execSrai g d a n s := rfl
@[simp] theorem exec_roti g d a n (s : State) : exec (.roti g d a n) s = execRoti g d a n s := rfl
@[simp] theorem exec_lui g d i (s : State) : exec (.lui g d i) s = execLui g d i s := rfl
@[simp] theorem exec_lix g d i (s : State) : exec (.lix g d i) s = execLix g d i s := rfl
@[simp] theorem exec_shadd1 g d a b (s : State) : exec (.shadd1 g d a b) s = execShadd1 g d a b s := rfl
@[simp] theorem exec_shadd2 g d a b (s : State) : exec (.shadd2 g d a b) s = execShadd2 g d a b s := rfl
@[simp] theorem exec_shadd3 g d a b (s : State) : exec (.shadd3 g d a b) s = execShadd3 g d a b s := rfl
@[simp] theorem exec_shadd4 g d a b (s : State) : exec (.shadd4 g d a b) s = execShadd4 g d a b s := rfl
@[simp] theorem exec_ceq g p a b (s : State) : exec (.ceq g p a b) s = execCeq g p a b s := rfl
@[simp] theorem exec_cne g p a b (s : State) : exec (.cne g p a b) s = execCne g p a b s := rfl
@[simp] theorem exec_clt g p a b (s : State) : exec (.clt g p a b) s = execClt g p a b s := rfl
@[simp] theorem exec_cltu g p a b (s : State) : exec (.cltu g p a b) s = execCltu g p a b s := rfl
@[simp] theorem exec_cle g p a b (s : State) : exec (.cle g p a b) s = execCle g p a b s := rfl
@[simp] theorem exec_cleu g p a b (s : State) : exec (.cleu g p a b) s = execCleu g p a b s := rfl
@[simp] theorem exec_ctst g p a b (s : State) : exec (.ctst g p a b) s = execCtst g p a b s := rfl
@[simp] theorem exec_ceqi g p a i (s : State) : exec (.ceqi g p a i) s = execCeqi g p a i s := rfl
@[simp] theorem exec_cnei g p a i (s : State) : exec (.cnei g p a i) s = execCnei g p a i s := rfl
@[simp] theorem exec_clti g p a i (s : State) : exec (.clti g p a i) s = execClti g p a i s := rfl
@[simp] theorem exec_cltui g p a i (s : State) : exec (.cltui g p a i) s = execCltui g p a i s := rfl
@[simp] theorem exec_clei g p a i (s : State) : exec (.clei g p a i) s = execClei g p a i s := rfl
@[simp] theorem exec_cleui g p a i (s : State) : exec (.cleui g p a i) s = execCleui g p a i s := rfl
@[simp] theorem exec_ctsti g p a i (s : State) : exec (.ctsti g p a i) s = execCtsti g p a i s := rfl
@[simp] theorem exec_pand g d a b (s : State) : exec (.pand g d a b) s = execPand g d a b s := rfl
@[simp] theorem exec_por g d a b (s : State) : exec (.por g d a b) s = execPor g d a b s := rfl
@[simp] theorem exec_pxor g d a b (s : State) : exec (.pxor g d a b) s = execPxor g d a b s := rfl
@[simp] theorem exec_pandn g d a b (s : State) : exec (.pandn g d a b) s = execPandn g d a b s := rfl
@[simp] theorem exec_pnot g d a (s : State) : exec (.pnot g d a) s = execPnot g d a s := rfl
@[simp] theorem exec_pset g a (s : State) : exec (.pset g a) s = execPset g a s := rfl
@[simp] theorem exec_pget g d (s : State) : exec (.pget g d) s = execPget g d s := rfl
@[simp] theorem exec_pmov g d a (s : State) : exec (.pmov g d a) s = execPmov g d a s := rfl
@[simp] theorem exec_faddS g d a b (s : State) : exec (.faddS g d a b) s = execFaddS g d a b s := rfl
@[simp] theorem exec_fsubS g d a b (s : State) : exec (.fsubS g d a b) s = execFsubS g d a b s := rfl
@[simp] theorem exec_fmulS g d a b (s : State) : exec (.fmulS g d a b) s = execFmulS g d a b s := rfl
@[simp] theorem exec_fdivS g d a b (s : State) : exec (.fdivS g d a b) s = execFdivS g d a b s := rfl
@[simp] theorem exec_fsqrtS g d a (s : State) : exec (.fsqrtS g d a) s = execFsqrtS g d a s := rfl
@[simp] theorem exec_fminS g d a b (s : State) : exec (.fminS g d a b) s = execFminS g d a b s := rfl
@[simp] theorem exec_fmaxS g d a b (s : State) : exec (.fmaxS g d a b) s = execFmaxS g d a b s := rfl
@[simp] theorem exec_fabsS g d a (s : State) : exec (.fabsS g d a) s = execFabsS g d a s := rfl
@[simp] theorem exec_fnegS g d a (s : State) : exec (.fnegS g d a) s = execFnegS g d a s := rfl
@[simp] theorem exec_fcpysS g d a b (s : State) : exec (.fcpysS g d a b) s = execFcpysS g d a b s := rfl
@[simp] theorem exec_fclassS g d a (s : State) : exec (.fclassS g d a) s = execFclassS g d a s := rfl
@[simp] theorem exec_frcpS g d a (s : State) : exec (.frcpS g d a) s = execFrcpS g d a s := rfl
@[simp] theorem exec_frsqS g d a (s : State) : exec (.frsqS g d a) s = execFrsqS g d a s := rfl
@[simp] theorem exec_fexp2S g d a (s : State) : exec (.fexp2S g d a) s = execFexp2S g d a s := rfl
@[simp] theorem exec_flog2S g d a (s : State) : exec (.flog2S g d a) s = execFlog2S g d a s := rfl
@[simp] theorem exec_ftanhS g d a (s : State) : exec (.ftanhS g d a) s = execFtanhS g d a s := rfl
@[simp] theorem exec_faddD g d a b (s : State) : exec (.faddD g d a b) s = execFaddD g d a b s := rfl
@[simp] theorem exec_fsubD g d a b (s : State) : exec (.fsubD g d a b) s = execFsubD g d a b s := rfl
@[simp] theorem exec_fmulD g d a b (s : State) : exec (.fmulD g d a b) s = execFmulD g d a b s := rfl
@[simp] theorem exec_fdivD g d a b (s : State) : exec (.fdivD g d a b) s = execFdivD g d a b s := rfl
@[simp] theorem exec_fsqrtD g d a (s : State) : exec (.fsqrtD g d a) s = execFsqrtD g d a s := rfl
@[simp] theorem exec_fminD g d a b (s : State) : exec (.fminD g d a b) s = execFminD g d a b s := rfl
@[simp] theorem exec_fmaxD g d a b (s : State) : exec (.fmaxD g d a b) s = execFmaxD g d a b s := rfl
@[simp] theorem exec_fabsD g d a (s : State) : exec (.fabsD g d a) s = execFabsD g d a s := rfl
@[simp] theorem exec_fnegD g d a (s : State) : exec (.fnegD g d a) s = execFnegD g d a s := rfl
@[simp] theorem exec_fcpysD g d a b (s : State) : exec (.fcpysD g d a b) s = execFcpysD g d a b s := rfl
@[simp] theorem exec_fclassD g d a (s : State) : exec (.fclassD g d a) s = execFclassD g d a s := rfl
@[simp] theorem exec_fmacS g d a b (s : State) : exec (.fmacS g d a b) s = execFmacS g d a b s := rfl
@[simp] theorem exec_fmscS g d a b (s : State) : exec (.fmscS g d a b) s = execFmscS g d a b s := rfl
@[simp] theorem exec_fnmacS g d a b (s : State) : exec (.fnmacS g d a b) s = execFnmacS g d a b s := rfl
@[simp] theorem exec_fmacD g d a b (s : State) : exec (.fmacD g d a b) s = execFmacD g d a b s := rfl
@[simp] theorem exec_fmscD g d a b (s : State) : exec (.fmscD g d a b) s = execFmscD g d a b s := rfl
@[simp] theorem exec_fnmacD g d a b (s : State) : exec (.fnmacD g d a b) s = execFnmacD g d a b s := rfl
@[simp] theorem exec_fceqS g p a b (s : State) : exec (.fceqS g p a b) s = execFceqS g p a b s := rfl
@[simp] theorem exec_fcltS g p a b (s : State) : exec (.fcltS g p a b) s = execFcltS g p a b s := rfl
@[simp] theorem exec_fcleS g p a b (s : State) : exec (.fcleS g p a b) s = execFcleS g p a b s := rfl
@[simp] theorem exec_fcunS g p a b (s : State) : exec (.fcunS g p a b) s = execFcunS g p a b s := rfl
@[simp] theorem exec_fceqD g p a b (s : State) : exec (.fceqD g p a b) s = execFceqD g p a b s := rfl
@[simp] theorem exec_fcltD g p a b (s : State) : exec (.fcltD g p a b) s = execFcltD g p a b s := rfl
@[simp] theorem exec_fcleD g p a b (s : State) : exec (.fcleD g p a b) s = execFcleD g p a b s := rfl
@[simp] theorem exec_fcunD g p a b (s : State) : exec (.fcunD g p a b) s = execFcunD g p a b s := rfl
@[simp] theorem exec_cvtSD g d a (s : State) : exec (.cvtSD g d a) s = execCvtSD g d a s := rfl
@[simp] theorem exec_cvtDS g d a (s : State) : exec (.cvtDS g d a) s = execCvtDS g d a s := rfl
@[simp] theorem exec_cvtSH g d a (s : State) : exec (.cvtSH g d a) s = execCvtSH g d a s := rfl
@[simp] theorem exec_cvtHS g d a (s : State) : exec (.cvtHS g d a) s = execCvtHS g d a s := rfl
@[simp] theorem exec_cvtSBf g d a (s : State) : exec (.cvtSBf g d a) s = execCvtSBf g d a s := rfl
@[simp] theorem exec_cvtBfS g d a (s : State) : exec (.cvtBfS g d a) s = execCvtBfS g d a s := rfl
@[simp] theorem exec_cvtSE4 g d a (s : State) : exec (.cvtSE4 g d a) s = execCvtSE4 g d a s := rfl
@[simp] theorem exec_cvtE4S g d a (s : State) : exec (.cvtE4S g d a) s = execCvtE4S g d a s := rfl
@[simp] theorem exec_cvtSE5 g d a (s : State) : exec (.cvtSE5 g d a) s = execCvtSE5 g d a s := rfl
@[simp] theorem exec_cvtE5S g d a (s : State) : exec (.cvtE5S g d a) s = execCvtE5S g d a s := rfl
@[simp] theorem exec_cvtWS g d a (s : State) : exec (.cvtWS g d a) s = execCvtWS g d a s := rfl
@[simp] theorem exec_cvtSW g d a (s : State) : exec (.cvtSW g d a) s = execCvtSW g d a s := rfl
@[simp] theorem exec_cvtWuS g d a (s : State) : exec (.cvtWuS g d a) s = execCvtWuS g d a s := rfl
@[simp] theorem exec_cvtSWu g d a (s : State) : exec (.cvtSWu g d a) s = execCvtSWu g d a s := rfl
@[simp] theorem exec_cvtLD g d a (s : State) : exec (.cvtLD g d a) s = execCvtLD g d a s := rfl
@[simp] theorem exec_cvtDL g d a (s : State) : exec (.cvtDL g d a) s = execCvtDL g d a s := rfl
@[simp] theorem exec_br g o (s : State) : exec (.br g o) s = execBr g o s := rfl
@[simp] theorem exec_call g o (s : State) : exec (.call g o) s = execCall g o s := rfl
@[simp] theorem exec_jalr g d a i (s : State) : exec (.jalr g d a i) s = execJalr g d a i s := rfl
@[simp] theorem exec_exit g (s : State) : exec (.exit g) s = execExit g s := rfl
@[simp] theorem exec_spawn g d a b (s : State) : exec (.spawn g d a b) s = execSpawn g d a b s := rfl
@[simp] theorem exec_sleep g d a p (s : State) : exec (.sleep g d a p) s = execSleep g d a p s := rfl
@[simp] theorem exec_kill g d a (s : State) : exec (.kill g d a) s = execKill g d a s := rfl
@[simp] theorem exec_send g a b (s : State) : exec (.send g a b) s = execSend g a b s := rfl
@[simp] theorem exec_sendw g d a b (s : State) : exec (.sendw g d a b) s = execSendw g d a b s := rfl
@[simp] theorem exec_hbind g d a b (s : State) : exec (.hbind g d a b) s = execHbind g d a b s := rfl
@[simp] theorem exec_hunbind g d a (s : State) : exec (.hunbind g d a) s = execHunbind g d a s := rfl
@[simp] theorem exec_lb g d a i (s : State) : exec (.lb g d a i) s = execLb g d a i s := rfl
@[simp] theorem exec_lbu g d a i (s : State) : exec (.lbu g d a i) s = execLbu g d a i s := rfl
@[simp] theorem exec_lh g d a i (s : State) : exec (.lh g d a i) s = execLh g d a i s := rfl
@[simp] theorem exec_lhu g d a i (s : State) : exec (.lhu g d a i) s = execLhu g d a i s := rfl
@[simp] theorem exec_lw g d a i (s : State) : exec (.lw g d a i) s = execLw g d a i s := rfl
@[simp] theorem exec_lwu g d a i (s : State) : exec (.lwu g d a i) s = execLwu g d a i s := rfl
@[simp] theorem exec_ld g d a i (s : State) : exec (.ld g d a i) s = execLd g d a i s := rfl
@[simp] theorem exec_lq g d a i (s : State) : exec (.lq g d a i) s = execLq g d a i s := rfl
@[simp] theorem exec_sb g d a i (s : State) : exec (.sb g d a i) s = execSb g d a i s := rfl
@[simp] theorem exec_sh g d a i (s : State) : exec (.sh g d a i) s = execSh g d a i s := rfl
@[simp] theorem exec_sw g d a i (s : State) : exec (.sw g d a i) s = execSw g d a i s := rfl
@[simp] theorem exec_sd g d a i (s : State) : exec (.sd g d a i) s = execSd g d a i s := rfl
@[simp] theorem exec_sq g d a i (s : State) : exec (.sq g d a i) s = execSq g d a i s := rfl
@[simp] theorem exec_lacq g d a k z (s : State) : exec (.lacq g d a k z) s = execLacq g d a k z s := rfl
@[simp] theorem exec_srel g d a k z (s : State) : exec (.srel g d a k z) s = execSrel g d a k z s := rfl
@[simp] theorem exec_ldf g d a k (s : State) : exec (.ldf g d a k) s = execLdf g d a k s := rfl
@[simp] theorem exec_ldfe g d a k (s : State) : exec (.ldfe g d a k) s = execLdfe g d a k s := rfl
@[simp] theorem exec_stef g d a k (s : State) : exec (.stef g d a k) s = execStef g d a k s := rfl
@[simp] theorem exec_stf g d a k (s : State) : exec (.stf g d a k) s = execStf g d a k s := rfl
@[simp] theorem exec_sto g d a k (s : State) : exec (.sto g d a k) s = execSto g d a k s := rfl
@[simp] theorem exec_sete g a k (s : State) : exec (.sete g a k) s = execSete g a k s := rfl
@[simp] theorem exec_peekf g p a k (s : State) : exec (.peekf g p a k) s = execPeekf g p a k s := rfl
@[simp] theorem exec_arrive g d a k (s : State) : exec (.arrive g d a k) s = execArrive g d a k s := rfl
@[simp] theorem exec_expect g d a k (s : State) : exec (.expect g d a k) s = execExpect g d a k s := rfl
@[simp] theorem exec_aaddD g d a b (s : State) : exec (.aaddD g d a b) s = execAaddD g d a b s := rfl
@[simp] theorem exec_aandD g d a b (s : State) : exec (.aandD g d a b) s = execAandD g d a b s := rfl
@[simp] theorem exec_aorD g d a b (s : State) : exec (.aorD g d a b) s = execAorD g d a b s := rfl
@[simp] theorem exec_axorD g d a b (s : State) : exec (.axorD g d a b) s = execAxorD g d a b s := rfl
@[simp] theorem exec_aminD g d a b (s : State) : exec (.aminD g d a b) s = execAminD g d a b s := rfl
@[simp] theorem exec_amaxD g d a b (s : State) : exec (.amaxD g d a b) s = execAmaxD g d a b s := rfl
@[simp] theorem exec_aminuD g d a b (s : State) : exec (.aminuD g d a b) s = execAminuD g d a b s := rfl
@[simp] theorem exec_amaxuD g d a b (s : State) : exec (.amaxuD g d a b) s = execAmaxuD g d a b s := rfl
@[simp] theorem exec_aswpD g d a b (s : State) : exec (.aswpD g d a b) s = execAswpD g d a b s := rfl
@[simp] theorem exec_acasD g d a b (s : State) : exec (.acasD g d a b) s = execAcasD g d a b s := rfl
@[simp] theorem exec_afaddD g d a b (s : State) : exec (.afaddD g d a b) s = execAfaddD g d a b s := rfl
@[simp] theorem exec_aaddW g d a b (s : State) : exec (.aaddW g d a b) s = execAaddW g d a b s := rfl
@[simp] theorem exec_aandW g d a b (s : State) : exec (.aandW g d a b) s = execAandW g d a b s := rfl
@[simp] theorem exec_aorW g d a b (s : State) : exec (.aorW g d a b) s = execAorW g d a b s := rfl
@[simp] theorem exec_axorW g d a b (s : State) : exec (.axorW g d a b) s = execAxorW g d a b s := rfl
@[simp] theorem exec_aminW g d a b (s : State) : exec (.aminW g d a b) s = execAminW g d a b s := rfl
@[simp] theorem exec_amaxW g d a b (s : State) : exec (.amaxW g d a b) s = execAmaxW g d a b s := rfl
@[simp] theorem exec_aminuW g d a b (s : State) : exec (.aminuW g d a b) s = execAminuW g d a b s := rfl
@[simp] theorem exec_amaxuW g d a b (s : State) : exec (.amaxuW g d a b) s = execAmaxuW g d a b s := rfl
@[simp] theorem exec_aswpW g d a b (s : State) : exec (.aswpW g d a b) s = execAswpW g d a b s := rfl
@[simp] theorem exec_acasW g d a b (s : State) : exec (.acasW g d a b) s = execAcasW g d a b s := rfl
@[simp] theorem exec_afaddW g d a b (s : State) : exec (.afaddW g d a b) s = execAfaddW g d a b s := rfl
@[simp] theorem exec_fenceAcq g k (s : State) : exec (.fenceAcq g k) s = execFenceAcq g k s := rfl
@[simp] theorem exec_fenceRel g k (s : State) : exec (.fenceRel g k) s = execFenceRel g k s := rfl
@[simp] theorem exec_fenceAr g k (s : State) : exec (.fenceAr g k) s = execFenceAr g k s := rfl
@[simp] theorem exec_fenceCpy g k (s : State) : exec (.fenceCpy g k) s = execFenceCpy g k s := rfl
@[simp] theorem exec_fenceSrv g k (s : State) : exec (.fenceSrv g k) s = execFenceSrv g k s := rfl
@[simp] theorem exec_cflush g a (s : State) : exec (.cflush g a) s = execCflush g a s := rfl
@[simp] theorem exec_cinv g a (s : State) : exec (.cinv g a) s = execCinv g a s := rfl
@[simp] theorem exec_cpref g a (s : State) : exec (.cpref g a) s = execCpref g a s := rfl
@[simp] theorem exec_czero g a (s : State) : exec (.czero g a) s = execCzero g a s := rfl
@[simp] theorem exec_cclean g a (s : State) : exec (.cclean g a) s = execCclean g a s := rfl
@[simp] theorem exec_gjoin g d n (s : State) : exec (.gjoin g d n) s = execGjoin g d n s := rfl
@[simp] theorem exec_gleave g d n (s : State) : exec (.gleave g d n) s = execGleave g d n s := rfl
@[simp] theorem exec_gsync g n (s : State) : exec (.gsync g n) s = execGsync g n s := rfl
@[simp] theorem exec_gshfl g d a n (s : State) : exec (.gshfl g d a n) s = execGshfl g d a n s := rfl
@[simp] theorem exec_gshflx g d a n (s : State) : exec (.gshflx g d a n) s = execGshflx g d a n s := rfl
@[simp] theorem exec_gbcast g d a n (s : State) : exec (.gbcast g d a n) s = execGbcast g d a n s := rfl
@[simp] theorem exec_gvoteAny g d a n (s : State) : exec (.gvoteAny g d a n) s = execGvoteAny g d a n s := rfl
@[simp] theorem exec_gvoteAll g d a n (s : State) : exec (.gvoteAll g d a n) s = execGvoteAll g d a n s := rfl
@[simp] theorem exec_gvoteBal g d a n (s : State) : exec (.gvoteBal g d a n) s = execGvoteBal g d a n s := rfl
@[simp] theorem exec_gmatch g d a n (s : State) : exec (.gmatch g d a n) s = execGmatch g d a n s := rfl
@[simp] theorem exec_gredAdd g d a n (s : State) : exec (.gredAdd g d a n) s = execGredAdd g d a n s := rfl
@[simp] theorem exec_gredMin g d a n (s : State) : exec (.gredMin g d a n) s = execGredMin g d a n s := rfl
@[simp] theorem exec_gredMax g d a n (s : State) : exec (.gredMax g d a n) s = execGredMax g d a n s := rfl
@[simp] theorem exec_gredFadd g d a n (s : State) : exec (.gredFadd g d a n) s = execGredFadd g d a n s := rfl
@[simp] theorem exec_gredFmax g d a n (s : State) : exec (.gredFmax g d a n) s = execGredFmax g d a n s := rfl
@[simp] theorem exec_gscanAdd g d a n (s : State) : exec (.gscanAdd g d a n) s = execGscanAdd g d a n s := rfl
@[simp] theorem exec_ldxtB g d a b (s : State) : exec (.ldxtB g d a b) s = execLdxtB g d a b s := rfl
@[simp] theorem exec_ldxtH g d a b (s : State) : exec (.ldxtH g d a b) s = execLdxtH g d a b s := rfl
@[simp] theorem exec_srv g a n r (s : State) : exec (.srv g a n r) s = execSrv g a n r s := rfl
@[simp] theorem exec_srvnw g p a n r (s : State) : exec (.srvnw g p a n r) s = execSrvnw g p a n r s := rfl
@[simp] theorem exec_srvq g d a (s : State) : exec (.srvq g d a) s = execSrvq g d a s := rfl
@[simp] theorem exec_cfgld g d a (s : State) : exec (.cfgld g d a) s = execCfgld g d a s := rfl
@[simp] theorem exec_cfgpin g d a (s : State) : exec (.cfgpin g d a) s = execCfgpin g d a s := rfl
@[simp] theorem exec_cfgunpin g d a (s : State) : exec (.cfgunpin g d a) s = execCfgunpin g d a s := rfl
@[simp] theorem exec_cfgev g d a (s : State) : exec (.cfgev g d a) s = execCfgev g d a s := rfl
@[simp] theorem exec_mxw g d a n (s : State) : exec (.mxw g d a n) s = execMxw g d a n s := rfl
@[simp] theorem exec_mxa g d a n (s : State) : exec (.mxa g d a n) s = execMxa g d a n s := rfl
@[simp] theorem exec_mxc g d a n (s : State) : exec (.mxc g d a n) s = execMxc g d a n s := rfl
@[simp] theorem exec_mxd g d a n (s : State) : exec (.mxd g d a n) s = execMxd g d a n s := rfl
@[simp] theorem exec_mxmd g d a n (s : State) : exec (.mxmd g d a n) s = execMxmd g d a n s := rfl
@[simp] theorem exec_mxst g d a n (s : State) : exec (.mxst g d a n) s = execMxst g d a n s := rfl
@[simp] theorem exec_cpy g d a p c (s : State) : exec (.cpy g d a p c) s = execCpy g d a p c s := rfl
@[simp] theorem exec_cshp g d a c (s : State) : exec (.cshp g d a c) s = execCshp g d a c s := rfl
@[simp] theorem exec_cpyq g d a c (s : State) : exec (.cpyq g d a c) s = execCpyq g d a c s := rfl
@[simp] theorem exec_cpyres g d a c (s : State) : exec (.cpyres g d a c) s = execCpyres g d a c s := rfl
@[simp] theorem exec_cpyabt g d l c (s : State) : exec (.cpyabt g d l c) s = execCpyabt g d l c s := rfl
@[simp] theorem exec_wmrd g d c (s : State) : exec (.wmrd g d c) s = execWmrd g d c s := rfl
@[simp] theorem exec_wmwait g d a c (s : State) : exec (.wmwait g d a c) s = execWmwait g d a c s := rfl
@[simp] theorem exec_mstart g d a c (s : State) : exec (.mstart g d a c) s = execMstart g d a c s := rfl
@[simp] theorem exec_mstrm g d a c u k (s : State) : exec (.mstrm g d a c u k) s = execMstrm g d a c u k s := rfl
@[simp] theorem exec_mpush g d a c k (s : State) : exec (.mpush g d a c k) s = execMpush g d a c k s := rfl
@[simp] theorem exec_mfin g d a c (s : State) : exec (.mfin g d a c) s = execMfin g d a c s := rfl
@[simp] theorem exec_mspill g d a c (s : State) : exec (.mspill g d a c) s = execMspill g d a c s := rfl
@[simp] theorem exec_mstat g d a c (s : State) : exec (.mstat g d a c) s = execMstat g d a c s := rfl
@[simp] theorem exec_xsect g d a c (s : State) : exec (.xsect g d a c) s = execXsect g d a c s := rfl
@[simp] theorem exec_xunion g d a c (s : State) : exec (.xunion g d a c) s = execXunion g d a c s := rfl
@[simp] theorem exec_xcnt g d a c (s : State) : exec (.xcnt g d a c) s = execXcnt g d a c s := rfl
@[simp] theorem exec_csrrw g d a i (s : State) : exec (.csrrw g d a i) s = execCsrrw g d a i s := rfl
@[simp] theorem exec_csrrs g d a i (s : State) : exec (.csrrs g d a i) s = execCsrrs g d a i s := rfl
@[simp] theorem exec_csrrc g d a i (s : State) : exec (.csrrc g d a i) s = execCsrrc g d a i s := rfl
@[simp] theorem exec_tlbi g d a b (s : State) : exec (.tlbi g d a b) s = execTlbi g d a b s := rfl
@[simp] theorem exec_slotsave g d a b (s : State) : exec (.slotsave g d a b) s = execSlotsave g d a b s := rfl
@[simp] theorem exec_slotload g d a (s : State) : exec (.slotload g d a) s = execSlotload g d a s := rfl
@[simp] theorem exec_slotctl g d a b (s : State) : exec (.slotctl g d a b) s = execSlotctl g d a b s := rfl
@[simp] theorem exec_rgnset g d a b (s : State) : exec (.rgnset g d a b) s = execRgnset g d a b s := rfl
@[simp] theorem exec_trace g a b (s : State) : exec (.trace g a b) s = execTrace g a b s := rfl
@[simp] theorem exec_mark g d a (s : State) : exec (.mark g d a) s = execMark g d a s := rfl
@[simp] theorem exec_snap g d (s : State) : exec (.snap g d) s = execSnap g d s := rfl
@[simp] theorem exec_nIadd a b m (s : State) : exec (.nIadd a b m) s = execNIadd a b m s := rfl
@[simp] theorem exec_nIsub a b m (s : State) : exec (.nIsub a b m) s = execNIsub a b m s := rfl
@[simp] theorem exec_nImul a b m (s : State) : exec (.nImul a b m) s = execNImul a b m s := rfl
@[simp] theorem exec_nIand a b m (s : State) : exec (.nIand a b m) s = execNIand a b m s := rfl
@[simp] theorem exec_nIor a b m (s : State) : exec (.nIor a b m) s = execNIor a b m s := rfl
@[simp] theorem exec_nIxor a b m (s : State) : exec (.nIxor a b m) s = execNIxor a b m s := rfl
@[simp] theorem exec_nIshl a b m (s : State) : exec (.nIshl a b m) s = execNIshl a b m s := rfl
@[simp] theorem exec_nIshr a b m (s : State) : exec (.nIshr a b m) s = execNIshr a b m s := rfl
@[simp] theorem exec_nIsra a b m (s : State) : exec (.nIsra a b m) s = execNIsra a b m s := rfl
@[simp] theorem exec_nImin a b m (s : State) : exec (.nImin a b m) s = execNImin a b m s := rfl
@[simp] theorem exec_nImax a b m (s : State) : exec (.nImax a b m) s = execNImax a b m s := rfl
@[simp] theorem exec_nIcmp a b m (s : State) : exec (.nIcmp a b m) s = execNIcmp a b m s := rfl
@[simp] theorem exec_nFadd a b m (s : State) : exec (.nFadd a b m) s = execNFadd a b m s := rfl
@[simp] theorem exec_nFmul a b m (s : State) : exec (.nFmul a b m) s = execNFmul a b m s := rfl
@[simp] theorem exec_nFma a b m (s : State) : exec (.nFma a b m) s = execNFma a b m s := rfl
@[simp] theorem exec_nFmax a b m (s : State) : exec (.nFmax a b m) s = execNFmax a b m s := rfl
@[simp] theorem exec_nFmin a b m (s : State) : exec (.nFmin a b m) s = execNFmin a b m s := rfl
@[simp] theorem exec_nExp2 a b m (s : State) : exec (.nExp2 a b m) s = execNExp2 a b m s := rfl
@[simp] theorem exec_nLog2 a b m (s : State) : exec (.nLog2 a b m) s = execNLog2 a b m s := rfl
@[simp] theorem exec_nRcp a b m (s : State) : exec (.nRcp a b m) s = execNRcp a b m s := rfl
@[simp] theorem exec_nRsq a b m (s : State) : exec (.nRsq a b m) s = execNRsq a b m s := rfl
@[simp] theorem exec_nCvt a b m (s : State) : exec (.nCvt a b m) s = execNCvt a b m s := rfl
@[simp] theorem exec_nSteer a b m (s : State) : exec (.nSteer a b m) s = execNSteer a b m s := rfl
@[simp] theorem exec_nJoin a b m (s : State) : exec (.nJoin a b m) s = execNJoin a b m s := rfl
@[simp] theorem exec_nMux a b m (s : State) : exec (.nMux a b m) s = execNMux a b m s := rfl
@[simp] theorem exec_nRecirc a b (s : State) : exec (.nRecirc a b) s = execNRecirc a b s := rfl
@[simp] theorem exec_nEosx a b m (s : State) : exec (.nEosx a b m) s = execNEosx a b m s := rfl
@[simp] theorem exec_nDup a b (s : State) : exec (.nDup a b) s = execNDup a b s := rfl
@[simp] theorem exec_nDelay a b (s : State) : exec (.nDelay a b) s = execNDelay a b s := rfl
@[simp] theorem exec_nConst a b (s : State) : exec (.nConst a b) s = execNConst a b s := rfl
@[simp] theorem exec_nTagchk a b m (s : State) : exec (.nTagchk a b m) s = execNTagchk a b m s := rfl
@[simp] theorem exec_nFilter a b m (s : State) : exec (.nFilter a b m) s = execNFilter a b m s := rfl
@[simp] theorem exec_nCoalesce a b m (s : State) : exec (.nCoalesce a b m) s = execNCoalesce a b m s := rfl
@[simp] theorem exec_nCmpx a b m (s : State) : exec (.nCmpx a b m) s = execNCmpx a b m s := rfl
@[simp] theorem exec_nLoopgen a b m (s : State) : exec (.nLoopgen a b m) s = execNLoopgen a b m s := rfl
@[simp] theorem exec_nAddrgen a b m (s : State) : exec (.nAddrgen a b m) s = execNAddrgen a b m s := rfl
@[simp] theorem exec_nLdn a b m (s : State) : exec (.nLdn a b m) s = execNLdn a b m s := rfl
@[simp] theorem exec_nStn a b m (s : State) : exec (.nStn a b m) s = execNStn a b m s := rfl
@[simp] theorem exec_nEntry a b (s : State) : exec (.nEntry a b) s = execNEntry a b s := rfl
@[simp] theorem exec_nReturn a b (s : State) : exec (.nReturn a b) s = execNReturn a b s := rfl
@[simp] theorem exec_evEventTaken tid (s : State) : exec (.evEventTaken tid) s = execEvEventTaken tid s := rfl
@[simp] theorem exec_evThreadResume tid (s : State) : exec (.evThreadResume tid) s = execEvThreadResume tid s := rfl
@[simp] theorem exec_evLoadResponse tid k (s : State) : exec (.evLoadResponse tid k) s = execEvLoadResponse tid k s := rfl
@[simp] theorem exec_evStorePerformed tid q k (s : State) : exec (.evStorePerformed tid q k) s = execEvStorePerformed tid q k s := rfl
@[simp] theorem exec_evAtomicAtHome tid q (s : State) : exec (.evAtomicAtHome tid q) s = execEvAtomicAtHome tid q s := rfl
@[simp] theorem exec_evSyncWordAtHome tid (s : State) : exec (.evSyncWordAtHome tid) s = execEvSyncWordAtHome tid s := rfl
@[simp] theorem exec_evWaitlistRetry list (s : State) : exec (.evWaitlistRetry list) s = execEvWaitlistRetry list s := rfl
@[simp] theorem exec_evIcacheFill tid (s : State) : exec (.evIcacheFill tid) s = execEvIcacheFill tid s := rfl
@[simp] theorem exec_evPageWalk tid (s : State) : exec (.evPageWalk tid) s = execEvPageWalk tid s := rfl
@[simp] theorem exec_evSleepTimeout tid (s : State) : exec (.evSleepTimeout tid) s = execEvSleepTimeout tid s := rfl
@[simp] theorem exec_evLongPark tid (s : State) : exec (.evLongPark tid) s = execEvLongPark tid s := rfl
@[simp] theorem exec_evMessageArrival n (s : State) : exec (.evMessageArrival n) s = execEvMessageArrival n s := rfl
@[simp] theorem exec_evAnswerArrival tid (s : State) : exec (.evAnswerArrival tid) s = execEvAnswerArrival tid s := rfl
@[simp] theorem exec_evKillArrival tid (s : State) : exec (.evKillArrival tid) s = execEvKillArrival tid s := rfl
@[simp] theorem exec_evDrainComplete tid (s : State) : exec (.evDrainComplete tid) s = execEvDrainComplete tid s := rfl
@[simp] theorem exec_evHeldRedelivery die n (s : State) : exec (.evHeldRedelivery die n) s = execEvHeldRedelivery die n s := rfl
@[simp] theorem exec_evCollectiveComplete spire n (s : State) : exec (.evCollectiveComplete spire n) s = execEvCollectiveComplete spire n s := rfl
@[simp] theorem exec_evRecordEntry spire region tid (s : State) : exec (.evRecordEntry spire region tid) s = execEvRecordEntry spire region tid s := rfl
@[simp] theorem exec_evReturnDelivery spire region tid (s : State) : exec (.evReturnDelivery spire region tid) s = execEvReturnDelivery spire region tid s := rfl
@[simp] theorem exec_evHearthPlace spire region (s : State) : exec (.evHearthPlace spire region) s = execEvHearthPlace spire region s := rfl
@[simp] theorem exec_evRegionClosed spire region (s : State) : exec (.evRegionClosed spire region) s = execEvRegionClosed spire region s := rfl
@[simp] theorem exec_evShadowWrite spire region i j (s : State) : exec (.evShadowWrite spire region i j) s = execEvShadowWrite spire region i j s := rfl
@[simp] theorem exec_evCellSwap spire region i j u (s : State) : exec (.evCellSwap spire region i j u) s = execEvCellSwap spire region i j u s := rfl
@[simp] theorem exec_evMatrixOpStart spire region (s : State) : exec (.evMatrixOpStart spire region) s = execEvMatrixOpStart spire region s := rfl
@[simp] theorem exec_evRowDrain spire region (s : State) : exec (.evRowDrain spire region) s = execEvRowDrain spire region s := rfl
@[simp] theorem exec_evMatrixHalt spire region (s : State) : exec (.evMatrixHalt spire region) s = execEvMatrixHalt spire region s := rfl
@[simp] theorem exec_evElementLand spire ch (s : State) : exec (.evElementLand spire ch) s = execEvElementLand spire ch s := rfl
@[simp] theorem exec_evCopySignal spire ch (s : State) : exec (.evCopySignal spire ch) s = execEvCopySignal spire ch s := rfl
@[simp] theorem exec_evStreamRead spire ctx k (s : State) : exec (.evStreamRead spire ctx k) s = execEvStreamRead spire ctx k s := rfl
@[simp] theorem exec_evSpill spire ctx (s : State) : exec (.evSpill spire ctx) s = execEvSpill spire ctx s := rfl
@[simp] theorem exec_evMergeFinish spire ctx (s : State) : exec (.evMergeFinish spire ctx) s = execEvMergeFinish spire ctx s := rfl
@[simp] theorem exec_evSetOperation spire ctx (s : State) : exec (.evSetOperation spire ctx) s = execEvSetOperation spire ctx s := rfl
@[simp] theorem exec_evRegionQuiet spire region (s : State) : exec (.evRegionQuiet spire region) s = execEvRegionQuiet spire region s := rfl
@[simp] theorem exec_evCutDone spire region (s : State) : exec (.evCutDone spire region) s = execEvCutDone spire region s := rfl
@[simp] theorem exec_evDbgtrig (s : State) : exec (.evDbgtrig) s = execEvDbgtrig s := rfl
@[simp] theorem exec_evSnapshotLatch spire (s : State) : exec (.evSnapshotLatch spire) s = execEvSnapshotLatch spire s := rfl
@[simp] theorem exec_evTraceWrite spire (s : State) : exec (.evTraceWrite spire) s = execEvTraceWrite spire s := rfl
@[simp] theorem exec_evWidxWrite q v (s : State) : exec (.evWidxWrite q v) s = execEvWidxWrite q v s := rfl
@[simp] theorem exec_evQstatErr q (s : State) : exec (.evQstatErr q) s = execEvQstatErr q s := rfl
@[simp] theorem exec_evQstatFault q (s : State) : exec (.evQstatFault q) s = execEvQstatFault q s := rfl
@[simp] theorem exec_evQstatAbort q (s : State) : exec (.evQstatAbort q) s = execEvQstatAbort q s := rfl
@[simp] theorem exec_evEvrWrite q v (s : State) : exec (.evEvrWrite q v) s = execEvEvrWrite q v s := rfl
@[simp] theorem exec_evRefusedWrite spire region v (s : State) : exec (.evRefusedWrite spire region v) s = execEvRefusedWrite spire region v s := rfl
@[simp] theorem exec_evNodeStateWrite spire region o (s : State) : exec (.evNodeStateWrite spire region o) s = execEvNodeStateWrite spire region o s := rfl
@[simp] theorem exec_evRctlWrite spire region v (s : State) : exec (.evRctlWrite spire region v) s = execEvRctlWrite spire region v s := rfl
@[simp] theorem exec_evBkcfgWrite spire region k v (s : State) : exec (.evBkcfgWrite spire region k v) s = execEvBkcfgWrite spire region k v s := rfl
@[simp] theorem exec_evRegisterWrite o v (s : State) : exec (.evRegisterWrite o v) s = execEvRegisterWrite o v s := rfl
@[simp] theorem exec_evLaunch q (s : State) : exec (.evLaunch q) s = execEvLaunch q s := rfl
@[simp] theorem exec_evLaunchPlace die (s : State) : exec (.evLaunchPlace die) s = execEvLaunchPlace die s := rfl
@[simp] theorem exec_evBind q (s : State) : exec (.evBind q) s = execEvBind q s := rfl
@[simp] theorem exec_evBindInbound spire region k (s : State) : exec (.evBindInbound spire region k) s = execEvBindInbound spire region k s := rfl
@[simp] theorem exec_evBindOutbound spire region k (s : State) : exec (.evBindOutbound spire region k) s = execEvBindOutbound spire region k s := rfl
@[simp] theorem exec_evWait q (s : State) : exec (.evWait q) s = execEvWait q s := rfl
@[simp] theorem exec_evSignalStf q (s : State) : exec (.evSignalStf q) s = execEvSignalStf q s := rfl
@[simp] theorem exec_evSignalArrive q (s : State) : exec (.evSignalArrive q) s = execEvSignalArrive q s := rfl
@[simp] theorem exec_evSignalAadd q (s : State) : exec (.evSignalAadd q) s = execEvSignalAadd q s := rfl
@[simp] theorem exec_evConfigLoad q (s : State) : exec (.evConfigLoad q) s = execEvConfigLoad q s := rfl
@[simp] theorem exec_evConfigUnload q (s : State) : exec (.evConfigUnload q) s = execEvConfigUnload q s := rfl
@[simp] theorem exec_evConfigForce q (s : State) : exec (.evConfigForce q) s = execEvConfigForce q s := rfl
@[simp] theorem exec_evRegion q (s : State) : exec (.evRegion q) s = execEvRegion q s := rfl
@[simp] theorem exec_evCopy q (s : State) : exec (.evCopy q) s = execEvCopy q s := rfl
@[simp] theorem exec_evFence q (s : State) : exec (.evFence q) s = execEvFence q s := rfl
@[simp] theorem exec_evCommandComplete q k (s : State) : exec (.evCommandComplete q k) s = execEvCommandComplete q k s := rfl
@[simp] theorem exec_evSeqEnd q k (s : State) : exec (.evSeqEnd q k) s = execEvSeqEnd q k s := rfl
@[simp] theorem exec_evSeqLoad q k (s : State) : exec (.evSeqLoad q k) s = execEvSeqLoad q k s := rfl
@[simp] theorem exec_evSeqSwap q k (s : State) : exec (.evSeqSwap q k) s = execEvSeqSwap q k s := rfl
@[simp] theorem exec_evSeqWaiteos q k (s : State) : exec (.evSeqWaiteos q k) s = execEvSeqWaiteos q k s := rfl
@[simp] theorem exec_evSeqWaitc q k (s : State) : exec (.evSeqWaitc q k) s = execEvSeqWaitc q k s := rfl
@[simp] theorem exec_evSeqSkipc q k (s : State) : exec (.evSeqSkipc q k) s = execEvSeqSkipc q k s := rfl
@[simp] theorem exec_evSeqPin q k (s : State) : exec (.evSeqPin q k) s = execEvSeqPin q k s := rfl
@[simp] theorem exec_evSeqUnpin q k (s : State) : exec (.evSeqUnpin q k) s = execEvSeqUnpin q k s := rfl
@[simp] theorem exec_evPeerAccess p (s : State) : exec (.evPeerAccess p) s = execEvPeerAccess p s := rfl
@[simp] theorem exec_evPeerLinkDown p (s : State) : exec (.evPeerLinkDown p) s = execEvPeerLinkDown p s := rfl
@[simp] theorem exec_evIslctlWrite i v (s : State) : exec (.evIslctlWrite i v) s = execEvIslctlWrite i v s := rfl
@[simp] theorem exec_evIslandPowerUp i (s : State) : exec (.evIslandPowerUp i) s = execEvIslandPowerUp i s := rfl
@[simp] theorem exec_evIslandGate i (s : State) : exec (.evIslandGate i) s = execEvIslandGate i s := rfl
@[simp] theorem exec_evVfChange i (s : State) : exec (.evVfChange i) s = execEvVfChange i s := rfl
@[simp] theorem exec_evThermalThrottle i (s : State) : exec (.evThermalThrottle i) s = execEvThermalThrottle i s := rfl
@[simp] theorem exec_evForcedGate i (s : State) : exec (.evForcedGate i) s = execEvForcedGate i s := rfl
@[simp] theorem exec_evEccWindow k i (s : State) : exec (.evEccWindow k i) s = execEvEccWindow k i s := rfl
@[simp] theorem exec_evUncorrectableError o (s : State) : exec (.evUncorrectableError o) s = execEvUncorrectableError o s := rfl
@[simp] theorem exec_evPackageReset die (s : State) : exec (.evPackageReset die) s = execEvPackageReset die s := rfl
@[simp] theorem exec_evAttctlWrite die v (s : State) : exec (.evAttctlWrite die v) s = execEvAttctlWrite die v s := rfl
@[simp] theorem exec_evAttestationDone die (s : State) : exec (.evAttestationDone die) s = execEvAttestationDone die s := rfl
@[simp] theorem exec_evMatrixStreamRead spire region (s : State) : exec (.evMatrixStreamRead spire region) s = execEvMatrixStreamRead spire region s := rfl
@[simp] theorem exec_evMemoryNodeAccessDone spire region k (s : State) : exec (.evMemoryNodeAccessDone spire region k) s = execEvMemoryNodeAccessDone spire region k s := rfl
@[simp] theorem exec_evPeerLinkUp p (s : State) : exec (.evPeerLinkUp p) s = execEvPeerLinkUp p s := rfl

end Sys2Proof.Machine
end

