-- ==== Sys2Proof/Laws/State.lean ====
section
/-! SUPPORT. One lemma per field per update of the state and of a slot, so that no proof unfolds a record update. -/

namespace Sys2Proof.Machine

@[simp] theorem State.setSlot_now (s : State) (t : Nat) (v : Slot) : (s.setSlot t v).now = s.now := rfl
@[simp] theorem State.setSlot_cursor (s : State) (t : Nat) (v : Slot) : (s.setSlot t v).cursor = s.cursor := rfl
@[simp] theorem State.setSlot_tid (s : State) (t : Nat) (v : Slot) : (s.setSlot t v).tid = s.tid := rfl
@[simp] theorem State.setSlot_site (s : State) (t : Nat) (v : Slot) : (s.setSlot t v).site = s.site := rfl
@[simp] theorem State.setSlot_agenda (s : State) (t : Nat) (v : Slot) : (s.setSlot t v).agenda = s.agenda := rfl
@[simp] theorem State.setSlot_fresh (s : State) (t : Nat) (v : Slot) : (s.setSlot t v).fresh = s.fresh := rfl
@[simp] theorem State.setSlot_serial (s : State) (t : Nat) (v : Slot) : (s.setSlot t v).serial = s.serial := rfl
@[simp] theorem State.setSlot_mem (s : State) (t : Nat) (v : Slot) : (s.setSlot t v).mem = s.mem := rfl
@[simp] theorem State.setSlot_full (s : State) (t : Nat) (v : Slot) : (s.setSlot t v).full = s.full := rfl
@[simp] theorem State.setSlot_waits (s : State) (t : Nat) (v : Slot) : (s.setSlot t v).waits = s.waits := rfl
@[simp] theorem State.setSlot_cores (s : State) (t : Nat) (v : Slot) : (s.setSlot t v).cores = s.cores := rfl
@[simp] theorem State.setSlot_spires (s : State) (t : Nat) (v : Slot) : (s.setSlot t v).spires = s.spires := rfl
@[simp] theorem State.setSlot_net (s : State) (t : Nat) (v : Slot) : (s.setSlot t v).net = s.net := rfl
@[simp] theorem State.setSlot_kills (s : State) (t : Nat) (v : Slot) : (s.setSlot t v).kills = s.kills := rfl
@[simp] theorem State.setSlot_answers (s : State) (t : Nat) (v : Slot) : (s.setSlot t v).answers = s.answers := rfl
@[simp] theorem State.setSlot_die0 (s : State) (t : Nat) (v : Slot) : (s.setSlot t v).die0 = s.die0 := rfl
@[simp] theorem State.setSlot_die1 (s : State) (t : Nat) (v : Slot) : (s.setSlot t v).die1 = s.die1 := rfl
@[simp] theorem State.setSlot_queues (s : State) (t : Nat) (v : Slot) : (s.setSlot t v).queues = s.queues := rfl
@[simp] theorem State.setSlot_msix (s : State) (t : Nat) (v : Slot) : (s.setSlot t v).msix = s.msix := rfl
@[simp] theorem State.setSlot_barData (s : State) (t : Nat) (v : Slot) : (s.setSlot t v).barData = s.barData := rfl
@[simp] theorem State.setSlot_links (s : State) (t : Nat) (v : Slot) : (s.setSlot t v).links = s.links := rfl
@[simp] theorem State.setSlot_peerIn (s : State) (t : Nat) (v : Slot) : (s.setSlot t v).peerIn = s.peerIn := rfl
@[simp] theorem State.setSlot_peerOut (s : State) (t : Nat) (v : Slot) : (s.setSlot t v).peerOut = s.peerOut := rfl
@[simp] theorem State.setSlot_islands (s : State) (t : Nat) (v : Slot) : (s.setSlot t v).islands = s.islands := rfl
@[simp] theorem State.setSlot_ecc (s : State) (t : Nat) (v : Slot) : (s.setSlot t v).ecc = s.ecc := rfl
@[simp] theorem State.setSlot_bad (s : State) (t : Nat) (v : Slot) : (s.setSlot t v).bad = s.bad := rfl
@[simp] theorem State.setSlot_boots (s : State) (t : Nat) (v : Slot) : (s.setSlot t v).boots = s.boots := rfl
@[simp] theorem State.setSlot_leaf (s : State) (t : Nat) (v : Slot) : (s.setSlot t v).leaf = s.leaf := rfl
@[simp] theorem State.setSlot_dbgout (s : State) (t : Nat) (v : Slot) : (s.setSlot t v).dbgout = s.dbgout := rfl
@[simp] theorem State.setSlot_trig (s : State) (t : Nat) (v : Slot) : (s.setSlot t v).trig = s.trig := rfl

@[simp] theorem State.setThr_now (s : State) (v : Slot) : (s.setThr v).now = s.now := rfl
@[simp] theorem State.setThr_cursor (s : State) (v : Slot) : (s.setThr v).cursor = s.cursor := rfl
@[simp] theorem State.setThr_tid (s : State) (v : Slot) : (s.setThr v).tid = s.tid := rfl
@[simp] theorem State.setThr_site (s : State) (v : Slot) : (s.setThr v).site = s.site := rfl
@[simp] theorem State.setThr_agenda (s : State) (v : Slot) : (s.setThr v).agenda = s.agenda := rfl
@[simp] theorem State.setThr_fresh (s : State) (v : Slot) : (s.setThr v).fresh = s.fresh := rfl
@[simp] theorem State.setThr_serial (s : State) (v : Slot) : (s.setThr v).serial = s.serial := rfl
@[simp] theorem State.setThr_mem (s : State) (v : Slot) : (s.setThr v).mem = s.mem := rfl
@[simp] theorem State.setThr_full (s : State) (v : Slot) : (s.setThr v).full = s.full := rfl
@[simp] theorem State.setThr_waits (s : State) (v : Slot) : (s.setThr v).waits = s.waits := rfl
@[simp] theorem State.setThr_cores (s : State) (v : Slot) : (s.setThr v).cores = s.cores := rfl
@[simp] theorem State.setThr_spires (s : State) (v : Slot) : (s.setThr v).spires = s.spires := rfl
@[simp] theorem State.setThr_net (s : State) (v : Slot) : (s.setThr v).net = s.net := rfl
@[simp] theorem State.setThr_kills (s : State) (v : Slot) : (s.setThr v).kills = s.kills := rfl
@[simp] theorem State.setThr_answers (s : State) (v : Slot) : (s.setThr v).answers = s.answers := rfl
@[simp] theorem State.setThr_die0 (s : State) (v : Slot) : (s.setThr v).die0 = s.die0 := rfl
@[simp] theorem State.setThr_die1 (s : State) (v : Slot) : (s.setThr v).die1 = s.die1 := rfl
@[simp] theorem State.setThr_queues (s : State) (v : Slot) : (s.setThr v).queues = s.queues := rfl
@[simp] theorem State.setThr_msix (s : State) (v : Slot) : (s.setThr v).msix = s.msix := rfl
@[simp] theorem State.setThr_barData (s : State) (v : Slot) : (s.setThr v).barData = s.barData := rfl
@[simp] theorem State.setThr_links (s : State) (v : Slot) : (s.setThr v).links = s.links := rfl
@[simp] theorem State.setThr_peerIn (s : State) (v : Slot) : (s.setThr v).peerIn = s.peerIn := rfl
@[simp] theorem State.setThr_peerOut (s : State) (v : Slot) : (s.setThr v).peerOut = s.peerOut := rfl
@[simp] theorem State.setThr_islands (s : State) (v : Slot) : (s.setThr v).islands = s.islands := rfl
@[simp] theorem State.setThr_ecc (s : State) (v : Slot) : (s.setThr v).ecc = s.ecc := rfl
@[simp] theorem State.setThr_bad (s : State) (v : Slot) : (s.setThr v).bad = s.bad := rfl
@[simp] theorem State.setThr_boots (s : State) (v : Slot) : (s.setThr v).boots = s.boots := rfl
@[simp] theorem State.setThr_leaf (s : State) (v : Slot) : (s.setThr v).leaf = s.leaf := rfl
@[simp] theorem State.setThr_dbgout (s : State) (v : Slot) : (s.setThr v).dbgout = s.dbgout := rfl
@[simp] theorem State.setThr_trig (s : State) (v : Slot) : (s.setThr v).trig = s.trig := rfl

@[simp] theorem State.setSpire_now (s : State) (g : Nat) (v : Spire) : (s.setSpire g v).now = s.now := rfl
@[simp] theorem State.setSpire_cursor (s : State) (g : Nat) (v : Spire) : (s.setSpire g v).cursor = s.cursor := rfl
@[simp] theorem State.setSpire_tid (s : State) (g : Nat) (v : Spire) : (s.setSpire g v).tid = s.tid := rfl
@[simp] theorem State.setSpire_site (s : State) (g : Nat) (v : Spire) : (s.setSpire g v).site = s.site := rfl
@[simp] theorem State.setSpire_agenda (s : State) (g : Nat) (v : Spire) : (s.setSpire g v).agenda = s.agenda := rfl
@[simp] theorem State.setSpire_fresh (s : State) (g : Nat) (v : Spire) : (s.setSpire g v).fresh = s.fresh := rfl
@[simp] theorem State.setSpire_serial (s : State) (g : Nat) (v : Spire) : (s.setSpire g v).serial = s.serial := rfl
@[simp] theorem State.setSpire_mem (s : State) (g : Nat) (v : Spire) : (s.setSpire g v).mem = s.mem := rfl
@[simp] theorem State.setSpire_full (s : State) (g : Nat) (v : Spire) : (s.setSpire g v).full = s.full := rfl
@[simp] theorem State.setSpire_waits (s : State) (g : Nat) (v : Spire) : (s.setSpire g v).waits = s.waits := rfl
@[simp] theorem State.setSpire_slots (s : State) (g : Nat) (v : Spire) : (s.setSpire g v).slots = s.slots := rfl
@[simp] theorem State.setSpire_cores (s : State) (g : Nat) (v : Spire) : (s.setSpire g v).cores = s.cores := rfl
@[simp] theorem State.setSpire_net (s : State) (g : Nat) (v : Spire) : (s.setSpire g v).net = s.net := rfl
@[simp] theorem State.setSpire_kills (s : State) (g : Nat) (v : Spire) : (s.setSpire g v).kills = s.kills := rfl
@[simp] theorem State.setSpire_answers (s : State) (g : Nat) (v : Spire) : (s.setSpire g v).answers = s.answers := rfl
@[simp] theorem State.setSpire_die0 (s : State) (g : Nat) (v : Spire) : (s.setSpire g v).die0 = s.die0 := rfl
@[simp] theorem State.setSpire_die1 (s : State) (g : Nat) (v : Spire) : (s.setSpire g v).die1 = s.die1 := rfl
@[simp] theorem State.setSpire_queues (s : State) (g : Nat) (v : Spire) : (s.setSpire g v).queues = s.queues := rfl
@[simp] theorem State.setSpire_msix (s : State) (g : Nat) (v : Spire) : (s.setSpire g v).msix = s.msix := rfl
@[simp] theorem State.setSpire_barData (s : State) (g : Nat) (v : Spire) : (s.setSpire g v).barData = s.barData := rfl
@[simp] theorem State.setSpire_links (s : State) (g : Nat) (v : Spire) : (s.setSpire g v).links = s.links := rfl
@[simp] theorem State.setSpire_peerIn (s : State) (g : Nat) (v : Spire) : (s.setSpire g v).peerIn = s.peerIn := rfl
@[simp] theorem State.setSpire_peerOut (s : State) (g : Nat) (v : Spire) : (s.setSpire g v).peerOut = s.peerOut := rfl
@[simp] theorem State.setSpire_islands (s : State) (g : Nat) (v : Spire) : (s.setSpire g v).islands = s.islands := rfl
@[simp] theorem State.setSpire_ecc (s : State) (g : Nat) (v : Spire) : (s.setSpire g v).ecc = s.ecc := rfl
@[simp] theorem State.setSpire_bad (s : State) (g : Nat) (v : Spire) : (s.setSpire g v).bad = s.bad := rfl
@[simp] theorem State.setSpire_boots (s : State) (g : Nat) (v : Spire) : (s.setSpire g v).boots = s.boots := rfl
@[simp] theorem State.setSpire_leaf (s : State) (g : Nat) (v : Spire) : (s.setSpire g v).leaf = s.leaf := rfl
@[simp] theorem State.setSpire_dbgout (s : State) (g : Nat) (v : Spire) : (s.setSpire g v).dbgout = s.dbgout := rfl
@[simp] theorem State.setSpire_trig (s : State) (g : Nat) (v : Spire) : (s.setSpire g v).trig = s.trig := rfl

@[simp] theorem State.setCore_now (s : State) (c : Nat) (v : Core) : (s.setCore c v).now = s.now := rfl
@[simp] theorem State.setCore_cursor (s : State) (c : Nat) (v : Core) : (s.setCore c v).cursor = s.cursor := rfl
@[simp] theorem State.setCore_tid (s : State) (c : Nat) (v : Core) : (s.setCore c v).tid = s.tid := rfl
@[simp] theorem State.setCore_site (s : State) (c : Nat) (v : Core) : (s.setCore c v).site = s.site := rfl
@[simp] theorem State.setCore_agenda (s : State) (c : Nat) (v : Core) : (s.setCore c v).agenda = s.agenda := rfl
@[simp] theorem State.setCore_fresh (s : State) (c : Nat) (v : Core) : (s.setCore c v).fresh = s.fresh := rfl
@[simp] theorem State.setCore_serial (s : State) (c : Nat) (v : Core) : (s.setCore c v).serial = s.serial := rfl
@[simp] theorem State.setCore_mem (s : State) (c : Nat) (v : Core) : (s.setCore c v).mem = s.mem := rfl
@[simp] theorem State.setCore_full (s : State) (c : Nat) (v : Core) : (s.setCore c v).full = s.full := rfl
@[simp] theorem State.setCore_waits (s : State) (c : Nat) (v : Core) : (s.setCore c v).waits = s.waits := rfl
@[simp] theorem State.setCore_slots (s : State) (c : Nat) (v : Core) : (s.setCore c v).slots = s.slots := rfl
@[simp] theorem State.setCore_spires (s : State) (c : Nat) (v : Core) : (s.setCore c v).spires = s.spires := rfl
@[simp] theorem State.setCore_net (s : State) (c : Nat) (v : Core) : (s.setCore c v).net = s.net := rfl
@[simp] theorem State.setCore_kills (s : State) (c : Nat) (v : Core) : (s.setCore c v).kills = s.kills := rfl
@[simp] theorem State.setCore_answers (s : State) (c : Nat) (v : Core) : (s.setCore c v).answers = s.answers := rfl
@[simp] theorem State.setCore_die0 (s : State) (c : Nat) (v : Core) : (s.setCore c v).die0 = s.die0 := rfl
@[simp] theorem State.setCore_die1 (s : State) (c : Nat) (v : Core) : (s.setCore c v).die1 = s.die1 := rfl
@[simp] theorem State.setCore_queues (s : State) (c : Nat) (v : Core) : (s.setCore c v).queues = s.queues := rfl
@[simp] theorem State.setCore_msix (s : State) (c : Nat) (v : Core) : (s.setCore c v).msix = s.msix := rfl
@[simp] theorem State.setCore_barData (s : State) (c : Nat) (v : Core) : (s.setCore c v).barData = s.barData := rfl
@[simp] theorem State.setCore_links (s : State) (c : Nat) (v : Core) : (s.setCore c v).links = s.links := rfl
@[simp] theorem State.setCore_peerIn (s : State) (c : Nat) (v : Core) : (s.setCore c v).peerIn = s.peerIn := rfl
@[simp] theorem State.setCore_peerOut (s : State) (c : Nat) (v : Core) : (s.setCore c v).peerOut = s.peerOut := rfl
@[simp] theorem State.setCore_islands (s : State) (c : Nat) (v : Core) : (s.setCore c v).islands = s.islands := rfl
@[simp] theorem State.setCore_ecc (s : State) (c : Nat) (v : Core) : (s.setCore c v).ecc = s.ecc := rfl
@[simp] theorem State.setCore_bad (s : State) (c : Nat) (v : Core) : (s.setCore c v).bad = s.bad := rfl
@[simp] theorem State.setCore_boots (s : State) (c : Nat) (v : Core) : (s.setCore c v).boots = s.boots := rfl
@[simp] theorem State.setCore_leaf (s : State) (c : Nat) (v : Core) : (s.setCore c v).leaf = s.leaf := rfl
@[simp] theorem State.setCore_dbgout (s : State) (c : Nat) (v : Core) : (s.setCore c v).dbgout = s.dbgout := rfl
@[simp] theorem State.setCore_trig (s : State) (c : Nat) (v : Core) : (s.setCore c v).trig = s.trig := rfl

@[simp] theorem State.setQueue_now (s : State) (q : Nat) (v : Queue) : (s.setQueue q v).now = s.now := rfl
@[simp] theorem State.setQueue_cursor (s : State) (q : Nat) (v : Queue) : (s.setQueue q v).cursor = s.cursor := rfl
@[simp] theorem State.setQueue_tid (s : State) (q : Nat) (v : Queue) : (s.setQueue q v).tid = s.tid := rfl
@[simp] theorem State.setQueue_site (s : State) (q : Nat) (v : Queue) : (s.setQueue q v).site = s.site := rfl
@[simp] theorem State.setQueue_agenda (s : State) (q : Nat) (v : Queue) : (s.setQueue q v).agenda = s.agenda := rfl
@[simp] theorem State.setQueue_fresh (s : State) (q : Nat) (v : Queue) : (s.setQueue q v).fresh = s.fresh := rfl
@[simp] theorem State.setQueue_serial (s : State) (q : Nat) (v : Queue) : (s.setQueue q v).serial = s.serial := rfl
@[simp] theorem State.setQueue_mem (s : State) (q : Nat) (v : Queue) : (s.setQueue q v).mem = s.mem := rfl
@[simp] theorem State.setQueue_full (s : State) (q : Nat) (v : Queue) : (s.setQueue q v).full = s.full := rfl
@[simp] theorem State.setQueue_waits (s : State) (q : Nat) (v : Queue) : (s.setQueue q v).waits = s.waits := rfl
@[simp] theorem State.setQueue_slots (s : State) (q : Nat) (v : Queue) : (s.setQueue q v).slots = s.slots := rfl
@[simp] theorem State.setQueue_cores (s : State) (q : Nat) (v : Queue) : (s.setQueue q v).cores = s.cores := rfl
@[simp] theorem State.setQueue_spires (s : State) (q : Nat) (v : Queue) : (s.setQueue q v).spires = s.spires := rfl
@[simp] theorem State.setQueue_net (s : State) (q : Nat) (v : Queue) : (s.setQueue q v).net = s.net := rfl
@[simp] theorem State.setQueue_kills (s : State) (q : Nat) (v : Queue) : (s.setQueue q v).kills = s.kills := rfl
@[simp] theorem State.setQueue_answers (s : State) (q : Nat) (v : Queue) : (s.setQueue q v).answers = s.answers := rfl
@[simp] theorem State.setQueue_die0 (s : State) (q : Nat) (v : Queue) : (s.setQueue q v).die0 = s.die0 := rfl
@[simp] theorem State.setQueue_die1 (s : State) (q : Nat) (v : Queue) : (s.setQueue q v).die1 = s.die1 := rfl
@[simp] theorem State.setQueue_msix (s : State) (q : Nat) (v : Queue) : (s.setQueue q v).msix = s.msix := rfl
@[simp] theorem State.setQueue_barData (s : State) (q : Nat) (v : Queue) : (s.setQueue q v).barData = s.barData := rfl
@[simp] theorem State.setQueue_links (s : State) (q : Nat) (v : Queue) : (s.setQueue q v).links = s.links := rfl
@[simp] theorem State.setQueue_peerIn (s : State) (q : Nat) (v : Queue) : (s.setQueue q v).peerIn = s.peerIn := rfl
@[simp] theorem State.setQueue_peerOut (s : State) (q : Nat) (v : Queue) : (s.setQueue q v).peerOut = s.peerOut := rfl
@[simp] theorem State.setQueue_islands (s : State) (q : Nat) (v : Queue) : (s.setQueue q v).islands = s.islands := rfl
@[simp] theorem State.setQueue_ecc (s : State) (q : Nat) (v : Queue) : (s.setQueue q v).ecc = s.ecc := rfl
@[simp] theorem State.setQueue_bad (s : State) (q : Nat) (v : Queue) : (s.setQueue q v).bad = s.bad := rfl
@[simp] theorem State.setQueue_boots (s : State) (q : Nat) (v : Queue) : (s.setQueue q v).boots = s.boots := rfl
@[simp] theorem State.setQueue_leaf (s : State) (q : Nat) (v : Queue) : (s.setQueue q v).leaf = s.leaf := rfl
@[simp] theorem State.setQueue_dbgout (s : State) (q : Nat) (v : Queue) : (s.setQueue q v).dbgout = s.dbgout := rfl
@[simp] theorem State.setQueue_trig (s : State) (q : Nat) (v : Queue) : (s.setQueue q v).trig = s.trig := rfl

@[simp] theorem State.setIsland_now (s : State) (i : Nat) (v : Island) : (s.setIsland i v).now = s.now := rfl
@[simp] theorem State.setIsland_cursor (s : State) (i : Nat) (v : Island) : (s.setIsland i v).cursor = s.cursor := rfl
@[simp] theorem State.setIsland_tid (s : State) (i : Nat) (v : Island) : (s.setIsland i v).tid = s.tid := rfl
@[simp] theorem State.setIsland_site (s : State) (i : Nat) (v : Island) : (s.setIsland i v).site = s.site := rfl
@[simp] theorem State.setIsland_agenda (s : State) (i : Nat) (v : Island) : (s.setIsland i v).agenda = s.agenda := rfl
@[simp] theorem State.setIsland_fresh (s : State) (i : Nat) (v : Island) : (s.setIsland i v).fresh = s.fresh := rfl
@[simp] theorem State.setIsland_serial (s : State) (i : Nat) (v : Island) : (s.setIsland i v).serial = s.serial := rfl
@[simp] theorem State.setIsland_mem (s : State) (i : Nat) (v : Island) : (s.setIsland i v).mem = s.mem := rfl
@[simp] theorem State.setIsland_full (s : State) (i : Nat) (v : Island) : (s.setIsland i v).full = s.full := rfl
@[simp] theorem State.setIsland_waits (s : State) (i : Nat) (v : Island) : (s.setIsland i v).waits = s.waits := rfl
@[simp] theorem State.setIsland_slots (s : State) (i : Nat) (v : Island) : (s.setIsland i v).slots = s.slots := rfl
@[simp] theorem State.setIsland_cores (s : State) (i : Nat) (v : Island) : (s.setIsland i v).cores = s.cores := rfl
@[simp] theorem State.setIsland_spires (s : State) (i : Nat) (v : Island) : (s.setIsland i v).spires = s.spires := rfl
@[simp] theorem State.setIsland_net (s : State) (i : Nat) (v : Island) : (s.setIsland i v).net = s.net := rfl
@[simp] theorem State.setIsland_kills (s : State) (i : Nat) (v : Island) : (s.setIsland i v).kills = s.kills := rfl
@[simp] theorem State.setIsland_answers (s : State) (i : Nat) (v : Island) : (s.setIsland i v).answers = s.answers := rfl
@[simp] theorem State.setIsland_die0 (s : State) (i : Nat) (v : Island) : (s.setIsland i v).die0 = s.die0 := rfl
@[simp] theorem State.setIsland_die1 (s : State) (i : Nat) (v : Island) : (s.setIsland i v).die1 = s.die1 := rfl
@[simp] theorem State.setIsland_queues (s : State) (i : Nat) (v : Island) : (s.setIsland i v).queues = s.queues := rfl
@[simp] theorem State.setIsland_msix (s : State) (i : Nat) (v : Island) : (s.setIsland i v).msix = s.msix := rfl
@[simp] theorem State.setIsland_barData (s : State) (i : Nat) (v : Island) : (s.setIsland i v).barData = s.barData := rfl
@[simp] theorem State.setIsland_links (s : State) (i : Nat) (v : Island) : (s.setIsland i v).links = s.links := rfl
@[simp] theorem State.setIsland_peerIn (s : State) (i : Nat) (v : Island) : (s.setIsland i v).peerIn = s.peerIn := rfl
@[simp] theorem State.setIsland_peerOut (s : State) (i : Nat) (v : Island) : (s.setIsland i v).peerOut = s.peerOut := rfl
@[simp] theorem State.setIsland_ecc (s : State) (i : Nat) (v : Island) : (s.setIsland i v).ecc = s.ecc := rfl
@[simp] theorem State.setIsland_bad (s : State) (i : Nat) (v : Island) : (s.setIsland i v).bad = s.bad := rfl
@[simp] theorem State.setIsland_boots (s : State) (i : Nat) (v : Island) : (s.setIsland i v).boots = s.boots := rfl
@[simp] theorem State.setIsland_leaf (s : State) (i : Nat) (v : Island) : (s.setIsland i v).leaf = s.leaf := rfl
@[simp] theorem State.setIsland_dbgout (s : State) (i : Nat) (v : Island) : (s.setIsland i v).dbgout = s.dbgout := rfl
@[simp] theorem State.setIsland_trig (s : State) (i : Nat) (v : Island) : (s.setIsland i v).trig = s.trig := rfl

@[simp] theorem State.homeWrite_now (s : State) (k : Nat) (bs : List Byte) : (s.homeWrite k bs).now = s.now := rfl
@[simp] theorem State.homeWrite_cursor (s : State) (k : Nat) (bs : List Byte) : (s.homeWrite k bs).cursor = s.cursor := rfl
@[simp] theorem State.homeWrite_tid (s : State) (k : Nat) (bs : List Byte) : (s.homeWrite k bs).tid = s.tid := rfl
@[simp] theorem State.homeWrite_site (s : State) (k : Nat) (bs : List Byte) : (s.homeWrite k bs).site = s.site := rfl
@[simp] theorem State.homeWrite_agenda (s : State) (k : Nat) (bs : List Byte) : (s.homeWrite k bs).agenda = s.agenda := rfl
@[simp] theorem State.homeWrite_fresh (s : State) (k : Nat) (bs : List Byte) : (s.homeWrite k bs).fresh = s.fresh := rfl
@[simp] theorem State.homeWrite_serial (s : State) (k : Nat) (bs : List Byte) : (s.homeWrite k bs).serial = s.serial := rfl
@[simp] theorem State.homeWrite_full (s : State) (k : Nat) (bs : List Byte) : (s.homeWrite k bs).full = s.full := rfl
@[simp] theorem State.homeWrite_waits (s : State) (k : Nat) (bs : List Byte) : (s.homeWrite k bs).waits = s.waits := rfl
@[simp] theorem State.homeWrite_slots (s : State) (k : Nat) (bs : List Byte) : (s.homeWrite k bs).slots = s.slots := rfl
@[simp] theorem State.homeWrite_cores (s : State) (k : Nat) (bs : List Byte) : (s.homeWrite k bs).cores = s.cores := rfl
@[simp] theorem State.homeWrite_spires (s : State) (k : Nat) (bs : List Byte) : (s.homeWrite k bs).spires = s.spires := rfl
@[simp] theorem State.homeWrite_net (s : State) (k : Nat) (bs : List Byte) : (s.homeWrite k bs).net = s.net := rfl
@[simp] theorem State.homeWrite_kills (s : State) (k : Nat) (bs : List Byte) : (s.homeWrite k bs).kills = s.kills := rfl
@[simp] theorem State.homeWrite_answers (s : State) (k : Nat) (bs : List Byte) : (s.homeWrite k bs).answers = s.answers := rfl
@[simp] theorem State.homeWrite_die0 (s : State) (k : Nat) (bs : List Byte) : (s.homeWrite k bs).die0 = s.die0 := rfl
@[simp] theorem State.homeWrite_die1 (s : State) (k : Nat) (bs : List Byte) : (s.homeWrite k bs).die1 = s.die1 := rfl
@[simp] theorem State.homeWrite_queues (s : State) (k : Nat) (bs : List Byte) : (s.homeWrite k bs).queues = s.queues := rfl
@[simp] theorem State.homeWrite_msix (s : State) (k : Nat) (bs : List Byte) : (s.homeWrite k bs).msix = s.msix := rfl
@[simp] theorem State.homeWrite_barData (s : State) (k : Nat) (bs : List Byte) : (s.homeWrite k bs).barData = s.barData := rfl
@[simp] theorem State.homeWrite_links (s : State) (k : Nat) (bs : List Byte) : (s.homeWrite k bs).links = s.links := rfl
@[simp] theorem State.homeWrite_peerIn (s : State) (k : Nat) (bs : List Byte) : (s.homeWrite k bs).peerIn = s.peerIn := rfl
@[simp] theorem State.homeWrite_peerOut (s : State) (k : Nat) (bs : List Byte) : (s.homeWrite k bs).peerOut = s.peerOut := rfl
@[simp] theorem State.homeWrite_islands (s : State) (k : Nat) (bs : List Byte) : (s.homeWrite k bs).islands = s.islands := rfl
@[simp] theorem State.homeWrite_ecc (s : State) (k : Nat) (bs : List Byte) : (s.homeWrite k bs).ecc = s.ecc := rfl
@[simp] theorem State.homeWrite_bad (s : State) (k : Nat) (bs : List Byte) : (s.homeWrite k bs).bad = s.bad := rfl
@[simp] theorem State.homeWrite_boots (s : State) (k : Nat) (bs : List Byte) : (s.homeWrite k bs).boots = s.boots := rfl
@[simp] theorem State.homeWrite_leaf (s : State) (k : Nat) (bs : List Byte) : (s.homeWrite k bs).leaf = s.leaf := rfl
@[simp] theorem State.homeWrite_dbgout (s : State) (k : Nat) (bs : List Byte) : (s.homeWrite k bs).dbgout = s.dbgout := rfl
@[simp] theorem State.homeWrite_trig (s : State) (k : Nat) (bs : List Byte) : (s.homeWrite k bs).trig = s.trig := rfl

@[simp] theorem State.setFull_now (s : State) (k : Nat) (f : Bool) : (s.setFull k f).now = s.now := rfl
@[simp] theorem State.setFull_cursor (s : State) (k : Nat) (f : Bool) : (s.setFull k f).cursor = s.cursor := rfl
@[simp] theorem State.setFull_tid (s : State) (k : Nat) (f : Bool) : (s.setFull k f).tid = s.tid := rfl
@[simp] theorem State.setFull_site (s : State) (k : Nat) (f : Bool) : (s.setFull k f).site = s.site := rfl
@[simp] theorem State.setFull_agenda (s : State) (k : Nat) (f : Bool) : (s.setFull k f).agenda = s.agenda := rfl
@[simp] theorem State.setFull_fresh (s : State) (k : Nat) (f : Bool) : (s.setFull k f).fresh = s.fresh := rfl
@[simp] theorem State.setFull_serial (s : State) (k : Nat) (f : Bool) : (s.setFull k f).serial = s.serial := rfl
@[simp] theorem State.setFull_mem (s : State) (k : Nat) (f : Bool) : (s.setFull k f).mem = s.mem := rfl
@[simp] theorem State.setFull_waits (s : State) (k : Nat) (f : Bool) : (s.setFull k f).waits = s.waits := rfl
@[simp] theorem State.setFull_slots (s : State) (k : Nat) (f : Bool) : (s.setFull k f).slots = s.slots := rfl
@[simp] theorem State.setFull_cores (s : State) (k : Nat) (f : Bool) : (s.setFull k f).cores = s.cores := rfl
@[simp] theorem State.setFull_spires (s : State) (k : Nat) (f : Bool) : (s.setFull k f).spires = s.spires := rfl
@[simp] theorem State.setFull_net (s : State) (k : Nat) (f : Bool) : (s.setFull k f).net = s.net := rfl
@[simp] theorem State.setFull_kills (s : State) (k : Nat) (f : Bool) : (s.setFull k f).kills = s.kills := rfl
@[simp] theorem State.setFull_answers (s : State) (k : Nat) (f : Bool) : (s.setFull k f).answers = s.answers := rfl
@[simp] theorem State.setFull_die0 (s : State) (k : Nat) (f : Bool) : (s.setFull k f).die0 = s.die0 := rfl
@[simp] theorem State.setFull_die1 (s : State) (k : Nat) (f : Bool) : (s.setFull k f).die1 = s.die1 := rfl
@[simp] theorem State.setFull_queues (s : State) (k : Nat) (f : Bool) : (s.setFull k f).queues = s.queues := rfl
@[simp] theorem State.setFull_msix (s : State) (k : Nat) (f : Bool) : (s.setFull k f).msix = s.msix := rfl
@[simp] theorem State.setFull_barData (s : State) (k : Nat) (f : Bool) : (s.setFull k f).barData = s.barData := rfl
@[simp] theorem State.setFull_links (s : State) (k : Nat) (f : Bool) : (s.setFull k f).links = s.links := rfl
@[simp] theorem State.setFull_peerIn (s : State) (k : Nat) (f : Bool) : (s.setFull k f).peerIn = s.peerIn := rfl
@[simp] theorem State.setFull_peerOut (s : State) (k : Nat) (f : Bool) : (s.setFull k f).peerOut = s.peerOut := rfl
@[simp] theorem State.setFull_islands (s : State) (k : Nat) (f : Bool) : (s.setFull k f).islands = s.islands := rfl
@[simp] theorem State.setFull_ecc (s : State) (k : Nat) (f : Bool) : (s.setFull k f).ecc = s.ecc := rfl
@[simp] theorem State.setFull_bad (s : State) (k : Nat) (f : Bool) : (s.setFull k f).bad = s.bad := rfl
@[simp] theorem State.setFull_boots (s : State) (k : Nat) (f : Bool) : (s.setFull k f).boots = s.boots := rfl
@[simp] theorem State.setFull_leaf (s : State) (k : Nat) (f : Bool) : (s.setFull k f).leaf = s.leaf := rfl
@[simp] theorem State.setFull_dbgout (s : State) (k : Nat) (f : Bool) : (s.setFull k f).dbgout = s.dbgout := rfl
@[simp] theorem State.setFull_trig (s : State) (k : Nat) (f : Bool) : (s.setFull k f).trig = s.trig := rfl

@[simp] theorem State.setDie_now (s : State) (d : Nat) (v : Die) : (s.setDie d v).now = s.now := by unfold State.setDie; split <;> rfl
@[simp] theorem State.setDie_cursor (s : State) (d : Nat) (v : Die) : (s.setDie d v).cursor = s.cursor := by unfold State.setDie; split <;> rfl
@[simp] theorem State.setDie_tid (s : State) (d : Nat) (v : Die) : (s.setDie d v).tid = s.tid := by unfold State.setDie; split <;> rfl
@[simp] theorem State.setDie_site (s : State) (d : Nat) (v : Die) : (s.setDie d v).site = s.site := by unfold State.setDie; split <;> rfl
@[simp] theorem State.setDie_agenda (s : State) (d : Nat) (v : Die) : (s.setDie d v).agenda = s.agenda := by unfold State.setDie; split <;> rfl
@[simp] theorem State.setDie_fresh (s : State) (d : Nat) (v : Die) : (s.setDie d v).fresh = s.fresh := by unfold State.setDie; split <;> rfl
@[simp] theorem State.setDie_serial (s : State) (d : Nat) (v : Die) : (s.setDie d v).serial = s.serial := by unfold State.setDie; split <;> rfl
@[simp] theorem State.setDie_mem (s : State) (d : Nat) (v : Die) : (s.setDie d v).mem = s.mem := by unfold State.setDie; split <;> rfl
@[simp] theorem State.setDie_full (s : State) (d : Nat) (v : Die) : (s.setDie d v).full = s.full := by unfold State.setDie; split <;> rfl
@[simp] theorem State.setDie_waits (s : State) (d : Nat) (v : Die) : (s.setDie d v).waits = s.waits := by unfold State.setDie; split <;> rfl
@[simp] theorem State.setDie_slots (s : State) (d : Nat) (v : Die) : (s.setDie d v).slots = s.slots := by unfold State.setDie; split <;> rfl
@[simp] theorem State.setDie_cores (s : State) (d : Nat) (v : Die) : (s.setDie d v).cores = s.cores := by unfold State.setDie; split <;> rfl
@[simp] theorem State.setDie_spires (s : State) (d : Nat) (v : Die) : (s.setDie d v).spires = s.spires := by unfold State.setDie; split <;> rfl
@[simp] theorem State.setDie_net (s : State) (d : Nat) (v : Die) : (s.setDie d v).net = s.net := by unfold State.setDie; split <;> rfl
@[simp] theorem State.setDie_kills (s : State) (d : Nat) (v : Die) : (s.setDie d v).kills = s.kills := by unfold State.setDie; split <;> rfl
@[simp] theorem State.setDie_answers (s : State) (d : Nat) (v : Die) : (s.setDie d v).answers = s.answers := by unfold State.setDie; split <;> rfl
@[simp] theorem State.setDie_queues (s : State) (d : Nat) (v : Die) : (s.setDie d v).queues = s.queues := by unfold State.setDie; split <;> rfl
@[simp] theorem State.setDie_msix (s : State) (d : Nat) (v : Die) : (s.setDie d v).msix = s.msix := by unfold State.setDie; split <;> rfl
@[simp] theorem State.setDie_barData (s : State) (d : Nat) (v : Die) : (s.setDie d v).barData = s.barData := by unfold State.setDie; split <;> rfl
@[simp] theorem State.setDie_links (s : State) (d : Nat) (v : Die) : (s.setDie d v).links = s.links := by unfold State.setDie; split <;> rfl
@[simp] theorem State.setDie_peerIn (s : State) (d : Nat) (v : Die) : (s.setDie d v).peerIn = s.peerIn := by unfold State.setDie; split <;> rfl
@[simp] theorem State.setDie_peerOut (s : State) (d : Nat) (v : Die) : (s.setDie d v).peerOut = s.peerOut := by unfold State.setDie; split <;> rfl
@[simp] theorem State.setDie_islands (s : State) (d : Nat) (v : Die) : (s.setDie d v).islands = s.islands := by unfold State.setDie; split <;> rfl
@[simp] theorem State.setDie_ecc (s : State) (d : Nat) (v : Die) : (s.setDie d v).ecc = s.ecc := by unfold State.setDie; split <;> rfl
@[simp] theorem State.setDie_bad (s : State) (d : Nat) (v : Die) : (s.setDie d v).bad = s.bad := by unfold State.setDie; split <;> rfl
@[simp] theorem State.setDie_boots (s : State) (d : Nat) (v : Die) : (s.setDie d v).boots = s.boots := by unfold State.setDie; split <;> rfl
@[simp] theorem State.setDie_leaf (s : State) (d : Nat) (v : Die) : (s.setDie d v).leaf = s.leaf := by unfold State.setDie; split <;> rfl
@[simp] theorem State.setDie_dbgout (s : State) (d : Nat) (v : Die) : (s.setDie d v).dbgout = s.dbgout := by unfold State.setDie; split <;> rfl
@[simp] theorem State.setDie_trig (s : State) (d : Nat) (v : Die) : (s.setDie d v).trig = s.trig := by unfold State.setDie; split <;> rfl

@[simp] theorem State.advance_now (s : State) : (s.advance).now = s.now := rfl
@[simp] theorem State.advance_cursor (s : State) : (s.advance).cursor = s.cursor := rfl
@[simp] theorem State.advance_tid (s : State) : (s.advance).tid = s.tid := rfl
@[simp] theorem State.advance_site (s : State) : (s.advance).site = s.site := rfl
@[simp] theorem State.advance_agenda (s : State) : (s.advance).agenda = s.agenda := rfl
@[simp] theorem State.advance_fresh (s : State) : (s.advance).fresh = s.fresh := rfl
@[simp] theorem State.advance_serial (s : State) : (s.advance).serial = s.serial := rfl
@[simp] theorem State.advance_mem (s : State) : (s.advance).mem = s.mem := rfl
@[simp] theorem State.advance_full (s : State) : (s.advance).full = s.full := rfl
@[simp] theorem State.advance_waits (s : State) : (s.advance).waits = s.waits := rfl
@[simp] theorem State.advance_cores (s : State) : (s.advance).cores = s.cores := rfl
@[simp] theorem State.advance_spires (s : State) : (s.advance).spires = s.spires := rfl
@[simp] theorem State.advance_net (s : State) : (s.advance).net = s.net := rfl
@[simp] theorem State.advance_kills (s : State) : (s.advance).kills = s.kills := rfl
@[simp] theorem State.advance_answers (s : State) : (s.advance).answers = s.answers := rfl
@[simp] theorem State.advance_die0 (s : State) : (s.advance).die0 = s.die0 := rfl
@[simp] theorem State.advance_die1 (s : State) : (s.advance).die1 = s.die1 := rfl
@[simp] theorem State.advance_queues (s : State) : (s.advance).queues = s.queues := rfl
@[simp] theorem State.advance_msix (s : State) : (s.advance).msix = s.msix := rfl
@[simp] theorem State.advance_barData (s : State) : (s.advance).barData = s.barData := rfl
@[simp] theorem State.advance_links (s : State) : (s.advance).links = s.links := rfl
@[simp] theorem State.advance_peerIn (s : State) : (s.advance).peerIn = s.peerIn := rfl
@[simp] theorem State.advance_peerOut (s : State) : (s.advance).peerOut = s.peerOut := rfl
@[simp] theorem State.advance_islands (s : State) : (s.advance).islands = s.islands := rfl
@[simp] theorem State.advance_ecc (s : State) : (s.advance).ecc = s.ecc := rfl
@[simp] theorem State.advance_bad (s : State) : (s.advance).bad = s.bad := rfl
@[simp] theorem State.advance_boots (s : State) : (s.advance).boots = s.boots := rfl
@[simp] theorem State.advance_leaf (s : State) : (s.advance).leaf = s.leaf := rfl
@[simp] theorem State.advance_dbgout (s : State) : (s.advance).dbgout = s.dbgout := rfl
@[simp] theorem State.advance_trig (s : State) : (s.advance).trig = s.trig := rfl

@[simp] theorem State.retX_now (s : State) (r : Reg) (w : Word) : (s.retX r w).now = s.now := rfl
@[simp] theorem State.retX_cursor (s : State) (r : Reg) (w : Word) : (s.retX r w).cursor = s.cursor := rfl
@[simp] theorem State.retX_tid (s : State) (r : Reg) (w : Word) : (s.retX r w).tid = s.tid := rfl
@[simp] theorem State.retX_site (s : State) (r : Reg) (w : Word) : (s.retX r w).site = s.site := rfl
@[simp] theorem State.retX_agenda (s : State) (r : Reg) (w : Word) : (s.retX r w).agenda = s.agenda := rfl
@[simp] theorem State.retX_fresh (s : State) (r : Reg) (w : Word) : (s.retX r w).fresh = s.fresh := rfl
@[simp] theorem State.retX_serial (s : State) (r : Reg) (w : Word) : (s.retX r w).serial = s.serial := rfl
@[simp] theorem State.retX_mem (s : State) (r : Reg) (w : Word) : (s.retX r w).mem = s.mem := rfl
@[simp] theorem State.retX_full (s : State) (r : Reg) (w : Word) : (s.retX r w).full = s.full := rfl
@[simp] theorem State.retX_waits (s : State) (r : Reg) (w : Word) : (s.retX r w).waits = s.waits := rfl
@[simp] theorem State.retX_cores (s : State) (r : Reg) (w : Word) : (s.retX r w).cores = s.cores := rfl
@[simp] theorem State.retX_spires (s : State) (r : Reg) (w : Word) : (s.retX r w).spires = s.spires := rfl
@[simp] theorem State.retX_net (s : State) (r : Reg) (w : Word) : (s.retX r w).net = s.net := rfl
@[simp] theorem State.retX_kills (s : State) (r : Reg) (w : Word) : (s.retX r w).kills = s.kills := rfl
@[simp] theorem State.retX_answers (s : State) (r : Reg) (w : Word) : (s.retX r w).answers = s.answers := rfl
@[simp] theorem State.retX_die0 (s : State) (r : Reg) (w : Word) : (s.retX r w).die0 = s.die0 := rfl
@[simp] theorem State.retX_die1 (s : State) (r : Reg) (w : Word) : (s.retX r w).die1 = s.die1 := rfl
@[simp] theorem State.retX_queues (s : State) (r : Reg) (w : Word) : (s.retX r w).queues = s.queues := rfl
@[simp] theorem State.retX_msix (s : State) (r : Reg) (w : Word) : (s.retX r w).msix = s.msix := rfl
@[simp] theorem State.retX_barData (s : State) (r : Reg) (w : Word) : (s.retX r w).barData = s.barData := rfl
@[simp] theorem State.retX_links (s : State) (r : Reg) (w : Word) : (s.retX r w).links = s.links := rfl
@[simp] theorem State.retX_peerIn (s : State) (r : Reg) (w : Word) : (s.retX r w).peerIn = s.peerIn := rfl
@[simp] theorem State.retX_peerOut (s : State) (r : Reg) (w : Word) : (s.retX r w).peerOut = s.peerOut := rfl
@[simp] theorem State.retX_islands (s : State) (r : Reg) (w : Word) : (s.retX r w).islands = s.islands := rfl
@[simp] theorem State.retX_ecc (s : State) (r : Reg) (w : Word) : (s.retX r w).ecc = s.ecc := rfl
@[simp] theorem State.retX_bad (s : State) (r : Reg) (w : Word) : (s.retX r w).bad = s.bad := rfl
@[simp] theorem State.retX_boots (s : State) (r : Reg) (w : Word) : (s.retX r w).boots = s.boots := rfl
@[simp] theorem State.retX_leaf (s : State) (r : Reg) (w : Word) : (s.retX r w).leaf = s.leaf := rfl
@[simp] theorem State.retX_dbgout (s : State) (r : Reg) (w : Word) : (s.retX r w).dbgout = s.dbgout := rfl
@[simp] theorem State.retX_trig (s : State) (r : Reg) (w : Word) : (s.retX r w).trig = s.trig := rfl

@[simp] theorem State.retP_now (s : State) (p : PReg) (b : Bool) : (s.retP p b).now = s.now := rfl
@[simp] theorem State.retP_cursor (s : State) (p : PReg) (b : Bool) : (s.retP p b).cursor = s.cursor := rfl
@[simp] theorem State.retP_tid (s : State) (p : PReg) (b : Bool) : (s.retP p b).tid = s.tid := rfl
@[simp] theorem State.retP_site (s : State) (p : PReg) (b : Bool) : (s.retP p b).site = s.site := rfl
@[simp] theorem State.retP_agenda (s : State) (p : PReg) (b : Bool) : (s.retP p b).agenda = s.agenda := rfl
@[simp] theorem State.retP_fresh (s : State) (p : PReg) (b : Bool) : (s.retP p b).fresh = s.fresh := rfl
@[simp] theorem State.retP_serial (s : State) (p : PReg) (b : Bool) : (s.retP p b).serial = s.serial := rfl
@[simp] theorem State.retP_mem (s : State) (p : PReg) (b : Bool) : (s.retP p b).mem = s.mem := rfl
@[simp] theorem State.retP_full (s : State) (p : PReg) (b : Bool) : (s.retP p b).full = s.full := rfl
@[simp] theorem State.retP_waits (s : State) (p : PReg) (b : Bool) : (s.retP p b).waits = s.waits := rfl
@[simp] theorem State.retP_cores (s : State) (p : PReg) (b : Bool) : (s.retP p b).cores = s.cores := rfl
@[simp] theorem State.retP_spires (s : State) (p : PReg) (b : Bool) : (s.retP p b).spires = s.spires := rfl
@[simp] theorem State.retP_net (s : State) (p : PReg) (b : Bool) : (s.retP p b).net = s.net := rfl
@[simp] theorem State.retP_kills (s : State) (p : PReg) (b : Bool) : (s.retP p b).kills = s.kills := rfl
@[simp] theorem State.retP_answers (s : State) (p : PReg) (b : Bool) : (s.retP p b).answers = s.answers := rfl
@[simp] theorem State.retP_die0 (s : State) (p : PReg) (b : Bool) : (s.retP p b).die0 = s.die0 := rfl
@[simp] theorem State.retP_die1 (s : State) (p : PReg) (b : Bool) : (s.retP p b).die1 = s.die1 := rfl
@[simp] theorem State.retP_queues (s : State) (p : PReg) (b : Bool) : (s.retP p b).queues = s.queues := rfl
@[simp] theorem State.retP_msix (s : State) (p : PReg) (b : Bool) : (s.retP p b).msix = s.msix := rfl
@[simp] theorem State.retP_barData (s : State) (p : PReg) (b : Bool) : (s.retP p b).barData = s.barData := rfl
@[simp] theorem State.retP_links (s : State) (p : PReg) (b : Bool) : (s.retP p b).links = s.links := rfl
@[simp] theorem State.retP_peerIn (s : State) (p : PReg) (b : Bool) : (s.retP p b).peerIn = s.peerIn := rfl
@[simp] theorem State.retP_peerOut (s : State) (p : PReg) (b : Bool) : (s.retP p b).peerOut = s.peerOut := rfl
@[simp] theorem State.retP_islands (s : State) (p : PReg) (b : Bool) : (s.retP p b).islands = s.islands := rfl
@[simp] theorem State.retP_ecc (s : State) (p : PReg) (b : Bool) : (s.retP p b).ecc = s.ecc := rfl
@[simp] theorem State.retP_bad (s : State) (p : PReg) (b : Bool) : (s.retP p b).bad = s.bad := rfl
@[simp] theorem State.retP_boots (s : State) (p : PReg) (b : Bool) : (s.retP p b).boots = s.boots := rfl
@[simp] theorem State.retP_leaf (s : State) (p : PReg) (b : Bool) : (s.retP p b).leaf = s.leaf := rfl
@[simp] theorem State.retP_dbgout (s : State) (p : PReg) (b : Bool) : (s.retP p b).dbgout = s.dbgout := rfl
@[simp] theorem State.retP_trig (s : State) (p : PReg) (b : Bool) : (s.retP p b).trig = s.trig := rfl

@[simp] theorem State.retPair_now (s : State) (r : Reg) (lo hi : Word) : (s.retPair r lo hi).now = s.now := rfl
@[simp] theorem State.retPair_cursor (s : State) (r : Reg) (lo hi : Word) : (s.retPair r lo hi).cursor = s.cursor := rfl
@[simp] theorem State.retPair_tid (s : State) (r : Reg) (lo hi : Word) : (s.retPair r lo hi).tid = s.tid := rfl
@[simp] theorem State.retPair_site (s : State) (r : Reg) (lo hi : Word) : (s.retPair r lo hi).site = s.site := rfl
@[simp] theorem State.retPair_agenda (s : State) (r : Reg) (lo hi : Word) : (s.retPair r lo hi).agenda = s.agenda := rfl
@[simp] theorem State.retPair_fresh (s : State) (r : Reg) (lo hi : Word) : (s.retPair r lo hi).fresh = s.fresh := rfl
@[simp] theorem State.retPair_serial (s : State) (r : Reg) (lo hi : Word) : (s.retPair r lo hi).serial = s.serial := rfl
@[simp] theorem State.retPair_mem (s : State) (r : Reg) (lo hi : Word) : (s.retPair r lo hi).mem = s.mem := rfl
@[simp] theorem State.retPair_full (s : State) (r : Reg) (lo hi : Word) : (s.retPair r lo hi).full = s.full := rfl
@[simp] theorem State.retPair_waits (s : State) (r : Reg) (lo hi : Word) : (s.retPair r lo hi).waits = s.waits := rfl
@[simp] theorem State.retPair_cores (s : State) (r : Reg) (lo hi : Word) : (s.retPair r lo hi).cores = s.cores := rfl
@[simp] theorem State.retPair_spires (s : State) (r : Reg) (lo hi : Word) : (s.retPair r lo hi).spires = s.spires := rfl
@[simp] theorem State.retPair_net (s : State) (r : Reg) (lo hi : Word) : (s.retPair r lo hi).net = s.net := rfl
@[simp] theorem State.retPair_kills (s : State) (r : Reg) (lo hi : Word) : (s.retPair r lo hi).kills = s.kills := rfl
@[simp] theorem State.retPair_answers (s : State) (r : Reg) (lo hi : Word) : (s.retPair r lo hi).answers = s.answers := rfl
@[simp] theorem State.retPair_die0 (s : State) (r : Reg) (lo hi : Word) : (s.retPair r lo hi).die0 = s.die0 := rfl
@[simp] theorem State.retPair_die1 (s : State) (r : Reg) (lo hi : Word) : (s.retPair r lo hi).die1 = s.die1 := rfl
@[simp] theorem State.retPair_queues (s : State) (r : Reg) (lo hi : Word) : (s.retPair r lo hi).queues = s.queues := rfl
@[simp] theorem State.retPair_msix (s : State) (r : Reg) (lo hi : Word) : (s.retPair r lo hi).msix = s.msix := rfl
@[simp] theorem State.retPair_barData (s : State) (r : Reg) (lo hi : Word) : (s.retPair r lo hi).barData = s.barData := rfl
@[simp] theorem State.retPair_links (s : State) (r : Reg) (lo hi : Word) : (s.retPair r lo hi).links = s.links := rfl
@[simp] theorem State.retPair_peerIn (s : State) (r : Reg) (lo hi : Word) : (s.retPair r lo hi).peerIn = s.peerIn := rfl
@[simp] theorem State.retPair_peerOut (s : State) (r : Reg) (lo hi : Word) : (s.retPair r lo hi).peerOut = s.peerOut := rfl
@[simp] theorem State.retPair_islands (s : State) (r : Reg) (lo hi : Word) : (s.retPair r lo hi).islands = s.islands := rfl
@[simp] theorem State.retPair_ecc (s : State) (r : Reg) (lo hi : Word) : (s.retPair r lo hi).ecc = s.ecc := rfl
@[simp] theorem State.retPair_bad (s : State) (r : Reg) (lo hi : Word) : (s.retPair r lo hi).bad = s.bad := rfl
@[simp] theorem State.retPair_boots (s : State) (r : Reg) (lo hi : Word) : (s.retPair r lo hi).boots = s.boots := rfl
@[simp] theorem State.retPair_leaf (s : State) (r : Reg) (lo hi : Word) : (s.retPair r lo hi).leaf = s.leaf := rfl
@[simp] theorem State.retPair_dbgout (s : State) (r : Reg) (lo hi : Word) : (s.retPair r lo hi).dbgout = s.dbgout := rfl
@[simp] theorem State.retPair_trig (s : State) (r : Reg) (lo hi : Word) : (s.retPair r lo hi).trig = s.trig := rfl

@[simp] theorem State.parkAt_now (s : State) (t : Nat) (r : Reason) (op : ParkOp) : (s.parkAt t r op).now = s.now := rfl
@[simp] theorem State.parkAt_cursor (s : State) (t : Nat) (r : Reason) (op : ParkOp) : (s.parkAt t r op).cursor = s.cursor := rfl
@[simp] theorem State.parkAt_tid (s : State) (t : Nat) (r : Reason) (op : ParkOp) : (s.parkAt t r op).tid = s.tid := rfl
@[simp] theorem State.parkAt_site (s : State) (t : Nat) (r : Reason) (op : ParkOp) : (s.parkAt t r op).site = s.site := rfl
@[simp] theorem State.parkAt_agenda (s : State) (t : Nat) (r : Reason) (op : ParkOp) : (s.parkAt t r op).agenda = s.agenda := rfl
@[simp] theorem State.parkAt_fresh (s : State) (t : Nat) (r : Reason) (op : ParkOp) : (s.parkAt t r op).fresh = s.fresh := rfl
@[simp] theorem State.parkAt_serial (s : State) (t : Nat) (r : Reason) (op : ParkOp) : (s.parkAt t r op).serial = s.serial := rfl
@[simp] theorem State.parkAt_mem (s : State) (t : Nat) (r : Reason) (op : ParkOp) : (s.parkAt t r op).mem = s.mem := rfl
@[simp] theorem State.parkAt_full (s : State) (t : Nat) (r : Reason) (op : ParkOp) : (s.parkAt t r op).full = s.full := rfl
@[simp] theorem State.parkAt_waits (s : State) (t : Nat) (r : Reason) (op : ParkOp) : (s.parkAt t r op).waits = s.waits := rfl
@[simp] theorem State.parkAt_cores (s : State) (t : Nat) (r : Reason) (op : ParkOp) : (s.parkAt t r op).cores = s.cores := rfl
@[simp] theorem State.parkAt_spires (s : State) (t : Nat) (r : Reason) (op : ParkOp) : (s.parkAt t r op).spires = s.spires := rfl
@[simp] theorem State.parkAt_net (s : State) (t : Nat) (r : Reason) (op : ParkOp) : (s.parkAt t r op).net = s.net := rfl
@[simp] theorem State.parkAt_kills (s : State) (t : Nat) (r : Reason) (op : ParkOp) : (s.parkAt t r op).kills = s.kills := rfl
@[simp] theorem State.parkAt_answers (s : State) (t : Nat) (r : Reason) (op : ParkOp) : (s.parkAt t r op).answers = s.answers := rfl
@[simp] theorem State.parkAt_die0 (s : State) (t : Nat) (r : Reason) (op : ParkOp) : (s.parkAt t r op).die0 = s.die0 := rfl
@[simp] theorem State.parkAt_die1 (s : State) (t : Nat) (r : Reason) (op : ParkOp) : (s.parkAt t r op).die1 = s.die1 := rfl
@[simp] theorem State.parkAt_queues (s : State) (t : Nat) (r : Reason) (op : ParkOp) : (s.parkAt t r op).queues = s.queues := rfl
@[simp] theorem State.parkAt_msix (s : State) (t : Nat) (r : Reason) (op : ParkOp) : (s.parkAt t r op).msix = s.msix := rfl
@[simp] theorem State.parkAt_barData (s : State) (t : Nat) (r : Reason) (op : ParkOp) : (s.parkAt t r op).barData = s.barData := rfl
@[simp] theorem State.parkAt_links (s : State) (t : Nat) (r : Reason) (op : ParkOp) : (s.parkAt t r op).links = s.links := rfl
@[simp] theorem State.parkAt_peerIn (s : State) (t : Nat) (r : Reason) (op : ParkOp) : (s.parkAt t r op).peerIn = s.peerIn := rfl
@[simp] theorem State.parkAt_peerOut (s : State) (t : Nat) (r : Reason) (op : ParkOp) : (s.parkAt t r op).peerOut = s.peerOut := rfl
@[simp] theorem State.parkAt_islands (s : State) (t : Nat) (r : Reason) (op : ParkOp) : (s.parkAt t r op).islands = s.islands := rfl
@[simp] theorem State.parkAt_ecc (s : State) (t : Nat) (r : Reason) (op : ParkOp) : (s.parkAt t r op).ecc = s.ecc := rfl
@[simp] theorem State.parkAt_bad (s : State) (t : Nat) (r : Reason) (op : ParkOp) : (s.parkAt t r op).bad = s.bad := rfl
@[simp] theorem State.parkAt_boots (s : State) (t : Nat) (r : Reason) (op : ParkOp) : (s.parkAt t r op).boots = s.boots := rfl
@[simp] theorem State.parkAt_leaf (s : State) (t : Nat) (r : Reason) (op : ParkOp) : (s.parkAt t r op).leaf = s.leaf := rfl
@[simp] theorem State.parkAt_dbgout (s : State) (t : Nat) (r : Reason) (op : ParkOp) : (s.parkAt t r op).dbgout = s.dbgout := rfl
@[simp] theorem State.parkAt_trig (s : State) (t : Nat) (r : Reason) (op : ParkOp) : (s.parkAt t r op).trig = s.trig := rfl

@[simp] theorem Slot.setX_st (v : Slot) (r : Reg) (w : Word) : (v.setX r w).st = v.st := by unfold Slot.setX; split <;> rfl
@[simp] theorem Slot.setX_held (v : Slot) (r : Reg) (w : Word) : (v.setX r w).held = v.held := by unfold Slot.setX; split <;> rfl
@[simp] theorem Slot.setX_gen (v : Slot) (r : Reg) (w : Word) : (v.setX r w).gen = v.gen := by unfold Slot.setX; split <;> rfl
@[simp] theorem Slot.setX_pc (v : Slot) (r : Reg) (w : Word) : (v.setX r w).pc = v.pc := by unfold Slot.setX; split <;> rfl
@[simp] theorem Slot.setX_p (v : Slot) (r : Reg) (w : Word) : (v.setX r w).p = v.p := by unfold Slot.setX; split <;> rfl
@[simp] theorem Slot.setX_rm (v : Slot) (r : Reg) (w : Word) : (v.setX r w).rm = v.rm := by unfold Slot.setX; split <;> rfl
@[simp] theorem Slot.setX_en (v : Slot) (r : Reg) (w : Word) : (v.setX r w).en = v.en := by unfold Slot.setX; split <;> rfl
@[simp] theorem Slot.setX_fl (v : Slot) (r : Reg) (w : Word) : (v.setX r w).fl = v.fl := by unfold Slot.setX; split <;> rfl
@[simp] theorem Slot.setX_drops (v : Slot) (r : Reg) (w : Word) : (v.setX r w).drops = v.drops := by unfold Slot.setX; split <;> rfl
@[simp] theorem Slot.setX_sBad (v : Slot) (r : Reg) (w : Word) : (v.setX r w).sBad = v.sBad := by unfold Slot.setX; split <;> rfl
@[simp] theorem Slot.setX_sRef (v : Slot) (r : Reg) (w : Word) : (v.setX r w).sRef = v.sRef := by unfold Slot.setX; split <;> rfl
@[simp] theorem Slot.setX_sStale (v : Slot) (r : Reg) (w : Word) : (v.setX r w).sStale = v.sStale := by unfold Slot.setX; split <;> rfl
@[simp] theorem Slot.setX_wSlp (v : Slot) (r : Reg) (w : Word) : (v.setX r w).wSlp = v.wSlp := by unfold Slot.setX; split <;> rfl
@[simp] theorem Slot.setX_wFired (v : Slot) (r : Reg) (w : Word) : (v.setX r w).wFired = v.wFired := by unfold Slot.setX; split <;> rfl
@[simp] theorem Slot.setX_wLimit (v : Slot) (r : Reg) (w : Word) : (v.setX r w).wLimit = v.wLimit := by unfold Slot.setX; split <;> rfl
@[simp] theorem Slot.setX_tvec (v : Slot) (r : Reg) (w : Word) : (v.setX r w).tvec = v.tvec := by unfold Slot.setX; split <;> rfl
@[simp] theorem Slot.setX_tepc (v : Slot) (r : Reg) (w : Word) : (v.setX r w).tepc = v.tepc := by unfold Slot.setX; split <;> rfl
@[simp] theorem Slot.setX_tcause (v : Slot) (r : Reg) (w : Word) : (v.setX r w).tcause = v.tcause := by unfold Slot.setX; split <;> rfl
@[simp] theorem Slot.setX_tsub (v : Slot) (r : Reg) (w : Word) : (v.setX r w).tsub = v.tsub := by unfold Slot.setX; split <;> rfl
@[simp] theorem Slot.setX_tval (v : Slot) (r : Reg) (w : Word) : (v.setX r w).tval = v.tval := by unfold Slot.setX; split <;> rfl
@[simp] theorem Slot.setX_tnode (v : Slot) (r : Reg) (w : Word) : (v.setX r w).tnode = v.tnode := by unfold Slot.setX; split <;> rfl
@[simp] theorem Slot.setX_tscr0 (v : Slot) (r : Reg) (w : Word) : (v.setX r w).tscr0 = v.tscr0 := by unfold Slot.setX; split <;> rfl
@[simp] theorem Slot.setX_tscr1 (v : Slot) (r : Reg) (w : Word) : (v.setX r w).tscr1 = v.tscr1 := by unfold Slot.setX; split <;> rfl
@[simp] theorem Slot.setX_nest (v : Slot) (r : Reg) (w : Word) : (v.setX r w).nest = v.nest := by unfold Slot.setX; split <;> rfl
@[simp] theorem Slot.setX_pprv (v : Slot) (r : Reg) (w : Word) : (v.setX r w).pprv = v.pprv := by unfold Slot.setX; split <;> rfl
@[simp] theorem Slot.setX_prv (v : Slot) (r : Reg) (w : Word) : (v.setX r w).prv = v.prv := by unfold Slot.setX; split <;> rfl
@[simp] theorem Slot.setX_asid (v : Slot) (r : Reg) (w : Word) : (v.setX r w).asid = v.asid := by unfold Slot.setX; split <;> rfl
@[simp] theorem Slot.setX_ptbr (v : Slot) (r : Reg) (w : Word) : (v.setX r w).ptbr = v.ptbr := by unfold Slot.setX; split <;> rfl
@[simp] theorem Slot.setX_kwin (v : Slot) (r : Reg) (w : Word) : (v.setX r w).kwin = v.kwin := by unfold Slot.setX; split <;> rfl
@[simp] theorem Slot.setX_work (v : Slot) (r : Reg) (w : Word) : (v.setX r w).work = v.work := by unfold Slot.setX; split <;> rfl
@[simp] theorem Slot.setX_inbox (v : Slot) (r : Reg) (w : Word) : (v.setX r w).inbox = v.inbox := by unfold Slot.setX; split <;> rfl
@[simp] theorem Slot.setX_park (v : Slot) (r : Reg) (w : Word) : (v.setX r w).park = v.park := by unfold Slot.setX; split <;> rfl
@[simp] theorem Slot.setX_queue (v : Slot) (r : Reg) (w : Word) : (v.setX r w).queue = v.queue := by unfold Slot.setX; split <;> rfl
@[simp] theorem Slot.setX_events (v : Slot) (r : Reg) (w : Word) : (v.setX r w).events = v.events := by unfold Slot.setX; split <;> rfl
@[simp] theorem Slot.setX_poison (v : Slot) (r : Reg) (w : Word) : (v.setX r w).poison = v.poison := by unfold Slot.setX; split <;> rfl
@[simp] theorem Slot.setX_trapDue (v : Slot) (r : Reg) (w : Word) : (v.setX r w).trapDue = v.trapDue := by unfold Slot.setX; split <;> rfl
@[simp] theorem Slot.setX_ins (v : Slot) (r : Reg) (w : Word) : (v.setX r w).ins = v.ins := by unfold Slot.setX; split <;> rfl
@[simp] theorem Slot.setX_wake (v : Slot) (r : Reg) (w : Word) : (v.setX r w).wake = v.wake := by unfold Slot.setX; split <;> rfl
@[simp] theorem Slot.setX_launch (v : Slot) (r : Reg) (w : Word) : (v.setX r w).launch = v.launch := by unfold Slot.setX; split <;> rfl

@[simp] theorem Slot.setP_st (v : Slot) (p : PReg) (b : Bool) : (v.setP p b).st = v.st := by unfold Slot.setP; split <;> rfl
@[simp] theorem Slot.setP_held (v : Slot) (p : PReg) (b : Bool) : (v.setP p b).held = v.held := by unfold Slot.setP; split <;> rfl
@[simp] theorem Slot.setP_gen (v : Slot) (p : PReg) (b : Bool) : (v.setP p b).gen = v.gen := by unfold Slot.setP; split <;> rfl
@[simp] theorem Slot.setP_pc (v : Slot) (p : PReg) (b : Bool) : (v.setP p b).pc = v.pc := by unfold Slot.setP; split <;> rfl
@[simp] theorem Slot.setP_x (v : Slot) (p : PReg) (b : Bool) : (v.setP p b).x = v.x := by unfold Slot.setP; split <;> rfl
@[simp] theorem Slot.setP_rm (v : Slot) (p : PReg) (b : Bool) : (v.setP p b).rm = v.rm := by unfold Slot.setP; split <;> rfl
@[simp] theorem Slot.setP_en (v : Slot) (p : PReg) (b : Bool) : (v.setP p b).en = v.en := by unfold Slot.setP; split <;> rfl
@[simp] theorem Slot.setP_fl (v : Slot) (p : PReg) (b : Bool) : (v.setP p b).fl = v.fl := by unfold Slot.setP; split <;> rfl
@[simp] theorem Slot.setP_drops (v : Slot) (p : PReg) (b : Bool) : (v.setP p b).drops = v.drops := by unfold Slot.setP; split <;> rfl
@[simp] theorem Slot.setP_sBad (v : Slot) (p : PReg) (b : Bool) : (v.setP p b).sBad = v.sBad := by unfold Slot.setP; split <;> rfl
@[simp] theorem Slot.setP_sRef (v : Slot) (p : PReg) (b : Bool) : (v.setP p b).sRef = v.sRef := by unfold Slot.setP; split <;> rfl
@[simp] theorem Slot.setP_sStale (v : Slot) (p : PReg) (b : Bool) : (v.setP p b).sStale = v.sStale := by unfold Slot.setP; split <;> rfl
@[simp] theorem Slot.setP_wSlp (v : Slot) (p : PReg) (b : Bool) : (v.setP p b).wSlp = v.wSlp := by unfold Slot.setP; split <;> rfl
@[simp] theorem Slot.setP_wFired (v : Slot) (p : PReg) (b : Bool) : (v.setP p b).wFired = v.wFired := by unfold Slot.setP; split <;> rfl
@[simp] theorem Slot.setP_wLimit (v : Slot) (p : PReg) (b : Bool) : (v.setP p b).wLimit = v.wLimit := by unfold Slot.setP; split <;> rfl
@[simp] theorem Slot.setP_tvec (v : Slot) (p : PReg) (b : Bool) : (v.setP p b).tvec = v.tvec := by unfold Slot.setP; split <;> rfl
@[simp] theorem Slot.setP_tepc (v : Slot) (p : PReg) (b : Bool) : (v.setP p b).tepc = v.tepc := by unfold Slot.setP; split <;> rfl
@[simp] theorem Slot.setP_tcause (v : Slot) (p : PReg) (b : Bool) : (v.setP p b).tcause = v.tcause := by unfold Slot.setP; split <;> rfl
@[simp] theorem Slot.setP_tsub (v : Slot) (p : PReg) (b : Bool) : (v.setP p b).tsub = v.tsub := by unfold Slot.setP; split <;> rfl
@[simp] theorem Slot.setP_tval (v : Slot) (p : PReg) (b : Bool) : (v.setP p b).tval = v.tval := by unfold Slot.setP; split <;> rfl
@[simp] theorem Slot.setP_tnode (v : Slot) (p : PReg) (b : Bool) : (v.setP p b).tnode = v.tnode := by unfold Slot.setP; split <;> rfl
@[simp] theorem Slot.setP_tscr0 (v : Slot) (p : PReg) (b : Bool) : (v.setP p b).tscr0 = v.tscr0 := by unfold Slot.setP; split <;> rfl
@[simp] theorem Slot.setP_tscr1 (v : Slot) (p : PReg) (b : Bool) : (v.setP p b).tscr1 = v.tscr1 := by unfold Slot.setP; split <;> rfl
@[simp] theorem Slot.setP_nest (v : Slot) (p : PReg) (b : Bool) : (v.setP p b).nest = v.nest := by unfold Slot.setP; split <;> rfl
@[simp] theorem Slot.setP_pprv (v : Slot) (p : PReg) (b : Bool) : (v.setP p b).pprv = v.pprv := by unfold Slot.setP; split <;> rfl
@[simp] theorem Slot.setP_prv (v : Slot) (p : PReg) (b : Bool) : (v.setP p b).prv = v.prv := by unfold Slot.setP; split <;> rfl
@[simp] theorem Slot.setP_asid (v : Slot) (p : PReg) (b : Bool) : (v.setP p b).asid = v.asid := by unfold Slot.setP; split <;> rfl
@[simp] theorem Slot.setP_ptbr (v : Slot) (p : PReg) (b : Bool) : (v.setP p b).ptbr = v.ptbr := by unfold Slot.setP; split <;> rfl
@[simp] theorem Slot.setP_kwin (v : Slot) (p : PReg) (b : Bool) : (v.setP p b).kwin = v.kwin := by unfold Slot.setP; split <;> rfl
@[simp] theorem Slot.setP_work (v : Slot) (p : PReg) (b : Bool) : (v.setP p b).work = v.work := by unfold Slot.setP; split <;> rfl
@[simp] theorem Slot.setP_inbox (v : Slot) (p : PReg) (b : Bool) : (v.setP p b).inbox = v.inbox := by unfold Slot.setP; split <;> rfl
@[simp] theorem Slot.setP_park (v : Slot) (p : PReg) (b : Bool) : (v.setP p b).park = v.park := by unfold Slot.setP; split <;> rfl
@[simp] theorem Slot.setP_queue (v : Slot) (p : PReg) (b : Bool) : (v.setP p b).queue = v.queue := by unfold Slot.setP; split <;> rfl
@[simp] theorem Slot.setP_events (v : Slot) (p : PReg) (b : Bool) : (v.setP p b).events = v.events := by unfold Slot.setP; split <;> rfl
@[simp] theorem Slot.setP_poison (v : Slot) (p : PReg) (b : Bool) : (v.setP p b).poison = v.poison := by unfold Slot.setP; split <;> rfl
@[simp] theorem Slot.setP_trapDue (v : Slot) (p : PReg) (b : Bool) : (v.setP p b).trapDue = v.trapDue := by unfold Slot.setP; split <;> rfl
@[simp] theorem Slot.setP_ins (v : Slot) (p : PReg) (b : Bool) : (v.setP p b).ins = v.ins := by unfold Slot.setP; split <;> rfl
@[simp] theorem Slot.setP_wake (v : Slot) (p : PReg) (b : Bool) : (v.setP p b).wake = v.wake := by unfold Slot.setP; split <;> rfl
@[simp] theorem Slot.setP_launch (v : Slot) (p : PReg) (b : Bool) : (v.setP p b).launch = v.launch := by unfold Slot.setP; split <;> rfl

@[simp] theorem Slot.setPair_st (v : Slot) (r : Reg) (lo hi : Word) : (v.setPair r lo hi).st = v.st := by simp [Slot.setPair]
@[simp] theorem Slot.setPair_held (v : Slot) (r : Reg) (lo hi : Word) : (v.setPair r lo hi).held = v.held := by simp [Slot.setPair]
@[simp] theorem Slot.setPair_gen (v : Slot) (r : Reg) (lo hi : Word) : (v.setPair r lo hi).gen = v.gen := by simp [Slot.setPair]
@[simp] theorem Slot.setPair_pc (v : Slot) (r : Reg) (lo hi : Word) : (v.setPair r lo hi).pc = v.pc := by simp [Slot.setPair]
@[simp] theorem Slot.setPair_p (v : Slot) (r : Reg) (lo hi : Word) : (v.setPair r lo hi).p = v.p := by simp [Slot.setPair]
@[simp] theorem Slot.setPair_rm (v : Slot) (r : Reg) (lo hi : Word) : (v.setPair r lo hi).rm = v.rm := by simp [Slot.setPair]
@[simp] theorem Slot.setPair_en (v : Slot) (r : Reg) (lo hi : Word) : (v.setPair r lo hi).en = v.en := by simp [Slot.setPair]
@[simp] theorem Slot.setPair_fl (v : Slot) (r : Reg) (lo hi : Word) : (v.setPair r lo hi).fl = v.fl := by simp [Slot.setPair]
@[simp] theorem Slot.setPair_drops (v : Slot) (r : Reg) (lo hi : Word) : (v.setPair r lo hi).drops = v.drops := by simp [Slot.setPair]
@[simp] theorem Slot.setPair_sBad (v : Slot) (r : Reg) (lo hi : Word) : (v.setPair r lo hi).sBad = v.sBad := by simp [Slot.setPair]
@[simp] theorem Slot.setPair_sRef (v : Slot) (r : Reg) (lo hi : Word) : (v.setPair r lo hi).sRef = v.sRef := by simp [Slot.setPair]
@[simp] theorem Slot.setPair_sStale (v : Slot) (r : Reg) (lo hi : Word) : (v.setPair r lo hi).sStale = v.sStale := by simp [Slot.setPair]
@[simp] theorem Slot.setPair_wSlp (v : Slot) (r : Reg) (lo hi : Word) : (v.setPair r lo hi).wSlp = v.wSlp := by simp [Slot.setPair]
@[simp] theorem Slot.setPair_wFired (v : Slot) (r : Reg) (lo hi : Word) : (v.setPair r lo hi).wFired = v.wFired := by simp [Slot.setPair]
@[simp] theorem Slot.setPair_wLimit (v : Slot) (r : Reg) (lo hi : Word) : (v.setPair r lo hi).wLimit = v.wLimit := by simp [Slot.setPair]
@[simp] theorem Slot.setPair_tvec (v : Slot) (r : Reg) (lo hi : Word) : (v.setPair r lo hi).tvec = v.tvec := by simp [Slot.setPair]
@[simp] theorem Slot.setPair_tepc (v : Slot) (r : Reg) (lo hi : Word) : (v.setPair r lo hi).tepc = v.tepc := by simp [Slot.setPair]
@[simp] theorem Slot.setPair_tcause (v : Slot) (r : Reg) (lo hi : Word) : (v.setPair r lo hi).tcause = v.tcause := by simp [Slot.setPair]
@[simp] theorem Slot.setPair_tsub (v : Slot) (r : Reg) (lo hi : Word) : (v.setPair r lo hi).tsub = v.tsub := by simp [Slot.setPair]
@[simp] theorem Slot.setPair_tval (v : Slot) (r : Reg) (lo hi : Word) : (v.setPair r lo hi).tval = v.tval := by simp [Slot.setPair]
@[simp] theorem Slot.setPair_tnode (v : Slot) (r : Reg) (lo hi : Word) : (v.setPair r lo hi).tnode = v.tnode := by simp [Slot.setPair]
@[simp] theorem Slot.setPair_tscr0 (v : Slot) (r : Reg) (lo hi : Word) : (v.setPair r lo hi).tscr0 = v.tscr0 := by simp [Slot.setPair]
@[simp] theorem Slot.setPair_tscr1 (v : Slot) (r : Reg) (lo hi : Word) : (v.setPair r lo hi).tscr1 = v.tscr1 := by simp [Slot.setPair]
@[simp] theorem Slot.setPair_nest (v : Slot) (r : Reg) (lo hi : Word) : (v.setPair r lo hi).nest = v.nest := by simp [Slot.setPair]
@[simp] theorem Slot.setPair_pprv (v : Slot) (r : Reg) (lo hi : Word) : (v.setPair r lo hi).pprv = v.pprv := by simp [Slot.setPair]
@[simp] theorem Slot.setPair_prv (v : Slot) (r : Reg) (lo hi : Word) : (v.setPair r lo hi).prv = v.prv := by simp [Slot.setPair]
@[simp] theorem Slot.setPair_asid (v : Slot) (r : Reg) (lo hi : Word) : (v.setPair r lo hi).asid = v.asid := by simp [Slot.setPair]
@[simp] theorem Slot.setPair_ptbr (v : Slot) (r : Reg) (lo hi : Word) : (v.setPair r lo hi).ptbr = v.ptbr := by simp [Slot.setPair]
@[simp] theorem Slot.setPair_kwin (v : Slot) (r : Reg) (lo hi : Word) : (v.setPair r lo hi).kwin = v.kwin := by simp [Slot.setPair]
@[simp] theorem Slot.setPair_work (v : Slot) (r : Reg) (lo hi : Word) : (v.setPair r lo hi).work = v.work := by simp [Slot.setPair]
@[simp] theorem Slot.setPair_inbox (v : Slot) (r : Reg) (lo hi : Word) : (v.setPair r lo hi).inbox = v.inbox := by simp [Slot.setPair]
@[simp] theorem Slot.setPair_park (v : Slot) (r : Reg) (lo hi : Word) : (v.setPair r lo hi).park = v.park := by simp [Slot.setPair]
@[simp] theorem Slot.setPair_queue (v : Slot) (r : Reg) (lo hi : Word) : (v.setPair r lo hi).queue = v.queue := by simp [Slot.setPair]
@[simp] theorem Slot.setPair_events (v : Slot) (r : Reg) (lo hi : Word) : (v.setPair r lo hi).events = v.events := by simp [Slot.setPair]
@[simp] theorem Slot.setPair_poison (v : Slot) (r : Reg) (lo hi : Word) : (v.setPair r lo hi).poison = v.poison := by simp [Slot.setPair]
@[simp] theorem Slot.setPair_trapDue (v : Slot) (r : Reg) (lo hi : Word) : (v.setPair r lo hi).trapDue = v.trapDue := by simp [Slot.setPair]
@[simp] theorem Slot.setPair_ins (v : Slot) (r : Reg) (lo hi : Word) : (v.setPair r lo hi).ins = v.ins := by simp [Slot.setPair]
@[simp] theorem Slot.setPair_wake (v : Slot) (r : Reg) (lo hi : Word) : (v.setPair r lo hi).wake = v.wake := by simp [Slot.setPair]
@[simp] theorem Slot.setPair_launch (v : Slot) (r : Reg) (lo hi : Word) : (v.setPair r lo hi).launch = v.launch := by simp [Slot.setPair]

@[simp] theorem Slot.step_st (v : Slot) : (v.step).st = v.st := rfl
@[simp] theorem Slot.step_held (v : Slot) : (v.step).held = v.held := rfl
@[simp] theorem Slot.step_gen (v : Slot) : (v.step).gen = v.gen := rfl
@[simp] theorem Slot.step_x (v : Slot) : (v.step).x = v.x := rfl
@[simp] theorem Slot.step_p (v : Slot) : (v.step).p = v.p := rfl
@[simp] theorem Slot.step_rm (v : Slot) : (v.step).rm = v.rm := rfl
@[simp] theorem Slot.step_en (v : Slot) : (v.step).en = v.en := rfl
@[simp] theorem Slot.step_fl (v : Slot) : (v.step).fl = v.fl := rfl
@[simp] theorem Slot.step_drops (v : Slot) : (v.step).drops = v.drops := rfl
@[simp] theorem Slot.step_sBad (v : Slot) : (v.step).sBad = v.sBad := rfl
@[simp] theorem Slot.step_sRef (v : Slot) : (v.step).sRef = v.sRef := rfl
@[simp] theorem Slot.step_sStale (v : Slot) : (v.step).sStale = v.sStale := rfl
@[simp] theorem Slot.step_wSlp (v : Slot) : (v.step).wSlp = v.wSlp := rfl
@[simp] theorem Slot.step_wFired (v : Slot) : (v.step).wFired = v.wFired := rfl
@[simp] theorem Slot.step_wLimit (v : Slot) : (v.step).wLimit = v.wLimit := rfl
@[simp] theorem Slot.step_tvec (v : Slot) : (v.step).tvec = v.tvec := rfl
@[simp] theorem Slot.step_tepc (v : Slot) : (v.step).tepc = v.tepc := rfl
@[simp] theorem Slot.step_tcause (v : Slot) : (v.step).tcause = v.tcause := rfl
@[simp] theorem Slot.step_tsub (v : Slot) : (v.step).tsub = v.tsub := rfl
@[simp] theorem Slot.step_tval (v : Slot) : (v.step).tval = v.tval := rfl
@[simp] theorem Slot.step_tnode (v : Slot) : (v.step).tnode = v.tnode := rfl
@[simp] theorem Slot.step_tscr0 (v : Slot) : (v.step).tscr0 = v.tscr0 := rfl
@[simp] theorem Slot.step_tscr1 (v : Slot) : (v.step).tscr1 = v.tscr1 := rfl
@[simp] theorem Slot.step_nest (v : Slot) : (v.step).nest = v.nest := rfl
@[simp] theorem Slot.step_pprv (v : Slot) : (v.step).pprv = v.pprv := rfl
@[simp] theorem Slot.step_prv (v : Slot) : (v.step).prv = v.prv := rfl
@[simp] theorem Slot.step_asid (v : Slot) : (v.step).asid = v.asid := rfl
@[simp] theorem Slot.step_ptbr (v : Slot) : (v.step).ptbr = v.ptbr := rfl
@[simp] theorem Slot.step_kwin (v : Slot) : (v.step).kwin = v.kwin := rfl
@[simp] theorem Slot.step_work (v : Slot) : (v.step).work = v.work := rfl
@[simp] theorem Slot.step_inbox (v : Slot) : (v.step).inbox = v.inbox := rfl
@[simp] theorem Slot.step_park (v : Slot) : (v.step).park = v.park := rfl
@[simp] theorem Slot.step_queue (v : Slot) : (v.step).queue = v.queue := rfl
@[simp] theorem Slot.step_events (v : Slot) : (v.step).events = v.events := rfl
@[simp] theorem Slot.step_poison (v : Slot) : (v.step).poison = v.poison := rfl
@[simp] theorem Slot.step_trapDue (v : Slot) : (v.step).trapDue = v.trapDue := rfl
@[simp] theorem Slot.step_ins (v : Slot) : (v.step).ins = v.ins := rfl
@[simp] theorem Slot.step_wake (v : Slot) : (v.step).wake = v.wake := rfl
@[simp] theorem Slot.step_launch (v : Slot) : (v.step).launch = v.launch := rfl

@[simp] theorem Slot.unpark_held (v : Slot) : (v.unpark).held = v.held := rfl
@[simp] theorem Slot.unpark_gen (v : Slot) : (v.unpark).gen = v.gen := rfl
@[simp] theorem Slot.unpark_pc (v : Slot) : (v.unpark).pc = v.pc := rfl
@[simp] theorem Slot.unpark_x (v : Slot) : (v.unpark).x = v.x := rfl
@[simp] theorem Slot.unpark_p (v : Slot) : (v.unpark).p = v.p := rfl
@[simp] theorem Slot.unpark_rm (v : Slot) : (v.unpark).rm = v.rm := rfl
@[simp] theorem Slot.unpark_en (v : Slot) : (v.unpark).en = v.en := rfl
@[simp] theorem Slot.unpark_fl (v : Slot) : (v.unpark).fl = v.fl := rfl
@[simp] theorem Slot.unpark_drops (v : Slot) : (v.unpark).drops = v.drops := rfl
@[simp] theorem Slot.unpark_sBad (v : Slot) : (v.unpark).sBad = v.sBad := rfl
@[simp] theorem Slot.unpark_sRef (v : Slot) : (v.unpark).sRef = v.sRef := rfl
@[simp] theorem Slot.unpark_sStale (v : Slot) : (v.unpark).sStale = v.sStale := rfl
@[simp] theorem Slot.unpark_wSlp (v : Slot) : (v.unpark).wSlp = v.wSlp := rfl
@[simp] theorem Slot.unpark_wFired (v : Slot) : (v.unpark).wFired = v.wFired := rfl
@[simp] theorem Slot.unpark_wLimit (v : Slot) : (v.unpark).wLimit = v.wLimit := rfl
@[simp] theorem Slot.unpark_tvec (v : Slot) : (v.unpark).tvec = v.tvec := rfl
@[simp] theorem Slot.unpark_tepc (v : Slot) : (v.unpark).tepc = v.tepc := rfl
@[simp] theorem Slot.unpark_tcause (v : Slot) : (v.unpark).tcause = v.tcause := rfl
@[simp] theorem Slot.unpark_tsub (v : Slot) : (v.unpark).tsub = v.tsub := rfl
@[simp] theorem Slot.unpark_tval (v : Slot) : (v.unpark).tval = v.tval := rfl
@[simp] theorem Slot.unpark_tnode (v : Slot) : (v.unpark).tnode = v.tnode := rfl
@[simp] theorem Slot.unpark_tscr0 (v : Slot) : (v.unpark).tscr0 = v.tscr0 := rfl
@[simp] theorem Slot.unpark_tscr1 (v : Slot) : (v.unpark).tscr1 = v.tscr1 := rfl
@[simp] theorem Slot.unpark_nest (v : Slot) : (v.unpark).nest = v.nest := rfl
@[simp] theorem Slot.unpark_pprv (v : Slot) : (v.unpark).pprv = v.pprv := rfl
@[simp] theorem Slot.unpark_prv (v : Slot) : (v.unpark).prv = v.prv := rfl
@[simp] theorem Slot.unpark_asid (v : Slot) : (v.unpark).asid = v.asid := rfl
@[simp] theorem Slot.unpark_ptbr (v : Slot) : (v.unpark).ptbr = v.ptbr := rfl
@[simp] theorem Slot.unpark_kwin (v : Slot) : (v.unpark).kwin = v.kwin := rfl
@[simp] theorem Slot.unpark_work (v : Slot) : (v.unpark).work = v.work := rfl
@[simp] theorem Slot.unpark_inbox (v : Slot) : (v.unpark).inbox = v.inbox := rfl
@[simp] theorem Slot.unpark_queue (v : Slot) : (v.unpark).queue = v.queue := rfl
@[simp] theorem Slot.unpark_events (v : Slot) : (v.unpark).events = v.events := rfl
@[simp] theorem Slot.unpark_poison (v : Slot) : (v.unpark).poison = v.poison := rfl
@[simp] theorem Slot.unpark_trapDue (v : Slot) : (v.unpark).trapDue = v.trapDue := rfl
@[simp] theorem Slot.unpark_ins (v : Slot) : (v.unpark).ins = v.ins := rfl
@[simp] theorem Slot.unpark_wake (v : Slot) : (v.unpark).wake = v.wake := rfl
@[simp] theorem Slot.unpark_launch (v : Slot) : (v.unpark).launch = v.launch := rfl

@[simp] theorem Slot.resume_held (v : Slot) : (v.resume).held = v.held := rfl
@[simp] theorem Slot.resume_gen (v : Slot) : (v.resume).gen = v.gen := rfl
@[simp] theorem Slot.resume_x (v : Slot) : (v.resume).x = v.x := rfl
@[simp] theorem Slot.resume_p (v : Slot) : (v.resume).p = v.p := rfl
@[simp] theorem Slot.resume_rm (v : Slot) : (v.resume).rm = v.rm := rfl
@[simp] theorem Slot.resume_en (v : Slot) : (v.resume).en = v.en := rfl
@[simp] theorem Slot.resume_fl (v : Slot) : (v.resume).fl = v.fl := rfl
@[simp] theorem Slot.resume_drops (v : Slot) : (v.resume).drops = v.drops := rfl
@[simp] theorem Slot.resume_sBad (v : Slot) : (v.resume).sBad = v.sBad := rfl
@[simp] theorem Slot.resume_sRef (v : Slot) : (v.resume).sRef = v.sRef := rfl
@[simp] theorem Slot.resume_sStale (v : Slot) : (v.resume).sStale = v.sStale := rfl
@[simp] theorem Slot.resume_wSlp (v : Slot) : (v.resume).wSlp = v.wSlp := rfl
@[simp] theorem Slot.resume_wFired (v : Slot) : (v.resume).wFired = v.wFired := rfl
@[simp] theorem Slot.resume_wLimit (v : Slot) : (v.resume).wLimit = v.wLimit := rfl
@[simp] theorem Slot.resume_tvec (v : Slot) : (v.resume).tvec = v.tvec := rfl
@[simp] theorem Slot.resume_tepc (v : Slot) : (v.resume).tepc = v.tepc := rfl
@[simp] theorem Slot.resume_tcause (v : Slot) : (v.resume).tcause = v.tcause := rfl
@[simp] theorem Slot.resume_tsub (v : Slot) : (v.resume).tsub = v.tsub := rfl
@[simp] theorem Slot.resume_tval (v : Slot) : (v.resume).tval = v.tval := rfl
@[simp] theorem Slot.resume_tnode (v : Slot) : (v.resume).tnode = v.tnode := rfl
@[simp] theorem Slot.resume_tscr0 (v : Slot) : (v.resume).tscr0 = v.tscr0 := rfl
@[simp] theorem Slot.resume_tscr1 (v : Slot) : (v.resume).tscr1 = v.tscr1 := rfl
@[simp] theorem Slot.resume_nest (v : Slot) : (v.resume).nest = v.nest := rfl
@[simp] theorem Slot.resume_pprv (v : Slot) : (v.resume).pprv = v.pprv := rfl
@[simp] theorem Slot.resume_prv (v : Slot) : (v.resume).prv = v.prv := rfl
@[simp] theorem Slot.resume_asid (v : Slot) : (v.resume).asid = v.asid := rfl
@[simp] theorem Slot.resume_ptbr (v : Slot) : (v.resume).ptbr = v.ptbr := rfl
@[simp] theorem Slot.resume_kwin (v : Slot) : (v.resume).kwin = v.kwin := rfl
@[simp] theorem Slot.resume_work (v : Slot) : (v.resume).work = v.work := rfl
@[simp] theorem Slot.resume_inbox (v : Slot) : (v.resume).inbox = v.inbox := rfl
@[simp] theorem Slot.resume_queue (v : Slot) : (v.resume).queue = v.queue := rfl
@[simp] theorem Slot.resume_events (v : Slot) : (v.resume).events = v.events := rfl
@[simp] theorem Slot.resume_poison (v : Slot) : (v.resume).poison = v.poison := rfl
@[simp] theorem Slot.resume_trapDue (v : Slot) : (v.resume).trapDue = v.trapDue := rfl
@[simp] theorem Slot.resume_ins (v : Slot) : (v.resume).ins = v.ins := rfl
@[simp] theorem Slot.resume_wake (v : Slot) : (v.resume).wake = v.wake := rfl
@[simp] theorem Slot.resume_launch (v : Slot) : (v.resume).launch = v.launch := rfl

@[simp] theorem Slot.step_pc (v : Slot) : v.step.pc = v.pc + 4 := rfl
@[simp] theorem Slot.resume_pc (v : Slot) : v.resume.pc = v.pc + 4 := rfl
@[simp] theorem Slot.resume_st (v : Slot) : v.resume.st = .run := rfl
@[simp] theorem Slot.resume_park (v : Slot) : v.resume.park = none := rfl
@[simp] theorem Slot.unpark_st (v : Slot) : v.unpark.st = .run := rfl
@[simp] theorem Slot.unpark_park (v : Slot) : v.unpark.park = none := rfl

end Sys2Proof.Machine
end

