-- ==== Sys2Proof/Laws/Table.lean ====
section
/-! SUPPORT. Sparse tables: what is read after a write; the same for slots, spires, cores, queues and islands. -/

namespace Sys2Proof.Machine

variable {α : Type}

@[simp] theorem tget_tset_same (k : Nat) (v : α) (l : List (Nat × α)) : tget k (tset k v l) = some v := by
  induction l with
  | nil => simp [tset, tget]
  | cons e rest ih =>
    obtain ⟨j, w⟩ := e
    simp only [tset]
    split
    · simp [tget]
    · split
      · simp [tget]
      · simp_all [tget]

theorem tget_tset_other {j k : Nat} (h : j ≠ k) (v : α) (l : List (Nat × α)) : tget j (tset k v l) = tget j l := by
  induction l with
  | nil => simp [tset, tget, Ne.symm h]
  | cons e rest ih =>
    obtain ⟨i, w⟩ := e
    simp only [tset]
    split
    · subst_vars; simp [tget, Ne.symm h]
    · split
      · simp [tget, Ne.symm h]
      · simp [tget, ih]

theorem tget_tset (j k : Nat) (v : α) (l : List (Nat × α)) :
    tget j (tset k v l) = if j = k then some v else tget j l := by
  split
  · subst_vars; simp
  · exact tget_tset_other ‹_› v l

@[simp] theorem State.slot_setSlot_same (s : State) (t : Nat) (v : Slot) : (s.setSlot t v).slot t = v := by
  simp [State.slot, State.setSlot]

theorem State.slot_setSlot_other (s : State) {u t : Nat} (h : u ≠ t) (v : Slot) : (s.setSlot t v).slot u = s.slot u := by
  simp [State.slot, State.setSlot, tget_tset_other h]

@[simp] theorem State.thr_setThr (s : State) (v : Slot) : (s.setThr v).thr = v := by
  simp [State.thr, State.setThr, State.slot, State.setSlot]

theorem State.slot_setThr_other (s : State) {u : Nat} (h : u ≠ s.tid) (v : Slot) : (s.setThr v).slot u = s.slot u :=
  s.slot_setSlot_other h v

@[simp] theorem State.spire_setSpire_same (s : State) (g : Nat) (v : Spire) : (s.setSpire g v).spire g = v := by
  simp [State.spire, State.setSpire]

theorem State.spire_setSpire_other (s : State) {h g : Nat} (hn : h ≠ g) (v : Spire) :
    (s.setSpire g v).spire h = s.spire h := by
  simp [State.spire, State.setSpire, tget_tset_other hn]

@[simp] theorem State.core_setCore_same (s : State) (c : Nat) (v : Core) : (s.setCore c v).core c = v := by
  simp [State.core, State.setCore]

@[simp] theorem State.queue_setQueue_same (s : State) (q : Nat) (v : Queue) : (s.setQueue q v).queue q = v := by
  simp [State.queue, State.setQueue]

@[simp] theorem State.island_setIsland_same (s : State) (i : Nat) (v : Island) : (s.setIsland i v).island i = v := by
  simp [State.island, State.setIsland]

@[simp] theorem State.slot_setSpire (s : State) (g t : Nat) (v : Spire) : (s.setSpire g v).slot t = s.slot t := rfl
@[simp] theorem State.slot_setCore (s : State) (c t : Nat) (v : Core) : (s.setCore c v).slot t = s.slot t := rfl
@[simp] theorem State.slot_setQueue (s : State) (q t : Nat) (v : Queue) : (s.setQueue q v).slot t = s.slot t := rfl
@[simp] theorem State.slot_setIsland (s : State) (i t : Nat) (v : Island) : (s.setIsland i v).slot t = s.slot t := rfl
@[simp] theorem State.slot_homeWrite (s : State) (k t : Nat) (bs : List Byte) : (s.homeWrite k bs).slot t = s.slot t := rfl
@[simp] theorem State.slot_setFull (s : State) (k t : Nat) (f : Bool) : (s.setFull k f).slot t = s.slot t := rfl
@[simp] theorem State.slot_setDie (s : State) (d t : Nat) (v : Die) : (s.setDie d v).slot t = s.slot t := by
  simp [State.slot]
@[simp] theorem State.spire_setSlot (s : State) (g t : Nat) (v : Slot) : (s.setSlot t v).spire g = s.spire g := rfl
@[simp] theorem State.spire_setThr (s : State) (g : Nat) (v : Slot) : (s.setThr v).spire g = s.spire g := rfl
@[simp] theorem State.core_setThr (s : State) (c : Nat) (v : Slot) : (s.setThr v).core c = s.core c := rfl
@[simp] theorem State.spire_homeWrite (s : State) (g k : Nat) (bs : List Byte) : (s.homeWrite k bs).spire g = s.spire g := rfl

end Sys2Proof.Machine
end

