-- ==== Sys2Proof/Laws/Memory.lean ====
section
/-! SUPPORT. Memory: a read after a write, and the canonical form, which every memory operation keeps. -/

namespace Sys2Proof.Machine

theorem Memory.wfFrom_mono {lo hi : Nat} (h : lo ≤ hi) : ∀ {m : List Host.Cell}, Memory.wfFrom hi m = true → Memory.wfFrom lo m = true
  | [], _ => rfl
  | (j, b) :: rest, hm => by
    simp only [Memory.wfFrom, Bool.and_eq_true, decide_eq_true_eq] at hm ⊢
    exact ⟨⟨Nat.le_trans h hm.1.1, hm.1.2⟩, hm.2⟩

/-- Bytes of other keys read the same without those of some keys. -/
theorem memGet_filter {k : Nat} (p : Host.Cell → Bool) (h : ∀ c, p (k, c) = true) : ∀ (m : List Host.Cell),
    memGet k (m.filter p) = memGet k m
  | [] => rfl
  | (j, b) :: rest => by
    simp only [List.filter]
    by_cases e : j = k
    · subst e; simp [memGet, h]
    · split <;> simp [memGet, e, memGet_filter p h rest]

/-- A key whose entries are taken away reads as unlisted. -/
theorem memGet_filter_gone {k : Nat} (p : Host.Cell → Bool) (h : ∀ c, p (k, c) = false) : ∀ (m : List Host.Cell),
    memGet k (m.filter p) = unlistedByte
  | [] => rfl
  | (j, b) :: rest => by
    simp only [List.filter]
    by_cases e : j = k
    · subst e; simp [h, memGet_filter_gone p h rest]
    · split <;> simp [memGet, e, memGet_filter_gone p h rest]

theorem memGet_memSet_same (k : Nat) (b : Byte) : ∀ (m : List Host.Cell), memGet k (memSet k b m) = b
  | [] => by
    simp only [memSet]; split
    · simp_all [memGet]
    · simp [memGet]
  | (j, c) :: rest => by
    have gone := memGet_filter_gone (k := k) (fun e => decide (e.1 ≠ k)) (by simp) rest
    simp only [memSet]
    split
    · split
      · simp_all
      · simp [memGet]
    · split
      · split
        · simp_all [memGet]
        · simp [memGet]
      · simp [memGet, *, memGet_memSet_same k b rest]

theorem memGet_memSet_other {i k : Nat} (h : i ≠ k) (b : Byte) : ∀ (m : List Host.Cell), memGet i (memSet k b m) = memGet i m
  | [] => by
    simp only [memSet]; split
    · rfl
    · simp [memGet, Ne.symm h]
  | (j, c) :: rest => by
    have kept := memGet_filter (k := i) (fun e => decide (e.1 ≠ k)) (by simp [h]) rest
    simp only [memSet]
    split
    · subst_vars
      split
      · rw [kept]; simp [memGet, Ne.symm h]
      · simp [memGet, Ne.symm h]
    · split
      · split
        · simp only [memGet]; rw [kept]
        · simp [memGet, Ne.symm h]
      · simp [memGet, memGet_memSet_other h b rest]

theorem Memory.wfFrom_filter (p : Host.Cell → Bool) : ∀ (m : List Host.Cell) {lo : Nat}, Memory.wfFrom lo m = true →
    Memory.wfFrom lo (m.filter p) = true
  | [], _, _ => rfl
  | (j, b) :: rest, lo, hm => by
    simp only [Memory.wfFrom, Bool.and_eq_true, decide_eq_true_eq] at hm
    have ih := Memory.wfFrom_filter p rest hm.2
    simp only [List.filter]
    split
    · simp only [Memory.wfFrom, Bool.and_eq_true, decide_eq_true_eq]; exact ⟨hm.1, ih⟩
    · exact Memory.wfFrom_mono (by omega) ih

theorem Memory.wf_filter (p : Host.Cell → Bool) {m : List Host.Cell} (h : Memory.wf m = true) : Memory.wf (m.filter p) = true :=
  Memory.wfFrom_filter p m h

/-- Writing a byte keeps the canonical form. -/
theorem Memory.wfFrom_memSet (k : Nat) (b : Byte) : ∀ (m : List Host.Cell) {lo : Nat}, Memory.wfFrom lo m = true → lo ≤ k →
    Memory.wfFrom lo (memSet k b m) = true
  | [], lo, _, hk => by
    simp only [memSet]; split
    · rfl
    · simp_all [Memory.wfFrom]
  | (j, c) :: rest, lo, hm, hk => by
    simp only [Memory.wfFrom, Bool.and_eq_true, decide_eq_true_eq] at hm
    simp only [memSet]
    split
    · subst_vars
      split
      · exact Memory.wfFrom_mono (by omega) (Memory.wfFrom_filter _ _ hm.2)
      · simp_all [Memory.wfFrom]
    · split
      · split
        · simp only [Memory.wfFrom, Bool.and_eq_true, decide_eq_true_eq]
          exact ⟨hm.1, Memory.wfFrom_filter _ _ hm.2⟩
        · rename_i h1 h2 h3
          simp only [Memory.wfFrom, Bool.and_eq_true, decide_eq_true_eq]
          exact ⟨⟨hk, h3⟩, ⟨by omega, hm.1.2⟩, hm.2⟩
      · rename_i h1 h2
        simp only [Memory.wfFrom, Bool.and_eq_true, decide_eq_true_eq]
        exact ⟨hm.1, Memory.wfFrom_memSet k b rest hm.2 (by omega)⟩

theorem Memory.wf_memSet {m : List Host.Cell} (h : Memory.wf m = true) (k : Nat) (b : Byte) : Memory.wf (memSet k b m) = true :=
  Memory.wfFrom_memSet k b m h (Nat.zero_le k)

theorem Memory.wf_memWrite : ∀ (bs : List Byte) (k : Nat) {m : List Host.Cell}, Memory.wf m = true →
    Memory.wf (memWrite k bs m) = true
  | [], _, _, h => h
  | b :: bs, k, _, h => Memory.wf_memWrite bs (k + 1) (Memory.wf_memSet h k b)

theorem Memory.wf_writeBackFrom (base : Nat) (c : Sector) : ∀ (n i : Nat) {m : List Host.Cell}, Memory.wf m = true →
    Memory.wf (writeBackFrom base c n i m) = true
  | 0, _, _, h => h
  | n + 1, i, m, h => by
    simp only [writeBackFrom]
    refine Memory.wf_writeBackFrom base c n (i + 1) ?_
    split
    · exact Memory.wf_memWrite _ _ h
    · exact h

theorem memGet_memWrite_outside : ∀ (bs : List Byte) {i k : Nat} {m : List Host.Cell},
    (i < k ∨ k + bs.length ≤ i) → memGet i (memWrite k bs m) = memGet i m
  | [], _, _, _, _ => rfl
  | b :: bs, i, k, m, h => by
    simp only [List.length_cons] at h
    simp only [memWrite]
    rw [memGet_memWrite_outside bs (by omega)]
    exact memGet_memSet_other (by omega) b m

theorem memGet_memWrite_inside : ∀ (bs : List Byte) {i k : Nat} {m : List Host.Cell},
    (h : i < bs.length) → memGet (k + i) (memWrite k bs m) = bs[i]
  | b :: bs, 0, k, m, _ => by
    simp only [memWrite, Nat.add_zero, List.getElem_cons_zero]
    rw [memGet_memWrite_outside bs (Or.inl (Nat.lt_succ_self k))]
    exact memGet_memSet_same k b m
  | b :: bs, i + 1, k, m, h => by
    simp only [memWrite, List.getElem_cons_succ]
    have e : k + (i + 1) = k + 1 + i := by omega
    rw [e]
    exact memGet_memWrite_inside bs (Nat.lt_of_succ_lt_succ h)

end Sys2Proof.Machine
end

