-- ==== Sys2Proof/Laws/Frame.lean ====
section
/-! SUPPORT. What the shared endings of instructions do: a result in a register, a pair or a predicate, a jump, a trap, a park,
and what a false guard leaves. -/

namespace Sys2Proof.Machine

@[simp] theorem Slot.getX_setX_same (v : Slot) (d : Reg) (w : Word) : (v.setX d w).getX d = if d = 0 then 0 else w := by
  by_cases h : d = 0 <;> simp [Slot.getX, Slot.setX, h]

theorem Slot.getX_setX_other (v : Slot) {r d : Reg} (h : r ≠ d) (w : Word) : (v.setX d w).getX r = v.getX r := by
  by_cases hd : d = 0
  · simp [Slot.setX, hd]
  · have : ¬ d.val = r.val := fun e => h (Fin.ext e.symm)
    simp [Slot.getX, Slot.setX, hd, this]

@[simp] theorem Slot.getP_setP_same (v : Slot) (p : PReg) (b : Bool) : (v.setP p b).getP p = if p = 0 then true else b := by
  by_cases h : p = 0 <;> simp [Slot.getP, Slot.setP, h]

theorem Slot.getP_setP_other (v : Slot) {q p : PReg} (h : q ≠ p) (b : Bool) : (v.setP p b).getP q = v.getP q := by
  by_cases hp : p = 0
  · simp [Slot.setP, hp]
  · have : ¬ p.val = q.val := fun e => h (Fin.ext e.symm)
    simp [Slot.getP, Slot.setP, hp, this]

@[simp] theorem Slot.getX_step (v : Slot) (r : Reg) : v.step.getX r = v.getX r := rfl
@[simp] theorem Slot.getP_step (v : Slot) (p : PReg) : v.step.getP p = v.getP p := rfl
@[simp] theorem Slot.getX_resume (v : Slot) (r : Reg) : v.resume.getX r = v.getX r := rfl
@[simp] theorem Slot.getX_setP (v : Slot) (p : PReg) (b : Bool) (r : Reg) : (v.setP p b).getX r = v.getX r := by
  unfold Slot.setP; split <;> rfl
@[simp] theorem Slot.getP_setX (v : Slot) (p : PReg) (d : Reg) (w : Word) : (v.setX d w).getP p = v.getP p := by
  unfold Slot.setX; split <;> rfl

@[simp] theorem State.thr_retX (s : State) (d : Reg) (w : Word) : (s.retX d w).thr = (s.thr.setX d w).step := by
  simp [State.retX]
@[simp] theorem State.thr_retP (s : State) (p : PReg) (b : Bool) : (s.retP p b).thr = (s.thr.setP p b).step := by
  simp [State.retP]
@[simp] theorem State.thr_retPair (s : State) (d : Reg) (lo hi : Word) : (s.retPair d lo hi).thr = (s.thr.setPair d lo hi).step := by
  simp [State.retPair]
@[simp] theorem State.thr_advance (s : State) : s.advance.thr = s.thr.step := by simp [State.advance]

theorem SameOthers.setThr (s : State) (v : Slot) : SameOthers s (s.setThr v) := fun _ h => s.slot_setThr_other h v
theorem SameOutside.setThr (s : State) (v : Slot) : SameOutside s (s.setThr v) := rfl
theorem SameBytes.setThr (s : State) (v : Slot) : SameBytes s (s.setThr v) := fun _ => rfl

theorem Slot.setX_rest (v : Slot) (d : Reg) (w : Word) : { (v.setX d w).step with x := v.x, pc := v.pc } = v := by
  unfold Slot.setX; split <;> rfl
theorem Slot.setP_rest (v : Slot) (p : PReg) (b : Bool) : { (v.setP p b).step with p := v.p, pc := v.pc } = v := by
  unfold Slot.setP; split <;> rfl

/-- A result in X[d] changes nothing else. -/
theorem OnlyX.retX (s : State) (d : Reg) (w : Word) : OnlyX d s (s.retX d w) := by
  refine ⟨by simp, fun r h => ?_, ?_, SameOthers.setThr _ _, SameOutside.setThr _ _, SameBytes.setThr _ _⟩
  · simp [State.getX, Slot.getX_setX_other _ h]
  · rw [State.thr_retX]; exact Slot.setX_rest _ _ _

/-- A result in P[p] changes nothing else. -/
theorem OnlyP.retP (s : State) (p : PReg) (b : Bool) : OnlyP p s (s.retP p b) := by
  refine ⟨by simp, fun r h => ?_, ?_, SameOthers.setThr _ _, SameOutside.setThr _ _, SameBytes.setThr _ _⟩
  · simp [State.getP, Slot.getP_setP_other _ h]
  · rw [State.thr_retP]; exact Slot.setP_rest _ _ _

/-- An instruction whose meaning ends in `retX` gives its value in X[d]. -/
theorem GivesX.of {i : Instr} {d : Reg} {v : Word} {s : State} (h : exec i s = .next (s.retX d v)) : GivesX i d v s :=
  ⟨_, h, by simp [State.getX], OnlyX.retX s d v⟩

/-- An instruction whose meaning ends in `retP` gives its value in P[p]. -/
theorem GivesP.of {i : Instr} {p : PReg} {v : Bool} {s : State} (h : exec i s = .next (s.retP p v)) : GivesP i p v s :=
  ⟨_, h, by simp [State.getP], OnlyP.retP s p v⟩

theorem guarded_true {g : Guard} {s : State} (h : s.guardOk g = true) (f : State → State) : guarded g f s = .next (f s) := by
  simp [guarded, h]

theorem guarded_false {g : Guard} {s : State} (h : s.guardOk g = false) (f : State → State) :
    guarded g f s = .next s.advance := by
  simp [guarded, h]

theorem kernelOnly_kernel {w : BitVec 32} {g : Guard} {s : State} (h : s.thr.prv ≠ .user) (f : State → State) :
    kernelOnly w g f s = guarded g f s := by
  simp [kernelOnly, h]

theorem kernelOnly_user {w : BitVec 32} {g : Guard} {s : State} (h : s.thr.prv = .user) (f : State → State) :
    kernelOnly w g f s = .next (s.trap .priv 0 (w.setWidth 64)) := by
  simp [kernelOnly, h]

/-- A jump changes only the pc. -/
theorem OnlyPc.jump (s : State) (pc : Word) : OnlyPc pc s (s.jump pc) := by
  refine ⟨by simp [State.jump], SameOthers.setThr _ _, SameOutside.setThr _ _, SameBytes.setThr _ _⟩

/-- A trap taken with NEST clear does what R362 says. -/
theorem Traps.trap (s : State) (c : Cause) (sub : Nat) (val : Word) (h : s.thr.nest = false) (hh : s.thr.held = false) :
    Traps c (BitVec.ofNat 64 sub) val s (s.trap c sub val) := by
  have e : s.trap c sub val = s.setThr { s.thr with
      st := .run, park := none, tepc := codeAddr s.thr.pc, tcause := BitVec.ofNat 8 c.code, tsub := BitVec.ofNat 64 sub, tval := val
      tnode := 0, pprv := s.thr.prv, prv := (if s.thr.prv = .user then .kernel else s.thr.prv), nest := true
      pc := s.thr.tvec } := by
    have h' : (s.slot s.tid).nest = false := h
    have hh' : (s.slot s.tid).held = false := hh
    unfold State.trap State.trapAt
    dsimp only
    rw [if_neg (by simp [hh']), if_neg (by simp [h'])]
    rfl
  rw [e]
  exact ⟨by simp, SameOthers.setThr _ _, SameOutside.setThr _ _, SameBytes.setThr _ _⟩

/-- A result that leaves the thread record's flags changed as well. -/
theorem OnlyXFlags.retX (s : State) (f : Flags) (d : Reg) (w : Word) :
    OnlyXFlags d s ((s.setThr { s.thr with fl := f }).retX d w) := by
  refine ⟨by simp, fun r h => ?_, ?_, fun u h => ?_, rfl, fun _ => rfl⟩
  · simp [State.getX, Slot.getX_setX_other _ h]; rfl
  · simp [State.retX, Slot.step, Slot.setX]; try (split <;> rfl)
  · exact (State.slot_setThr_other (s.setThr _) h _).trans (State.slot_setThr_other s h _)

theorem OnlyPFlags.retP (s : State) (f : Flags) (p : PReg) (b : Bool) :
    OnlyPFlags p s ((s.setThr { s.thr with fl := f }).retP p b) := by
  refine ⟨by simp, fun r h => ?_, ?_, fun u h => ?_, rfl, fun _ => rfl⟩
  · simp [State.getP, Slot.getP_setP_other _ h]; rfl
  · simp [State.retP, Slot.step, Slot.setP]; try (split <;> rfl)
  · exact (State.slot_setThr_other (s.setThr _) h _).trans (State.slot_setThr_other s h _)

/-- The lowest flag of a set that is not empty is in it, and none below it is. -/
theorem lowestFlag_spec (f : Flags) (h : f ≠ 0) :
    f.getLsbD (lowestFlag f) = true ∧ ∀ k, k < lowestFlag f → f.getLsbD k = false := by
  revert h; revert f; decide

/-- An enabled flag among those raised traps FPE. -/
theorem TrapsFpe.raise {i : Instr} {fl : Flags} {s : State} {go : State → State} (h : exec i s = .next (s.raise fl go))
    (he : fl &&& s.thr.en ≠ 0) (hn : s.thr.nest = false) (hh : s.thr.held = false) : TrapsFpe i fl s := by
  obtain ⟨h1, h2⟩ := lowestFlag_spec _ he
  refine ⟨_, _, h, h1, h2, ?_⟩
  have e : s.raise fl go = (s.setThr { s.thr with fl := s.thr.fl ||| fl }).trap .fpe (lowestFlag (fl &&& s.thr.en)) (fl.setWidth 64) := by
    simp only [State.raise, he, if_true, ne_eq, not_false_eq_true]
  rw [e]
  exact Traps.trap _ _ _ _ (by simp [hn]) (by simp [hh])

/-- An instruction whose meaning raises flags and then ends in `retX`. -/
theorem GivesFp.of {i : Instr} {d : Reg} {w : Word} {fl : Flags} {s : State}
    (h : exec i s = .next (s.raise fl (fun s => s.retX d w))) : GivesFp i d w fl s := by
  refine ⟨fun he => ?_, fun he hn hh => TrapsFpe.raise h he hn hh⟩
  have e : s.raise fl (fun s => s.retX d w) = (s.setThr { s.thr with fl := s.thr.fl ||| fl }).retX d w := by
    simp only [State.raise, he, ne_eq, not_true_eq_false, if_false]
  rw [e] at h
  refine ⟨_, h, by simp [State.getX], ?_, OnlyXFlags.retX _ _ _ _⟩
  simp [Slot.setX, Slot.step]; split <;> rfl

/-- The same for a compare. -/
theorem GivesFpP.of {i : Instr} {p : PReg} {b : Bool} {fl : Flags} {s : State}
    (h : exec i s = .next (s.raise fl (fun s => s.retP p b))) : GivesFpP i p b fl s := by
  refine ⟨fun he => ?_, fun he hn hh => TrapsFpe.raise h he hn hh⟩
  have e : s.raise fl (fun s => s.retP p b) = (s.setThr { s.thr with fl := s.thr.fl ||| fl }).retP p b := by
    simp only [State.raise, he, ne_eq, not_true_eq_false, if_false]
  rw [e] at h
  refine ⟨_, h, by simp [State.getP], ?_, OnlyPFlags.retP _ _ _ _⟩
  simp [Slot.setP, Slot.step]; split <;> rfl

theorem fpResult_next {g : Guard} {d : Reg} {f : State → Nat × Flags} {s : State} (hg : s.guardOk g = true) :
    fpResult g d f s = .next (s.raise (f s).2 (fun s' => s'.retX d (BitVec.ofNat 64 (f s).1))) := by
  simp only [fpResult, guarded_true hg]

/-- An instruction that is one `fpResult` gives its result and flags. -/
theorem GivesFp.fp {i : Instr} {g : Guard} {d : Reg} {f : State → Nat × Flags} {s : State} (he : exec i s = fpResult g d f s)
    (hg : s.guardOk g = true) : GivesFp i d (BitVec.ofNat 64 (f s).1) (f s).2 s :=
  GivesFp.of (he.trans (fpResult_next hg))

end Sys2Proof.Machine
end

