-- ==== Sys2Proof/Laws/PerInstr.lean ====
section
/-! SUPPORT. The codec family: the word of every well-formed instruction decodes to it (R39 to R45, R245). -/

namespace Sys2Proof

theorem Guard.code_lt (g : Guard) : g.code < 16 := by
  have := g.p.isLt; unfold Guard.code; split <;> omega

theorem Scope.code_lt (s : Scope) : s.code < 5 := by cases s <;> decide

theorem OrdSize.code_lt (z : OrdSize) : z.code < 5 := by cases z <;> decide

theorem scopeOf_code (s : Scope) : scopeOf s.code = some s := by cases s <;> rfl

theorem ordSizeOf_code (z : OrdSize) : ordSizeOf z.code = some z := by cases z <;> rfl

theorem packWord_toNat (g : Guard) {maj low : Nat} (hm : maj < 64) (hl : low < 4194304) :
    (packWord g maj low).toNat = g.code * 268435456 + maj * 4194304 + low := by
  have := g.code_lt
  simp only [packWord, BitVec.toNat_ofNat]
  omega

theorem wG_of (g : Guard) {n m k : Nat} (h : n = g.code * 268435456 + m * 4194304 + k) (hm : m < 63) (hk : k < 4194304) :
    wG n = g := by
  obtain ⟨neg, p⟩ := g
  have hp := p.isLt
  simp only [wG, Guard.code] at *
  cases neg <;> simp at h ⊢ <;> (refine ⟨by omega, ?_⟩ <;> ext <;> simp [Fin.ofNat] <;> omega)

/-- The fields of a format-R word (R39). -/
theorem fieldsR (g : Guard) {n m d a b f : Nat} (hn : n = g.code * 268435456 + m * 4194304 + (d * 65536 + a * 1024 + b * 16 + f))
    (hm : m < 63) (hd : d < 64) (ha : a < 64) (hb : b < 64) (hf : f < 16) :
    bitsOf n 22 6 = m ∧ bitsOf n 0 4 = f ∧ wG n = g ∧ n / 65536 % 64 = d ∧ n / 1024 % 64 = a ∧ n / 16 % 64 = b := by
  refine ⟨?_, ?_, wG_of g hn hm (by omega), ?_, ?_, ?_⟩
  · simp only [bitsOf, Nat.reducePow]; omega
  · simp only [bitsOf, Nat.reducePow]; omega
  · omega
  · omega
  · omega

/-- The fields of a format-I word (R39). -/
theorem fieldsI (g : Guard) {n m d a i : Nat} (hn : n = g.code * 268435456 + m * 4194304 + (d * 65536 + a * 1024 + i))
    (hm : m < 63) (hd : d < 64) (ha : a < 64) (hi : i < 1024) :
    bitsOf n 22 6 = m ∧ wG n = g ∧ n / 65536 % 64 = d ∧ n / 1024 % 64 = a ∧ n % 1024 = i := by
  refine ⟨?_, wG_of g hn hm (by omega), ?_, ?_, ?_⟩
  · simp only [bitsOf, Nat.reducePow]; omega
  · omega
  · omega
  · omega

end Sys2Proof

namespace Sys2Proof.Laws.Codec

open Sys2Proof

/-- What an instruction's word decodes to: a barrel word by R45, a node word by R245; the machine's own steps have no word. -/
def Statement (i : Instr) : Prop :=
  wellFormed i = true →
    match encode i, i.guard with
    | some w, some _ => decode w = .ok i
    | some w, none => decodeNode w = some i
    | none, _ => Machine.isEvent i = true

/-- A barrel word decodes to its instruction once its class decoder answers it. -/
theorem decode_ok {i : Instr} {g : Guard} {maj low : Nat} (hm : maj < 63) (hl : low < 4194304)
    (hr : majorReserved maj = false) (he : encode i = some (packWord g maj low)) (hg : i.guard = some g)
    (h : wellFormed i = true)
    (hd : ∀ n, n = g.code * 268435456 + maj * 4194304 + low → decodeRaw n = .ok (0, i)) :
    match encode i, i.guard with
    | some w, some _ => decode w = .ok i
    | some w, none => decodeNode w = some i
    | none, _ => Machine.isEvent i = true := by
  have hc := g.code_lt
  have hn := packWord_toNat g (show maj < 64 by omega) hl
  have h1 : (packWord g maj low).toNat ≠ 0xFFFFFFFF := by omega
  have h2 : bitsOf (packWord g maj low).toNat 22 6 = maj := by simp only [bitsOf, Nat.reducePow]; omega
  have h3 : wG (packWord g maj low).toNat = g := wG_of g hn hm hl
  simp only [wellFormed, guardBad, hg, Bool.and_eq_true, Bool.not_eq_true'] at h
  obtain ⟨⟨⟨⟨h4, h5⟩, h6⟩, h7⟩, -⟩ := h
  simp only [he, hg, decode, h1, h2, h3, hr, hd _ hn, h4, h5, h6, h7]
  simp

/-- A node word decodes to its node once the opcode's arm answers it. -/
theorem node_ok {i : Instr} {op m : Nat} {a b : BitVec 9} (hop : op < 256) (hm : m < 64)
    (he : encode i = some (packNode op a b m)) (hg : i.guard = none)
    (hd : ∀ w : BitVec 32, bitsOf w.toNat 24 8 = op → BitVec.ofNat 9 (w.toNat / 32768) = a → BitVec.ofNat 9 (w.toNat / 64) = b →
      BitVec.ofNat 6 w.toNat = BitVec.ofNat 6 m → decodeNode w = some i) :
    match encode i, i.guard with
    | some w, some _ => decode w = .ok i
    | some w, none => decodeNode w = some i
    | none, _ => Machine.isEvent i = true := by
  have ha := a.isLt
  have hb := b.isLt
  have hn : (packNode op a b m).toNat = op * 16777216 + a.toNat * 32768 + b.toNat * 64 + m := by
    simp only [packNode, BitVec.toNat_ofNat]; omega
  simp only [he, hg]
  apply hd
  · simp only [bitsOf, Nat.reducePow]; omega
  · apply BitVec.eq_of_toNat_eq; simp only [BitVec.toNat_ofNat]; omega
  · apply BitVec.eq_of_toNat_eq; simp only [BitVec.toNat_ofNat]; omega
  · apply BitVec.eq_of_toNat_eq; simp only [BitVec.toNat_ofNat]; omega

end Sys2Proof.Laws.Codec

namespace Sys2Proof.Laws.Codec

open Sys2Proof

set_option Elab.async false in
theorem raw_0 {n : Nat} (h : bitsOf n 22 6 = 0) : decodeRaw n = decodeMisc n := by simp only [decodeRaw, h]
set_option Elab.async false in
theorem raw_1 {n : Nat} (h : bitsOf n 22 6 = 1) : decodeRaw n = decodeAlu n := by simp only [decodeRaw, h]
set_option Elab.async false in
theorem raw_2 {n : Nat} (h : bitsOf n 22 6 = 2) : decodeRaw n = decodeAluw n := by simp only [decodeRaw, h]
set_option Elab.async false in
theorem raw_3 {n : Nat} (h : bitsOf n 22 6 = 3) : decodeRaw n = decodeBit n := by simp only [decodeRaw, h]
set_option Elab.async false in
theorem raw_4 {n : Nat} (h : bitsOf n 22 6 = 4) : decodeRaw n = .ok (0, .addi (wG n) (wD n) (wA n) (BitVec.ofNat 10 n)) := by simp only [decodeRaw, h]
theorem raw_5 {n : Nat} (h : bitsOf n 22 6 = 5) : decodeRaw n = .ok (0, .andi (wG n) (wD n) (wA n) (BitVec.ofNat 10 n)) := by simp only [decodeRaw, h]
theorem raw_6 {n : Nat} (h : bitsOf n 22 6 = 6) : decodeRaw n = .ok (0, .ori (wG n) (wD n) (wA n) (BitVec.ofNat 10 n)) := by simp only [decodeRaw, h]
theorem raw_7 {n : Nat} (h : bitsOf n 22 6 = 7) : decodeRaw n = .ok (0, .xori (wG n) (wD n) (wA n) (BitVec.ofNat 10 n)) := by simp only [decodeRaw, h]
set_option Elab.async false in
theorem raw_8 {n : Nat} (h : bitsOf n 22 6 = 8) : decodeRaw n = decodeShifti n := by simp only [decodeRaw, h]
theorem raw_9 {n : Nat} (h : bitsOf n 22 6 = 9) : decodeRaw n = .ok (0, .lui (wG n) (wD n) (BitVec.ofNat 16 n)) := by simp only [decodeRaw, h]
theorem raw_10 {n : Nat} (h : bitsOf n 22 6 = 10) : decodeRaw n = .ok (0, .lix (wG n) (wD n) (BitVec.ofNat 16 n)) := by simp only [decodeRaw, h]
set_option Elab.async false in
theorem raw_11 {n : Nat} (h : bitsOf n 22 6 = 11) : decodeRaw n = decodeScale n := by simp only [decodeRaw, h]
set_option Elab.async false in
theorem raw_12 {n : Nat} (h : bitsOf n 22 6 = 12) : decodeRaw n = decodeCmp n := by simp only [decodeRaw, h]
set_option Elab.async false in
theorem raw_13 {n : Nat} (h : bitsOf n 22 6 = 13) : decodeRaw n = decodeCmpi n := by simp only [decodeRaw, h]
set_option Elab.async false in
theorem raw_14 {n : Nat} (h : bitsOf n 22 6 = 14) : decodeRaw n = decodePred n := by simp only [decodeRaw, h]
set_option Elab.async false in
theorem raw_16 {n : Nat} (h : bitsOf n 22 6 = 16) : decodeRaw n = decodeFp32 n := by simp only [decodeRaw, h]
set_option Elab.async false in
theorem raw_17 {n : Nat} (h : bitsOf n 22 6 = 17) : decodeRaw n = decodeFp64 n := by simp only [decodeRaw, h]
set_option Elab.async false in
theorem raw_18 {n : Nat} (h : bitsOf n 22 6 = 18) : decodeRaw n = decodeFma n := by simp only [decodeRaw, h]
set_option Elab.async false in
theorem raw_19 {n : Nat} (h : bitsOf n 22 6 = 19) : decodeRaw n = decodeFcmp n := by simp only [decodeRaw, h]
set_option Elab.async false in
theorem raw_20 {n : Nat} (h : bitsOf n 22 6 = 20) : decodeRaw n = decodeCvt n := by simp only [decodeRaw, h]
theorem raw_21 {n : Nat} (h : bitsOf n 22 6 = 21) : decodeRaw n = .ok (0, .br (wG n) (BitVec.ofNat 22 n)) := by simp only [decodeRaw, h]
theorem raw_22 {n : Nat} (h : bitsOf n 22 6 = 22) : decodeRaw n = .ok (0, .call (wG n) (BitVec.ofNat 22 n)) := by simp only [decodeRaw, h]
theorem raw_23 {n : Nat} (h : bitsOf n 22 6 = 23) : decodeRaw n = .ok (0, .jalr (wG n) (wD n) (wA n) (BitVec.ofNat 10 n)) := by simp only [decodeRaw, h]
set_option Elab.async false in
theorem raw_24 {n : Nat} (h : bitsOf n 22 6 = 24) : decodeRaw n = decodeThread n := by simp only [decodeRaw, h]
set_option Elab.async false in
theorem raw_25 {n : Nat} (h : bitsOf n 22 6 = 25) : decodeRaw n = decodeMsg n := by simp only [decodeRaw, h]
theorem raw_32 {n : Nat} (h : bitsOf n 22 6 = 32) : decodeRaw n = .ok (0, .lb (wG n) (wD n) (wA n) (BitVec.ofNat 10 n)) := by simp only [decodeRaw, h]
theorem raw_33 {n : Nat} (h : bitsOf n 22 6 = 33) : decodeRaw n = .ok (0, .lbu (wG n) (wD n) (wA n) (BitVec.ofNat 10 n)) := by simp only [decodeRaw, h]
theorem raw_34 {n : Nat} (h : bitsOf n 22 6 = 34) : decodeRaw n = .ok (0, .lh (wG n) (wD n) (wA n) (BitVec.ofNat 10 n)) := by simp only [decodeRaw, h]
theorem raw_35 {n : Nat} (h : bitsOf n 22 6 = 35) : decodeRaw n = .ok (0, .lhu (wG n) (wD n) (wA n) (BitVec.ofNat 10 n)) := by simp only [decodeRaw, h]
theorem raw_36 {n : Nat} (h : bitsOf n 22 6 = 36) : decodeRaw n = .ok (0, .lw (wG n) (wD n) (wA n) (BitVec.ofNat 10 n)) := by simp only [decodeRaw, h]
theorem raw_37 {n : Nat} (h : bitsOf n 22 6 = 37) : decodeRaw n = .ok (0, .lwu (wG n) (wD n) (wA n) (BitVec.ofNat 10 n)) := by simp only [decodeRaw, h]
theorem raw_38 {n : Nat} (h : bitsOf n 22 6 = 38) : decodeRaw n = .ok (0, .ld (wG n) (wD n) (wA n) (BitVec.ofNat 10 n)) := by simp only [decodeRaw, h]
theorem raw_39 {n : Nat} (h : bitsOf n 22 6 = 39) : decodeRaw n = .ok (0, .lq (wG n) (wD n) (wA n) (BitVec.ofNat 10 n)) := by simp only [decodeRaw, h]
theorem raw_40 {n : Nat} (h : bitsOf n 22 6 = 40) : decodeRaw n = .ok (0, .sb (wG n) (wD n) (wA n) (BitVec.ofNat 10 n)) := by simp only [decodeRaw, h]
theorem raw_41 {n : Nat} (h : bitsOf n 22 6 = 41) : decodeRaw n = .ok (0, .sh (wG n) (wD n) (wA n) (BitVec.ofNat 10 n)) := by simp only [decodeRaw, h]
theorem raw_42 {n : Nat} (h : bitsOf n 22 6 = 42) : decodeRaw n = .ok (0, .sw (wG n) (wD n) (wA n) (BitVec.ofNat 10 n)) := by simp only [decodeRaw, h]
theorem raw_43 {n : Nat} (h : bitsOf n 22 6 = 43) : decodeRaw n = .ok (0, .sd (wG n) (wD n) (wA n) (BitVec.ofNat 10 n)) := by simp only [decodeRaw, h]
theorem raw_44 {n : Nat} (h : bitsOf n 22 6 = 44) : decodeRaw n = .ok (0, .sq (wG n) (wD n) (wA n) (BitVec.ofNat 10 n)) := by simp only [decodeRaw, h]
set_option Elab.async false in
theorem raw_45 {n : Nat} (h : bitsOf n 22 6 = 45) : decodeRaw n = decodeOrd n := by simp only [decodeRaw, h]
set_option Elab.async false in
theorem raw_46 {n : Nat} (h : bitsOf n 22 6 = 46) : decodeRaw n = decodeSyncw n := by simp only [decodeRaw, h]
set_option Elab.async false in
theorem raw_47 {n : Nat} (h : bitsOf n 22 6 = 47) : decodeRaw n = decodeAmoD n := by simp only [decodeRaw, h]
set_option Elab.async false in
theorem raw_48 {n : Nat} (h : bitsOf n 22 6 = 48) : decodeRaw n = decodeAmoW n := by simp only [decodeRaw, h]
set_option Elab.async false in
theorem raw_49 {n : Nat} (h : bitsOf n 22 6 = 49) : decodeRaw n = decodeFence n := by simp only [decodeRaw, h]
set_option Elab.async false in
theorem raw_50 {n : Nat} (h : bitsOf n 22 6 = 50) : decodeRaw n = decodeCache n := by simp only [decodeRaw, h]
set_option Elab.async false in
theorem raw_51 {n : Nat} (h : bitsOf n 22 6 = 51) : decodeRaw n = decodeGroup n := by simp only [decodeRaw, h]
set_option Elab.async false in
theorem raw_52 {n : Nat} (h : bitsOf n 22 6 = 52) : decodeRaw n = decodeFrag n := by simp only [decodeRaw, h]
set_option Elab.async false in
theorem raw_54 {n : Nat} (h : bitsOf n 22 6 = 54) : decodeRaw n = decodeServe n := by simp only [decodeRaw, h]
set_option Elab.async false in
theorem raw_55 {n : Nat} (h : bitsOf n 22 6 = 55) : decodeRaw n = decodeMatrix n := by simp only [decodeRaw, h]
set_option Elab.async false in
theorem raw_56 {n : Nat} (h : bitsOf n 22 6 = 56) : decodeRaw n = decodeCopy n := by simp only [decodeRaw, h]
set_option Elab.async false in
theorem raw_57 {n : Nat} (h : bitsOf n 22 6 = 57) : decodeRaw n = decodeMerge n := by simp only [decodeRaw, h]
theorem raw_58 {n : Nat} (h : bitsOf n 22 6 = 58) : decodeRaw n = .ok (0, .csrrw (wG n) (wD n) (wA n) (BitVec.ofNat 10 n)) := by simp only [decodeRaw, h]
theorem raw_59 {n : Nat} (h : bitsOf n 22 6 = 59) : decodeRaw n = .ok (0, .csrrs (wG n) (wD n) (wA n) (BitVec.ofNat 10 n)) := by simp only [decodeRaw, h]
theorem raw_60 {n : Nat} (h : bitsOf n 22 6 = 60) : decodeRaw n = .ok (0, .csrrc (wG n) (wD n) (wA n) (BitVec.ofNat 10 n)) := by simp only [decodeRaw, h]
set_option Elab.async false in
theorem raw_61 {n : Nat} (h : bitsOf n 22 6 = 61) : decodeRaw n = decodeKern n := by simp only [decodeRaw, h]
set_option Elab.async false in
theorem raw_62 {n : Nat} (h : bitsOf n 22 6 = 62) : decodeRaw n = decodeTrace n := by simp only [decodeRaw, h]

theorem nop (g : Guard) : Statement (.nop g) := by
  intro h
  have hb : 0 < 64 := by decide
  have hl : 0 * 65536 + 0 * 1024 + 0 * 16 + 0 < 4194304 := by decide
  refine decode_ok (g := g) (maj := 0) (low := 0 * 65536 + 0 * 1024 + 0 * 16 + 0) (by omega) hl rfl rfl rfl h ?_
  intro w hw
  have hc := g.code_lt
  have F := fieldsR g hw (by omega) (by omega) (by omega) hb (by omega)
  have e1 := F.1
  have e2 := F.2.1
  have eg := F.2.2.1
  have ez : bitsOf w 4 18 = 0 := by
    simp only [bitsOf, Nat.reducePow]
    omega
  rw [raw_0 e1]
  simp only [e2, eg, decodeMisc, ez]

theorem ebrk (g : Guard) : Statement (.ebrk g) := by
  intro h
  have hb : 0 < 64 := by decide
  have hl : 0 * 65536 + 0 * 1024 + 0 * 16 + 1 < 4194304 := by decide
  refine decode_ok (g := g) (maj := 0) (low := 0 * 65536 + 0 * 1024 + 0 * 16 + 1) (by omega) hl rfl rfl rfl h ?_
  intro w hw
  have hc := g.code_lt
  have F := fieldsR g hw (by omega) (by omega) (by omega) hb (by omega)
  have e1 := F.1
  have e2 := F.2.1
  have eg := F.2.2.1
  have ez : bitsOf w 4 18 = 0 := by
    simp only [bitsOf, Nat.reducePow]
    omega
  rw [raw_0 e1]
  simp only [e2, eg, decodeMisc, ez]

theorem ecall (g : Guard) : Statement (.ecall g) := by
  intro h
  have hb : 0 < 64 := by decide
  have hl : 0 * 65536 + 0 * 1024 + 0 * 16 + 2 < 4194304 := by decide
  refine decode_ok (g := g) (maj := 0) (low := 0 * 65536 + 0 * 1024 + 0 * 16 + 2) (by omega) hl rfl rfl rfl h ?_
  intro w hw
  have hc := g.code_lt
  have F := fieldsR g hw (by omega) (by omega) (by omega) hb (by omega)
  have e1 := F.1
  have e2 := F.2.1
  have eg := F.2.2.1
  have ez : bitsOf w 4 18 = 0 := by
    simp only [bitsOf, Nat.reducePow]
    omega
  rw [raw_0 e1]
  simp only [e2, eg, decodeMisc, ez]

theorem tret (g : Guard) : Statement (.tret g) := by
  intro h
  have hb : 0 < 64 := by decide
  have hl : 0 * 65536 + 0 * 1024 + 0 * 16 + 3 < 4194304 := by decide
  refine decode_ok (g := g) (maj := 0) (low := 0 * 65536 + 0 * 1024 + 0 * 16 + 3) (by omega) hl rfl rfl rfl h ?_
  intro w hw
  have hc := g.code_lt
  have F := fieldsR g hw (by omega) (by omega) (by omega) hb (by omega)
  have e1 := F.1
  have e2 := F.2.1
  have eg := F.2.2.1
  have ez : bitsOf w 4 18 = 0 := by
    simp only [bitsOf, Nat.reducePow]
    omega
  rw [raw_0 e1]
  simp only [e2, eg, decodeMisc, ez]

set_option Elab.async false in
theorem rdcyc (g : Guard) (d : Reg) : Statement (.rdcyc g d) := by
  intro h
  have h_d := d.isLt
  have hb : 0 < 64 := by decide
  have hl : d.val * 65536 + 0 * 1024 + 0 * 16 + 4 < 4194304 := by omega
  refine decode_ok (g := g) (maj := 0) (low := d.val * 65536 + 0 * 1024 + 0 * 16 + 4) (by omega) hl rfl rfl rfl h ?_
  intro w hw
  have hc := g.code_lt
  have F := fieldsR g hw (by omega) (by omega) (by omega) hb (by omega)
  have e1 := F.1
  have e2 := F.2.1
  have eg := F.2.2.1
  have f1 : wD w = d := Fin.ext F.2.2.2.1
  have ez : bitsOf w 4 12 = 0 := by
    simp only [bitsOf, Nat.reducePow]
    omega
  rw [raw_0 e1]
  simp only [e2, f1, eg, decodeMisc, ez]

theorem rdtime (g : Guard) (d : Reg) : Statement (.rdtime g d) := by
  intro h
  have h_d := d.isLt
  have hb : 0 < 64 := by decide
  have hl : d.val * 65536 + 0 * 1024 + 0 * 16 + 5 < 4194304 := by omega
  refine decode_ok (g := g) (maj := 0) (low := d.val * 65536 + 0 * 1024 + 0 * 16 + 5) (by omega) hl rfl rfl rfl h ?_
  intro w hw
  have hc := g.code_lt
  have F := fieldsR g hw (by omega) (by omega) (by omega) hb (by omega)
  have e1 := F.1
  have e2 := F.2.1
  have eg := F.2.2.1
  have f1 : wD w = d := Fin.ext F.2.2.2.1
  have ez : bitsOf w 4 12 = 0 := by
    simp only [bitsOf, Nat.reducePow]
    omega
  rw [raw_0 e1]
  simp only [e2, f1, eg, decodeMisc, ez]

theorem tid (g : Guard) (d : Reg) : Statement (.tid g d) := by
  intro h
  have h_d := d.isLt
  have hb : 0 < 64 := by decide
  have hl : d.val * 65536 + 0 * 1024 + 0 * 16 + 6 < 4194304 := by omega
  refine decode_ok (g := g) (maj := 0) (low := d.val * 65536 + 0 * 1024 + 0 * 16 + 6) (by omega) hl rfl rfl rfl h ?_
  intro w hw
  have hc := g.code_lt
  have F := fieldsR g hw (by omega) (by omega) (by omega) hb (by omega)
  have e1 := F.1
  have e2 := F.2.1
  have eg := F.2.2.1
  have f1 : wD w = d := Fin.ext F.2.2.2.1
  have ez : bitsOf w 4 12 = 0 := by
    simp only [bitsOf, Nat.reducePow]
    omega
  rw [raw_0 e1]
  simp only [e2, f1, eg, decodeMisc, ez]

theorem gtid (g : Guard) (d : Reg) : Statement (.gtid g d) := by
  intro h
  have h_d := d.isLt
  have hb : 0 < 64 := by decide
  have hl : d.val * 65536 + 0 * 1024 + 0 * 16 + 7 < 4194304 := by omega
  refine decode_ok (g := g) (maj := 0) (low := d.val * 65536 + 0 * 1024 + 0 * 16 + 7) (by omega) hl rfl rfl rfl h ?_
  intro w hw
  have hc := g.code_lt
  have F := fieldsR g hw (by omega) (by omega) (by omega) hb (by omega)
  have e1 := F.1
  have e2 := F.2.1
  have eg := F.2.2.1
  have f1 : wD w = d := Fin.ext F.2.2.2.1
  have ez : bitsOf w 4 12 = 0 := by
    simp only [bitsOf, Nat.reducePow]
    omega
  rw [raw_0 e1]
  simp only [e2, f1, eg, decodeMisc, ez]

theorem add (g : Guard) (d : Reg) (a : Reg) (b : Reg) : Statement (.add g d a b) := by
  intro h
  have h_d := d.isLt
  have h_a := a.isLt
  have h_b := b.isLt
  have hb : b.val < 64 := by omega
  have hl : d.val * 65536 + a.val * 1024 + b.val * 16 + 0 < 4194304 := by omega
  refine decode_ok (g := g) (maj := 1) (low := d.val * 65536 + a.val * 1024 + b.val * 16 + 0) (by omega) hl rfl rfl rfl h ?_
  intro w hw
  have hc := g.code_lt
  have F := fieldsR g hw (by omega) (by omega) (by omega) hb (by omega)
  have e1 := F.1
  have e2 := F.2.1
  have eg := F.2.2.1
  have f1 : wD w = d := Fin.ext F.2.2.2.1
  have f2 : wA w = a := Fin.ext F.2.2.2.2.1
  have f3 : wB w = b := Fin.ext F.2.2.2.2.2
  rw [raw_1 e1]
  simp only [e2, f1, f2, f3, eg, decodeAlu]

theorem sub (g : Guard) (d : Reg) (a : Reg) (b : Reg) : Statement (.sub g d a b) := by
  intro h
  have h_d := d.isLt
  have h_a := a.isLt
  have h_b := b.isLt
  have hb : b.val < 64 := by omega
  have hl : d.val * 65536 + a.val * 1024 + b.val * 16 + 1 < 4194304 := by omega
  refine decode_ok (g := g) (maj := 1) (low := d.val * 65536 + a.val * 1024 + b.val * 16 + 1) (by omega) hl rfl rfl rfl h ?_
  intro w hw
  have hc := g.code_lt
  have F := fieldsR g hw (by omega) (by omega) (by omega) hb (by omega)
  have e1 := F.1
  have e2 := F.2.1
  have eg := F.2.2.1
  have f1 : wD w = d := Fin.ext F.2.2.2.1
  have f2 : wA w = a := Fin.ext F.2.2.2.2.1
  have f3 : wB w = b := Fin.ext F.2.2.2.2.2
  rw [raw_1 e1]
  simp only [e2, f1, f2, f3, eg, decodeAlu]

theorem mul (g : Guard) (d : Reg) (a : Reg) (b : Reg) : Statement (.mul g d a b) := by
  intro h
  have h_d := d.isLt
  have h_a := a.isLt
  have h_b := b.isLt
  have hb : b.val < 64 := by omega
  have hl : d.val * 65536 + a.val * 1024 + b.val * 16 + 2 < 4194304 := by omega
  refine decode_ok (g := g) (maj := 1) (low := d.val * 65536 + a.val * 1024 + b.val * 16 + 2) (by omega) hl rfl rfl rfl h ?_
  intro w hw
  have hc := g.code_lt
  have F := fieldsR g hw (by omega) (by omega) (by omega) hb (by omega)
  have e1 := F.1
  have e2 := F.2.1
  have eg := F.2.2.1
  have f1 : wD w = d := Fin.ext F.2.2.2.1
  have f2 : wA w = a := Fin.ext F.2.2.2.2.1
  have f3 : wB w = b := Fin.ext F.2.2.2.2.2
  rw [raw_1 e1]
  simp only [e2, f1, f2, f3, eg, decodeAlu]

theorem mulh (g : Guard) (d : Reg) (a : Reg) (b : Reg) : Statement (.mulh g d a b) := by
  intro h
  have h_d := d.isLt
  have h_a := a.isLt
  have h_b := b.isLt
  have hb : b.val < 64 := by omega
  have hl : d.val * 65536 + a.val * 1024 + b.val * 16 + 3 < 4194304 := by omega
  refine decode_ok (g := g) (maj := 1) (low := d.val * 65536 + a.val * 1024 + b.val * 16 + 3) (by omega) hl rfl rfl rfl h ?_
  intro w hw
  have hc := g.code_lt
  have F := fieldsR g hw (by omega) (by omega) (by omega) hb (by omega)
  have e1 := F.1
  have e2 := F.2.1
  have eg := F.2.2.1
  have f1 : wD w = d := Fin.ext F.2.2.2.1
  have f2 : wA w = a := Fin.ext F.2.2.2.2.1
  have f3 : wB w = b := Fin.ext F.2.2.2.2.2
  rw [raw_1 e1]
  simp only [e2, f1, f2, f3, eg, decodeAlu]

theorem mulhu (g : Guard) (d : Reg) (a : Reg) (b : Reg) : Statement (.mulhu g d a b) := by
  intro h
  have h_d := d.isLt
  have h_a := a.isLt
  have h_b := b.isLt
  have hb : b.val < 64 := by omega
  have hl : d.val * 65536 + a.val * 1024 + b.val * 16 + 4 < 4194304 := by omega
  refine decode_ok (g := g) (maj := 1) (low := d.val * 65536 + a.val * 1024 + b.val * 16 + 4) (by omega) hl rfl rfl rfl h ?_
  intro w hw
  have hc := g.code_lt
  have F := fieldsR g hw (by omega) (by omega) (by omega) hb (by omega)
  have e1 := F.1
  have e2 := F.2.1
  have eg := F.2.2.1
  have f1 : wD w = d := Fin.ext F.2.2.2.1
  have f2 : wA w = a := Fin.ext F.2.2.2.2.1
  have f3 : wB w = b := Fin.ext F.2.2.2.2.2
  rw [raw_1 e1]
  simp only [e2, f1, f2, f3, eg, decodeAlu]

theorem div (g : Guard) (d : Reg) (a : Reg) (b : Reg) : Statement (.div g d a b) := by
  intro h
  have h_d := d.isLt
  have h_a := a.isLt
  have h_b := b.isLt
  have hb : b.val < 64 := by omega
  have hl : d.val * 65536 + a.val * 1024 + b.val * 16 + 5 < 4194304 := by omega
  refine decode_ok (g := g) (maj := 1) (low := d.val * 65536 + a.val * 1024 + b.val * 16 + 5) (by omega) hl rfl rfl rfl h ?_
  intro w hw
  have hc := g.code_lt
  have F := fieldsR g hw (by omega) (by omega) (by omega) hb (by omega)
  have e1 := F.1
  have e2 := F.2.1
  have eg := F.2.2.1
  have f1 : wD w = d := Fin.ext F.2.2.2.1
  have f2 : wA w = a := Fin.ext F.2.2.2.2.1
  have f3 : wB w = b := Fin.ext F.2.2.2.2.2
  rw [raw_1 e1]
  simp only [e2, f1, f2, f3, eg, decodeAlu]

theorem divu (g : Guard) (d : Reg) (a : Reg) (b : Reg) : Statement (.divu g d a b) := by
  intro h
  have h_d := d.isLt
  have h_a := a.isLt
  have h_b := b.isLt
  have hb : b.val < 64 := by omega
  have hl : d.val * 65536 + a.val * 1024 + b.val * 16 + 6 < 4194304 := by omega
  refine decode_ok (g := g) (maj := 1) (low := d.val * 65536 + a.val * 1024 + b.val * 16 + 6) (by omega) hl rfl rfl rfl h ?_
  intro w hw
  have hc := g.code_lt
  have F := fieldsR g hw (by omega) (by omega) (by omega) hb (by omega)
  have e1 := F.1
  have e2 := F.2.1
  have eg := F.2.2.1
  have f1 : wD w = d := Fin.ext F.2.2.2.1
  have f2 : wA w = a := Fin.ext F.2.2.2.2.1
  have f3 : wB w = b := Fin.ext F.2.2.2.2.2
  rw [raw_1 e1]
  simp only [e2, f1, f2, f3, eg, decodeAlu]

theorem rem (g : Guard) (d : Reg) (a : Reg) (b : Reg) : Statement (.rem g d a b) := by
  intro h
  have h_d := d.isLt
  have h_a := a.isLt
  have h_b := b.isLt
  have hb : b.val < 64 := by omega
  have hl : d.val * 65536 + a.val * 1024 + b.val * 16 + 7 < 4194304 := by omega
  refine decode_ok (g := g) (maj := 1) (low := d.val * 65536 + a.val * 1024 + b.val * 16 + 7) (by omega) hl rfl rfl rfl h ?_
  intro w hw
  have hc := g.code_lt
  have F := fieldsR g hw (by omega) (by omega) (by omega) hb (by omega)
  have e1 := F.1
  have e2 := F.2.1
  have eg := F.2.2.1
  have f1 : wD w = d := Fin.ext F.2.2.2.1
  have f2 : wA w = a := Fin.ext F.2.2.2.2.1
  have f3 : wB w = b := Fin.ext F.2.2.2.2.2
  rw [raw_1 e1]
  simp only [e2, f1, f2, f3, eg, decodeAlu]

theorem remu (g : Guard) (d : Reg) (a : Reg) (b : Reg) : Statement (.remu g d a b) := by
  intro h
  have h_d := d.isLt
  have h_a := a.isLt
  have h_b := b.isLt
  have hb : b.val < 64 := by omega
  have hl : d.val * 65536 + a.val * 1024 + b.val * 16 + 8 < 4194304 := by omega
  refine decode_ok (g := g) (maj := 1) (low := d.val * 65536 + a.val * 1024 + b.val * 16 + 8) (by omega) hl rfl rfl rfl h ?_
  intro w hw
  have hc := g.code_lt
  have F := fieldsR g hw (by omega) (by omega) (by omega) hb (by omega)
  have e1 := F.1
  have e2 := F.2.1
  have eg := F.2.2.1
  have f1 : wD w = d := Fin.ext F.2.2.2.1
  have f2 : wA w = a := Fin.ext F.2.2.2.2.1
  have f3 : wB w = b := Fin.ext F.2.2.2.2.2
  rw [raw_1 e1]
  simp only [e2, f1, f2, f3, eg, decodeAlu]

theorem and (g : Guard) (d : Reg) (a : Reg) (b : Reg) : Statement (.and g d a b) := by
  intro h
  have h_d := d.isLt
  have h_a := a.isLt
  have h_b := b.isLt
  have hb : b.val < 64 := by omega
  have hl : d.val * 65536 + a.val * 1024 + b.val * 16 + 9 < 4194304 := by omega
  refine decode_ok (g := g) (maj := 1) (low := d.val * 65536 + a.val * 1024 + b.val * 16 + 9) (by omega) hl rfl rfl rfl h ?_
  intro w hw
  have hc := g.code_lt
  have F := fieldsR g hw (by omega) (by omega) (by omega) hb (by omega)
  have e1 := F.1
  have e2 := F.2.1
  have eg := F.2.2.1
  have f1 : wD w = d := Fin.ext F.2.2.2.1
  have f2 : wA w = a := Fin.ext F.2.2.2.2.1
  have f3 : wB w = b := Fin.ext F.2.2.2.2.2
  rw [raw_1 e1]
  simp only [e2, f1, f2, f3, eg, decodeAlu]

theorem or (g : Guard) (d : Reg) (a : Reg) (b : Reg) : Statement (.or g d a b) := by
  intro h
  have h_d := d.isLt
  have h_a := a.isLt
  have h_b := b.isLt
  have hb : b.val < 64 := by omega
  have hl : d.val * 65536 + a.val * 1024 + b.val * 16 + 10 < 4194304 := by omega
  refine decode_ok (g := g) (maj := 1) (low := d.val * 65536 + a.val * 1024 + b.val * 16 + 10) (by omega) hl rfl rfl rfl h ?_
  intro w hw
  have hc := g.code_lt
  have F := fieldsR g hw (by omega) (by omega) (by omega) hb (by omega)
  have e1 := F.1
  have e2 := F.2.1
  have eg := F.2.2.1
  have f1 : wD w = d := Fin.ext F.2.2.2.1
  have f2 : wA w = a := Fin.ext F.2.2.2.2.1
  have f3 : wB w = b := Fin.ext F.2.2.2.2.2
  rw [raw_1 e1]
  simp only [e2, f1, f2, f3, eg, decodeAlu]

theorem xor (g : Guard) (d : Reg) (a : Reg) (b : Reg) : Statement (.xor g d a b) := by
  intro h
  have h_d := d.isLt
  have h_a := a.isLt
  have h_b := b.isLt
  have hb : b.val < 64 := by omega
  have hl : d.val * 65536 + a.val * 1024 + b.val * 16 + 11 < 4194304 := by omega
  refine decode_ok (g := g) (maj := 1) (low := d.val * 65536 + a.val * 1024 + b.val * 16 + 11) (by omega) hl rfl rfl rfl h ?_
  intro w hw
  have hc := g.code_lt
  have F := fieldsR g hw (by omega) (by omega) (by omega) hb (by omega)
  have e1 := F.1
  have e2 := F.2.1
  have eg := F.2.2.1
  have f1 : wD w = d := Fin.ext F.2.2.2.1
  have f2 : wA w = a := Fin.ext F.2.2.2.2.1
  have f3 : wB w = b := Fin.ext F.2.2.2.2.2
  rw [raw_1 e1]
  simp only [e2, f1, f2, f3, eg, decodeAlu]

theorem shl (g : Guard) (d : Reg) (a : Reg) (b : Reg) : Statement (.shl g d a b) := by
  intro h
  have h_d := d.isLt
  have h_a := a.isLt
  have h_b := b.isLt
  have hb : b.val < 64 := by omega
  have hl : d.val * 65536 + a.val * 1024 + b.val * 16 + 12 < 4194304 := by omega
  refine decode_ok (g := g) (maj := 1) (low := d.val * 65536 + a.val * 1024 + b.val * 16 + 12) (by omega) hl rfl rfl rfl h ?_
  intro w hw
  have hc := g.code_lt
  have F := fieldsR g hw (by omega) (by omega) (by omega) hb (by omega)
  have e1 := F.1
  have e2 := F.2.1
  have eg := F.2.2.1
  have f1 : wD w = d := Fin.ext F.2.2.2.1
  have f2 : wA w = a := Fin.ext F.2.2.2.2.1
  have f3 : wB w = b := Fin.ext F.2.2.2.2.2
  rw [raw_1 e1]
  simp only [e2, f1, f2, f3, eg, decodeAlu]

theorem shr (g : Guard) (d : Reg) (a : Reg) (b : Reg) : Statement (.shr g d a b) := by
  intro h
  have h_d := d.isLt
  have h_a := a.isLt
  have h_b := b.isLt
  have hb : b.val < 64 := by omega
  have hl : d.val * 65536 + a.val * 1024 + b.val * 16 + 13 < 4194304 := by omega
  refine decode_ok (g := g) (maj := 1) (low := d.val * 65536 + a.val * 1024 + b.val * 16 + 13) (by omega) hl rfl rfl rfl h ?_
  intro w hw
  have hc := g.code_lt
  have F := fieldsR g hw (by omega) (by omega) (by omega) hb (by omega)
  have e1 := F.1
  have e2 := F.2.1
  have eg := F.2.2.1
  have f1 : wD w = d := Fin.ext F.2.2.2.1
  have f2 : wA w = a := Fin.ext F.2.2.2.2.1
  have f3 : wB w = b := Fin.ext F.2.2.2.2.2
  rw [raw_1 e1]
  simp only [e2, f1, f2, f3, eg, decodeAlu]

theorem sra (g : Guard) (d : Reg) (a : Reg) (b : Reg) : Statement (.sra g d a b) := by
  intro h
  have h_d := d.isLt
  have h_a := a.isLt
  have h_b := b.isLt
  have hb : b.val < 64 := by omega
  have hl : d.val * 65536 + a.val * 1024 + b.val * 16 + 14 < 4194304 := by omega
  refine decode_ok (g := g) (maj := 1) (low := d.val * 65536 + a.val * 1024 + b.val * 16 + 14) (by omega) hl rfl rfl rfl h ?_
  intro w hw
  have hc := g.code_lt
  have F := fieldsR g hw (by omega) (by omega) (by omega) hb (by omega)
  have e1 := F.1
  have e2 := F.2.1
  have eg := F.2.2.1
  have f1 : wD w = d := Fin.ext F.2.2.2.1
  have f2 : wA w = a := Fin.ext F.2.2.2.2.1
  have f3 : wB w = b := Fin.ext F.2.2.2.2.2
  rw [raw_1 e1]
  simp only [e2, f1, f2, f3, eg, decodeAlu]

theorem rot (g : Guard) (d : Reg) (a : Reg) (b : Reg) : Statement (.rot g d a b) := by
  intro h
  have h_d := d.isLt
  have h_a := a.isLt
  have h_b := b.isLt
  have hb : b.val < 64 := by omega
  have hl : d.val * 65536 + a.val * 1024 + b.val * 16 + 15 < 4194304 := by omega
  refine decode_ok (g := g) (maj := 1) (low := d.val * 65536 + a.val * 1024 + b.val * 16 + 15) (by omega) hl rfl rfl rfl h ?_
  intro w hw
  have hc := g.code_lt
  have F := fieldsR g hw (by omega) (by omega) (by omega) hb (by omega)
  have e1 := F.1
  have e2 := F.2.1
  have eg := F.2.2.1
  have f1 : wD w = d := Fin.ext F.2.2.2.1
  have f2 : wA w = a := Fin.ext F.2.2.2.2.1
  have f3 : wB w = b := Fin.ext F.2.2.2.2.2
  rw [raw_1 e1]
  simp only [e2, f1, f2, f3, eg, decodeAlu]

theorem addw (g : Guard) (d : Reg) (a : Reg) (b : Reg) : Statement (.addw g d a b) := by
  intro h
  have h_d := d.isLt
  have h_a := a.isLt
  have h_b := b.isLt
  have hb : b.val < 64 := by omega
  have hl : d.val * 65536 + a.val * 1024 + b.val * 16 + 0 < 4194304 := by omega
  refine decode_ok (g := g) (maj := 2) (low := d.val * 65536 + a.val * 1024 + b.val * 16 + 0) (by omega) hl rfl rfl rfl h ?_
  intro w hw
  have hc := g.code_lt
  have F := fieldsR g hw (by omega) (by omega) (by omega) hb (by omega)
  have e1 := F.1
  have e2 := F.2.1
  have eg := F.2.2.1
  have f1 : wD w = d := Fin.ext F.2.2.2.1
  have f2 : wA w = a := Fin.ext F.2.2.2.2.1
  have f3 : wB w = b := Fin.ext F.2.2.2.2.2
  rw [raw_2 e1]
  simp only [e2, f1, f2, f3, eg, decodeAluw]

theorem subw (g : Guard) (d : Reg) (a : Reg) (b : Reg) : Statement (.subw g d a b) := by
  intro h
  have h_d := d.isLt
  have h_a := a.isLt
  have h_b := b.isLt
  have hb : b.val < 64 := by omega
  have hl : d.val * 65536 + a.val * 1024 + b.val * 16 + 1 < 4194304 := by omega
  refine decode_ok (g := g) (maj := 2) (low := d.val * 65536 + a.val * 1024 + b.val * 16 + 1) (by omega) hl rfl rfl rfl h ?_
  intro w hw
  have hc := g.code_lt
  have F := fieldsR g hw (by omega) (by omega) (by omega) hb (by omega)
  have e1 := F.1
  have e2 := F.2.1
  have eg := F.2.2.1
  have f1 : wD w = d := Fin.ext F.2.2.2.1
  have f2 : wA w = a := Fin.ext F.2.2.2.2.1
  have f3 : wB w = b := Fin.ext F.2.2.2.2.2
  rw [raw_2 e1]
  simp only [e2, f1, f2, f3, eg, decodeAluw]

theorem mulw (g : Guard) (d : Reg) (a : Reg) (b : Reg) : Statement (.mulw g d a b) := by
  intro h
  have h_d := d.isLt
  have h_a := a.isLt
  have h_b := b.isLt
  have hb : b.val < 64 := by omega
  have hl : d.val * 65536 + a.val * 1024 + b.val * 16 + 2 < 4194304 := by omega
  refine decode_ok (g := g) (maj := 2) (low := d.val * 65536 + a.val * 1024 + b.val * 16 + 2) (by omega) hl rfl rfl rfl h ?_
  intro w hw
  have hc := g.code_lt
  have F := fieldsR g hw (by omega) (by omega) (by omega) hb (by omega)
  have e1 := F.1
  have e2 := F.2.1
  have eg := F.2.2.1
  have f1 : wD w = d := Fin.ext F.2.2.2.1
  have f2 : wA w = a := Fin.ext F.2.2.2.2.1
  have f3 : wB w = b := Fin.ext F.2.2.2.2.2
  rw [raw_2 e1]
  simp only [e2, f1, f2, f3, eg, decodeAluw]

theorem shlw (g : Guard) (d : Reg) (a : Reg) (b : Reg) : Statement (.shlw g d a b) := by
  intro h
  have h_d := d.isLt
  have h_a := a.isLt
  have h_b := b.isLt
  have hb : b.val < 64 := by omega
  have hl : d.val * 65536 + a.val * 1024 + b.val * 16 + 3 < 4194304 := by omega
  refine decode_ok (g := g) (maj := 2) (low := d.val * 65536 + a.val * 1024 + b.val * 16 + 3) (by omega) hl rfl rfl rfl h ?_
  intro w hw
  have hc := g.code_lt
  have F := fieldsR g hw (by omega) (by omega) (by omega) hb (by omega)
  have e1 := F.1
  have e2 := F.2.1
  have eg := F.2.2.1
  have f1 : wD w = d := Fin.ext F.2.2.2.1
  have f2 : wA w = a := Fin.ext F.2.2.2.2.1
  have f3 : wB w = b := Fin.ext F.2.2.2.2.2
  rw [raw_2 e1]
  simp only [e2, f1, f2, f3, eg, decodeAluw]

theorem shrw (g : Guard) (d : Reg) (a : Reg) (b : Reg) : Statement (.shrw g d a b) := by
  intro h
  have h_d := d.isLt
  have h_a := a.isLt
  have h_b := b.isLt
  have hb : b.val < 64 := by omega
  have hl : d.val * 65536 + a.val * 1024 + b.val * 16 + 4 < 4194304 := by omega
  refine decode_ok (g := g) (maj := 2) (low := d.val * 65536 + a.val * 1024 + b.val * 16 + 4) (by omega) hl rfl rfl rfl h ?_
  intro w hw
  have hc := g.code_lt
  have F := fieldsR g hw (by omega) (by omega) (by omega) hb (by omega)
  have e1 := F.1
  have e2 := F.2.1
  have eg := F.2.2.1
  have f1 : wD w = d := Fin.ext F.2.2.2.1
  have f2 : wA w = a := Fin.ext F.2.2.2.2.1
  have f3 : wB w = b := Fin.ext F.2.2.2.2.2
  rw [raw_2 e1]
  simp only [e2, f1, f2, f3, eg, decodeAluw]

theorem sraw (g : Guard) (d : Reg) (a : Reg) (b : Reg) : Statement (.sraw g d a b) := by
  intro h
  have h_d := d.isLt
  have h_a := a.isLt
  have h_b := b.isLt
  have hb : b.val < 64 := by omega
  have hl : d.val * 65536 + a.val * 1024 + b.val * 16 + 5 < 4194304 := by omega
  refine decode_ok (g := g) (maj := 2) (low := d.val * 65536 + a.val * 1024 + b.val * 16 + 5) (by omega) hl rfl rfl rfl h ?_
  intro w hw
  have hc := g.code_lt
  have F := fieldsR g hw (by omega) (by omega) (by omega) hb (by omega)
  have e1 := F.1
  have e2 := F.2.1
  have eg := F.2.2.1
  have f1 : wD w = d := Fin.ext F.2.2.2.1
  have f2 : wA w = a := Fin.ext F.2.2.2.2.1
  have f3 : wB w = b := Fin.ext F.2.2.2.2.2
  rw [raw_2 e1]
  simp only [e2, f1, f2, f3, eg, decodeAluw]

theorem min (g : Guard) (d : Reg) (a : Reg) (b : Reg) : Statement (.min g d a b) := by
  intro h
  have h_d := d.isLt
  have h_a := a.isLt
  have h_b := b.isLt
  have hb : b.val < 64 := by omega
  have hl : d.val * 65536 + a.val * 1024 + b.val * 16 + 0 < 4194304 := by omega
  refine decode_ok (g := g) (maj := 3) (low := d.val * 65536 + a.val * 1024 + b.val * 16 + 0) (by omega) hl rfl rfl rfl h ?_
  intro w hw
  have hc := g.code_lt
  have F := fieldsR g hw (by omega) (by omega) (by omega) hb (by omega)
  have e1 := F.1
  have e2 := F.2.1
  have eg := F.2.2.1
  have f1 : wD w = d := Fin.ext F.2.2.2.1
  have f2 : wA w = a := Fin.ext F.2.2.2.2.1
  have f3 : wB w = b := Fin.ext F.2.2.2.2.2
  rw [raw_3 e1]
  simp only [e2, f1, f2, f3, eg, decodeBit]

theorem max (g : Guard) (d : Reg) (a : Reg) (b : Reg) : Statement (.max g d a b) := by
  intro h
  have h_d := d.isLt
  have h_a := a.isLt
  have h_b := b.isLt
  have hb : b.val < 64 := by omega
  have hl : d.val * 65536 + a.val * 1024 + b.val * 16 + 1 < 4194304 := by omega
  refine decode_ok (g := g) (maj := 3) (low := d.val * 65536 + a.val * 1024 + b.val * 16 + 1) (by omega) hl rfl rfl rfl h ?_
  intro w hw
  have hc := g.code_lt
  have F := fieldsR g hw (by omega) (by omega) (by omega) hb (by omega)
  have e1 := F.1
  have e2 := F.2.1
  have eg := F.2.2.1
  have f1 : wD w = d := Fin.ext F.2.2.2.1
  have f2 : wA w = a := Fin.ext F.2.2.2.2.1
  have f3 : wB w = b := Fin.ext F.2.2.2.2.2
  rw [raw_3 e1]
  simp only [e2, f1, f2, f3, eg, decodeBit]

theorem minu (g : Guard) (d : Reg) (a : Reg) (b : Reg) : Statement (.minu g d a b) := by
  intro h
  have h_d := d.isLt
  have h_a := a.isLt
  have h_b := b.isLt
  have hb : b.val < 64 := by omega
  have hl : d.val * 65536 + a.val * 1024 + b.val * 16 + 2 < 4194304 := by omega
  refine decode_ok (g := g) (maj := 3) (low := d.val * 65536 + a.val * 1024 + b.val * 16 + 2) (by omega) hl rfl rfl rfl h ?_
  intro w hw
  have hc := g.code_lt
  have F := fieldsR g hw (by omega) (by omega) (by omega) hb (by omega)
  have e1 := F.1
  have e2 := F.2.1
  have eg := F.2.2.1
  have f1 : wD w = d := Fin.ext F.2.2.2.1
  have f2 : wA w = a := Fin.ext F.2.2.2.2.1
  have f3 : wB w = b := Fin.ext F.2.2.2.2.2
  rw [raw_3 e1]
  simp only [e2, f1, f2, f3, eg, decodeBit]

theorem maxu (g : Guard) (d : Reg) (a : Reg) (b : Reg) : Statement (.maxu g d a b) := by
  intro h
  have h_d := d.isLt
  have h_a := a.isLt
  have h_b := b.isLt
  have hb : b.val < 64 := by omega
  have hl : d.val * 65536 + a.val * 1024 + b.val * 16 + 3 < 4194304 := by omega
  refine decode_ok (g := g) (maj := 3) (low := d.val * 65536 + a.val * 1024 + b.val * 16 + 3) (by omega) hl rfl rfl rfl h ?_
  intro w hw
  have hc := g.code_lt
  have F := fieldsR g hw (by omega) (by omega) (by omega) hb (by omega)
  have e1 := F.1
  have e2 := F.2.1
  have eg := F.2.2.1
  have f1 : wD w = d := Fin.ext F.2.2.2.1
  have f2 : wA w = a := Fin.ext F.2.2.2.2.1
  have f3 : wB w = b := Fin.ext F.2.2.2.2.2
  rw [raw_3 e1]
  simp only [e2, f1, f2, f3, eg, decodeBit]

theorem abs (g : Guard) (d : Reg) (a : Reg) : Statement (.abs g d a) := by
  intro h
  have h_d := d.isLt
  have h_a := a.isLt
  have hb : 0 < 64 := by decide
  have hl : d.val * 65536 + a.val * 1024 + 0 * 16 + 4 < 4194304 := by omega
  refine decode_ok (g := g) (maj := 3) (low := d.val * 65536 + a.val * 1024 + 0 * 16 + 4) (by omega) hl rfl rfl rfl h ?_
  intro w hw
  have hc := g.code_lt
  have F := fieldsR g hw (by omega) (by omega) (by omega) hb (by omega)
  have e1 := F.1
  have e2 := F.2.1
  have eg := F.2.2.1
  have f1 : wD w = d := Fin.ext F.2.2.2.1
  have f2 : wA w = a := Fin.ext F.2.2.2.2.1
  have ez : bitsOf w 4 6 = 0 := by
    simp only [bitsOf, Nat.reducePow]
    omega
  rw [raw_3 e1]
  simp only [e2, f1, f2, eg, decodeBit, ez]

theorem clz (g : Guard) (d : Reg) (a : Reg) : Statement (.clz g d a) := by
  intro h
  have h_d := d.isLt
  have h_a := a.isLt
  have hb : 0 < 64 := by decide
  have hl : d.val * 65536 + a.val * 1024 + 0 * 16 + 5 < 4194304 := by omega
  refine decode_ok (g := g) (maj := 3) (low := d.val * 65536 + a.val * 1024 + 0 * 16 + 5) (by omega) hl rfl rfl rfl h ?_
  intro w hw
  have hc := g.code_lt
  have F := fieldsR g hw (by omega) (by omega) (by omega) hb (by omega)
  have e1 := F.1
  have e2 := F.2.1
  have eg := F.2.2.1
  have f1 : wD w = d := Fin.ext F.2.2.2.1
  have f2 : wA w = a := Fin.ext F.2.2.2.2.1
  have ez : bitsOf w 4 6 = 0 := by
    simp only [bitsOf, Nat.reducePow]
    omega
  rw [raw_3 e1]
  simp only [e2, f1, f2, eg, decodeBit, ez]

theorem ctz (g : Guard) (d : Reg) (a : Reg) : Statement (.ctz g d a) := by
  intro h
  have h_d := d.isLt
  have h_a := a.isLt
  have hb : 0 < 64 := by decide
  have hl : d.val * 65536 + a.val * 1024 + 0 * 16 + 6 < 4194304 := by omega
  refine decode_ok (g := g) (maj := 3) (low := d.val * 65536 + a.val * 1024 + 0 * 16 + 6) (by omega) hl rfl rfl rfl h ?_
  intro w hw
  have hc := g.code_lt
  have F := fieldsR g hw (by omega) (by omega) (by omega) hb (by omega)
  have e1 := F.1
  have e2 := F.2.1
  have eg := F.2.2.1
  have f1 : wD w = d := Fin.ext F.2.2.2.1
  have f2 : wA w = a := Fin.ext F.2.2.2.2.1
  have ez : bitsOf w 4 6 = 0 := by
    simp only [bitsOf, Nat.reducePow]
    omega
  rw [raw_3 e1]
  simp only [e2, f1, f2, eg, decodeBit, ez]

theorem popc (g : Guard) (d : Reg) (a : Reg) : Statement (.popc g d a) := by
  intro h
  have h_d := d.isLt
  have h_a := a.isLt
  have hb : 0 < 64 := by decide
  have hl : d.val * 65536 + a.val * 1024 + 0 * 16 + 7 < 4194304 := by omega
  refine decode_ok (g := g) (maj := 3) (low := d.val * 65536 + a.val * 1024 + 0 * 16 + 7) (by omega) hl rfl rfl rfl h ?_
  intro w hw
  have hc := g.code_lt
  have F := fieldsR g hw (by omega) (by omega) (by omega) hb (by omega)
  have e1 := F.1
  have e2 := F.2.1
  have eg := F.2.2.1
  have f1 : wD w = d := Fin.ext F.2.2.2.1
  have f2 : wA w = a := Fin.ext F.2.2.2.2.1
  have ez : bitsOf w 4 6 = 0 := by
    simp only [bitsOf, Nat.reducePow]
    omega
  rw [raw_3 e1]
  simp only [e2, f1, f2, eg, decodeBit, ez]

theorem brev (g : Guard) (d : Reg) (a : Reg) : Statement (.brev g d a) := by
  intro h
  have h_d := d.isLt
  have h_a := a.isLt
  have hb : 0 < 64 := by decide
  have hl : d.val * 65536 + a.val * 1024 + 0 * 16 + 8 < 4194304 := by omega
  refine decode_ok (g := g) (maj := 3) (low := d.val * 65536 + a.val * 1024 + 0 * 16 + 8) (by omega) hl rfl rfl rfl h ?_
  intro w hw
  have hc := g.code_lt
  have F := fieldsR g hw (by omega) (by omega) (by omega) hb (by omega)
  have e1 := F.1
  have e2 := F.2.1
  have eg := F.2.2.1
  have f1 : wD w = d := Fin.ext F.2.2.2.1
  have f2 : wA w = a := Fin.ext F.2.2.2.2.1
  have ez : bitsOf w 4 6 = 0 := by
    simp only [bitsOf, Nat.reducePow]
    omega
  rw [raw_3 e1]
  simp only [e2, f1, f2, eg, decodeBit, ez]

theorem bswap (g : Guard) (d : Reg) (a : Reg) : Statement (.bswap g d a) := by
  intro h
  have h_d := d.isLt
  have h_a := a.isLt
  have hb : 0 < 64 := by decide
  have hl : d.val * 65536 + a.val * 1024 + 0 * 16 + 9 < 4194304 := by omega
  refine decode_ok (g := g) (maj := 3) (low := d.val * 65536 + a.val * 1024 + 0 * 16 + 9) (by omega) hl rfl rfl rfl h ?_
  intro w hw
  have hc := g.code_lt
  have F := fieldsR g hw (by omega) (by omega) (by omega) hb (by omega)
  have e1 := F.1
  have e2 := F.2.1
  have eg := F.2.2.1
  have f1 : wD w = d := Fin.ext F.2.2.2.1
  have f2 : wA w = a := Fin.ext F.2.2.2.2.1
  have ez : bitsOf w 4 6 = 0 := by
    simp only [bitsOf, Nat.reducePow]
    omega
  rw [raw_3 e1]
  simp only [e2, f1, f2, eg, decodeBit, ez]

theorem sextb (g : Guard) (d : Reg) (a : Reg) : Statement (.sextb g d a) := by
  intro h
  have h_d := d.isLt
  have h_a := a.isLt
  have hb : 0 < 64 := by decide
  have hl : d.val * 65536 + a.val * 1024 + 0 * 16 + 10 < 4194304 := by omega
  refine decode_ok (g := g) (maj := 3) (low := d.val * 65536 + a.val * 1024 + 0 * 16 + 10) (by omega) hl rfl rfl rfl h ?_
  intro w hw
  have hc := g.code_lt
  have F := fieldsR g hw (by omega) (by omega) (by omega) hb (by omega)
  have e1 := F.1
  have e2 := F.2.1
  have eg := F.2.2.1
  have f1 : wD w = d := Fin.ext F.2.2.2.1
  have f2 : wA w = a := Fin.ext F.2.2.2.2.1
  have ez : bitsOf w 4 6 = 0 := by
    simp only [bitsOf, Nat.reducePow]
    omega
  rw [raw_3 e1]
  simp only [e2, f1, f2, eg, decodeBit, ez]

theorem sexth (g : Guard) (d : Reg) (a : Reg) : Statement (.sexth g d a) := by
  intro h
  have h_d := d.isLt
  have h_a := a.isLt
  have hb : 0 < 64 := by decide
  have hl : d.val * 65536 + a.val * 1024 + 0 * 16 + 11 < 4194304 := by omega
  refine decode_ok (g := g) (maj := 3) (low := d.val * 65536 + a.val * 1024 + 0 * 16 + 11) (by omega) hl rfl rfl rfl h ?_
  intro w hw
  have hc := g.code_lt
  have F := fieldsR g hw (by omega) (by omega) (by omega) hb (by omega)
  have e1 := F.1
  have e2 := F.2.1
  have eg := F.2.2.1
  have f1 : wD w = d := Fin.ext F.2.2.2.1
  have f2 : wA w = a := Fin.ext F.2.2.2.2.1
  have ez : bitsOf w 4 6 = 0 := by
    simp only [bitsOf, Nat.reducePow]
    omega
  rw [raw_3 e1]
  simp only [e2, f1, f2, eg, decodeBit, ez]

theorem sextw (g : Guard) (d : Reg) (a : Reg) : Statement (.sextw g d a) := by
  intro h
  have h_d := d.isLt
  have h_a := a.isLt
  have hb : 0 < 64 := by decide
  have hl : d.val * 65536 + a.val * 1024 + 0 * 16 + 12 < 4194304 := by omega
  refine decode_ok (g := g) (maj := 3) (low := d.val * 65536 + a.val * 1024 + 0 * 16 + 12) (by omega) hl rfl rfl rfl h ?_
  intro w hw
  have hc := g.code_lt
  have F := fieldsR g hw (by omega) (by omega) (by omega) hb (by omega)
  have e1 := F.1
  have e2 := F.2.1
  have eg := F.2.2.1
  have f1 : wD w = d := Fin.ext F.2.2.2.1
  have f2 : wA w = a := Fin.ext F.2.2.2.2.1
  have ez : bitsOf w 4 6 = 0 := by
    simp only [bitsOf, Nat.reducePow]
    omega
  rw [raw_3 e1]
  simp only [e2, f1, f2, eg, decodeBit, ez]

theorem zextb (g : Guard) (d : Reg) (a : Reg) : Statement (.zextb g d a) := by
  intro h
  have h_d := d.isLt
  have h_a := a.isLt
  have hb : 0 < 64 := by decide
  have hl : d.val * 65536 + a.val * 1024 + 0 * 16 + 13 < 4194304 := by omega
  refine decode_ok (g := g) (maj := 3) (low := d.val * 65536 + a.val * 1024 + 0 * 16 + 13) (by omega) hl rfl rfl rfl h ?_
  intro w hw
  have hc := g.code_lt
  have F := fieldsR g hw (by omega) (by omega) (by omega) hb (by omega)
  have e1 := F.1
  have e2 := F.2.1
  have eg := F.2.2.1
  have f1 : wD w = d := Fin.ext F.2.2.2.1
  have f2 : wA w = a := Fin.ext F.2.2.2.2.1
  have ez : bitsOf w 4 6 = 0 := by
    simp only [bitsOf, Nat.reducePow]
    omega
  rw [raw_3 e1]
  simp only [e2, f1, f2, eg, decodeBit, ez]

theorem zexth (g : Guard) (d : Reg) (a : Reg) : Statement (.zexth g d a) := by
  intro h
  have h_d := d.isLt
  have h_a := a.isLt
  have hb : 0 < 64 := by decide
  have hl : d.val * 65536 + a.val * 1024 + 0 * 16 + 14 < 4194304 := by omega
  refine decode_ok (g := g) (maj := 3) (low := d.val * 65536 + a.val * 1024 + 0 * 16 + 14) (by omega) hl rfl rfl rfl h ?_
  intro w hw
  have hc := g.code_lt
  have F := fieldsR g hw (by omega) (by omega) (by omega) hb (by omega)
  have e1 := F.1
  have e2 := F.2.1
  have eg := F.2.2.1
  have f1 : wD w = d := Fin.ext F.2.2.2.1
  have f2 : wA w = a := Fin.ext F.2.2.2.2.1
  have ez : bitsOf w 4 6 = 0 := by
    simp only [bitsOf, Nat.reducePow]
    omega
  rw [raw_3 e1]
  simp only [e2, f1, f2, eg, decodeBit, ez]

theorem zextw (g : Guard) (d : Reg) (a : Reg) : Statement (.zextw g d a) := by
  intro h
  have h_d := d.isLt
  have h_a := a.isLt
  have hb : 0 < 64 := by decide
  have hl : d.val * 65536 + a.val * 1024 + 0 * 16 + 15 < 4194304 := by omega
  refine decode_ok (g := g) (maj := 3) (low := d.val * 65536 + a.val * 1024 + 0 * 16 + 15) (by omega) hl rfl rfl rfl h ?_
  intro w hw
  have hc := g.code_lt
  have F := fieldsR g hw (by omega) (by omega) (by omega) hb (by omega)
  have e1 := F.1
  have e2 := F.2.1
  have eg := F.2.2.1
  have f1 : wD w = d := Fin.ext F.2.2.2.1
  have f2 : wA w = a := Fin.ext F.2.2.2.2.1
  have ez : bitsOf w 4 6 = 0 := by
    simp only [bitsOf, Nat.reducePow]
    omega
  rw [raw_3 e1]
  simp only [e2, f1, f2, eg, decodeBit, ez]

set_option Elab.async false in
theorem addi (g : Guard) (d : Reg) (a : Reg) (i : BitVec 10) : Statement (.addi g d a i) := by
  intro h
  have h_d := d.isLt
  have h_a := a.isLt
  have h_i := i.isLt
  have hl : d.val * 65536 + a.val * 1024 + i.toNat < 4194304 := by omega
  refine decode_ok (g := g) (maj := 4) (low := d.val * 65536 + a.val * 1024 + i.toNat) (by omega) hl rfl rfl rfl h ?_
  intro w hw
  have hc := g.code_lt
  have F := fieldsI g hw (by omega) (by omega) (by omega) (by omega)
  have e1 := F.1
  have eg := F.2.1
  have f1 : wD w = d := Fin.ext F.2.2.1
  have f2 : wA w = a := Fin.ext F.2.2.2.1
  have f3 : BitVec.ofNat 10 w = i := by
    apply BitVec.eq_of_toNat_eq; simp only [BitVec.toNat_ofNat]; omega
  rw [raw_4 e1]
  simp only [f1, f2, f3, eg]

theorem andi (g : Guard) (d : Reg) (a : Reg) (i : BitVec 10) : Statement (.andi g d a i) := by
  intro h
  have h_d := d.isLt
  have h_a := a.isLt
  have h_i := i.isLt
  have hl : d.val * 65536 + a.val * 1024 + i.toNat < 4194304 := by omega
  refine decode_ok (g := g) (maj := 5) (low := d.val * 65536 + a.val * 1024 + i.toNat) (by omega) hl rfl rfl rfl h ?_
  intro w hw
  have hc := g.code_lt
  have F := fieldsI g hw (by omega) (by omega) (by omega) (by omega)
  have e1 := F.1
  have eg := F.2.1
  have f1 : wD w = d := Fin.ext F.2.2.1
  have f2 : wA w = a := Fin.ext F.2.2.2.1
  have f3 : BitVec.ofNat 10 w = i := by
    apply BitVec.eq_of_toNat_eq; simp only [BitVec.toNat_ofNat]; omega
  rw [raw_5 e1]
  simp only [f1, f2, f3, eg]

theorem ori (g : Guard) (d : Reg) (a : Reg) (i : BitVec 10) : Statement (.ori g d a i) := by
  intro h
  have h_d := d.isLt
  have h_a := a.isLt
  have h_i := i.isLt
  have hl : d.val * 65536 + a.val * 1024 + i.toNat < 4194304 := by omega
  refine decode_ok (g := g) (maj := 6) (low := d.val * 65536 + a.val * 1024 + i.toNat) (by omega) hl rfl rfl rfl h ?_
  intro w hw
  have hc := g.code_lt
  have F := fieldsI g hw (by omega) (by omega) (by omega) (by omega)
  have e1 := F.1
  have eg := F.2.1
  have f1 : wD w = d := Fin.ext F.2.2.1
  have f2 : wA w = a := Fin.ext F.2.2.2.1
  have f3 : BitVec.ofNat 10 w = i := by
    apply BitVec.eq_of_toNat_eq; simp only [BitVec.toNat_ofNat]; omega
  rw [raw_6 e1]
  simp only [f1, f2, f3, eg]

theorem xori (g : Guard) (d : Reg) (a : Reg) (i : BitVec 10) : Statement (.xori g d a i) := by
  intro h
  have h_d := d.isLt
  have h_a := a.isLt
  have h_i := i.isLt
  have hl : d.val * 65536 + a.val * 1024 + i.toNat < 4194304 := by omega
  refine decode_ok (g := g) (maj := 7) (low := d.val * 65536 + a.val * 1024 + i.toNat) (by omega) hl rfl rfl rfl h ?_
  intro w hw
  have hc := g.code_lt
  have F := fieldsI g hw (by omega) (by omega) (by omega) (by omega)
  have e1 := F.1
  have eg := F.2.1
  have f1 : wD w = d := Fin.ext F.2.2.1
  have f2 : wA w = a := Fin.ext F.2.2.2.1
  have f3 : BitVec.ofNat 10 w = i := by
    apply BitVec.eq_of_toNat_eq; simp only [BitVec.toNat_ofNat]; omega
  rw [raw_7 e1]
  simp only [f1, f2, f3, eg]

theorem shli (g : Guard) (d : Reg) (a : Reg) (n : BitVec 6) : Statement (.shli g d a n) := by
  intro h
  have h_d := d.isLt
  have h_a := a.isLt
  have h_n := n.isLt
  have hb : n.toNat < 64 := by omega
  have hl : d.val * 65536 + a.val * 1024 + n.toNat * 16 + 0 < 4194304 := by omega
  refine decode_ok (g := g) (maj := 8) (low := d.val * 65536 + a.val * 1024 + n.toNat * 16 + 0) (by omega) hl rfl rfl rfl h ?_
  intro w hw
  have hc := g.code_lt
  have F := fieldsR g hw (by omega) (by omega) (by omega) hb (by omega)
  have e1 := F.1
  have e2 := F.2.1
  have eg := F.2.2.1
  have f1 : wD w = d := Fin.ext F.2.2.2.1
  have f2 : wA w = a := Fin.ext F.2.2.2.2.1
  have f3 : BitVec.ofNat 6 (w / 16) = n := by
    apply BitVec.eq_of_toNat_eq; simp only [BitVec.toNat_ofNat]; omega
  rw [raw_8 e1]
  simp only [e2, f1, f2, f3, eg, decodeShifti]

theorem shri (g : Guard) (d : Reg) (a : Reg) (n : BitVec 6) : Statement (.shri g d a n) := by
  intro h
  have h_d := d.isLt
  have h_a := a.isLt
  have h_n := n.isLt
  have hb : n.toNat < 64 := by omega
  have hl : d.val * 65536 + a.val * 1024 + n.toNat * 16 + 1 < 4194304 := by omega
  refine decode_ok (g := g) (maj := 8) (low := d.val * 65536 + a.val * 1024 + n.toNat * 16 + 1) (by omega) hl rfl rfl rfl h ?_
  intro w hw
  have hc := g.code_lt
  have F := fieldsR g hw (by omega) (by omega) (by omega) hb (by omega)
  have e1 := F.1
  have e2 := F.2.1
  have eg := F.2.2.1
  have f1 : wD w = d := Fin.ext F.2.2.2.1
  have f2 : wA w = a := Fin.ext F.2.2.2.2.1
  have f3 : BitVec.ofNat 6 (w / 16) = n := by
    apply BitVec.eq_of_toNat_eq; simp only [BitVec.toNat_ofNat]; omega
  rw [raw_8 e1]
  simp only [e2, f1, f2, f3, eg, decodeShifti]

theorem srai (g : Guard) (d : Reg) (a : Reg) (n : BitVec 6) : Statement (.srai g d a n) := by
  intro h
  have h_d := d.isLt
  have h_a := a.isLt
  have h_n := n.isLt
  have hb : n.toNat < 64 := by omega
  have hl : d.val * 65536 + a.val * 1024 + n.toNat * 16 + 2 < 4194304 := by omega
  refine decode_ok (g := g) (maj := 8) (low := d.val * 65536 + a.val * 1024 + n.toNat * 16 + 2) (by omega) hl rfl rfl rfl h ?_
  intro w hw
  have hc := g.code_lt
  have F := fieldsR g hw (by omega) (by omega) (by omega) hb (by omega)
  have e1 := F.1
  have e2 := F.2.1
  have eg := F.2.2.1
  have f1 : wD w = d := Fin.ext F.2.2.2.1
  have f2 : wA w = a := Fin.ext F.2.2.2.2.1
  have f3 : BitVec.ofNat 6 (w / 16) = n := by
    apply BitVec.eq_of_toNat_eq; simp only [BitVec.toNat_ofNat]; omega
  rw [raw_8 e1]
  simp only [e2, f1, f2, f3, eg, decodeShifti]

theorem roti (g : Guard) (d : Reg) (a : Reg) (n : BitVec 6) : Statement (.roti g d a n) := by
  intro h
  have h_d := d.isLt
  have h_a := a.isLt
  have h_n := n.isLt
  have hb : n.toNat < 64 := by omega
  have hl : d.val * 65536 + a.val * 1024 + n.toNat * 16 + 3 < 4194304 := by omega
  refine decode_ok (g := g) (maj := 8) (low := d.val * 65536 + a.val * 1024 + n.toNat * 16 + 3) (by omega) hl rfl rfl rfl h ?_
  intro w hw
  have hc := g.code_lt
  have F := fieldsR g hw (by omega) (by omega) (by omega) hb (by omega)
  have e1 := F.1
  have e2 := F.2.1
  have eg := F.2.2.1
  have f1 : wD w = d := Fin.ext F.2.2.2.1
  have f2 : wA w = a := Fin.ext F.2.2.2.2.1
  have f3 : BitVec.ofNat 6 (w / 16) = n := by
    apply BitVec.eq_of_toNat_eq; simp only [BitVec.toNat_ofNat]; omega
  rw [raw_8 e1]
  simp only [e2, f1, f2, f3, eg, decodeShifti]

theorem lui (g : Guard) (d : Reg) (i : BitVec 16) : Statement (.lui g d i) := by
  intro h
  have h_d := d.isLt
  have h_i := i.isLt
  have hl : d.val * 65536 + i.toNat < 4194304 := by omega
  refine decode_ok (g := g) (maj := 9) (low := d.val * 65536 + i.toNat) (by omega) hl rfl rfl rfl h ?_
  intro w hw
  have hc := g.code_lt
  have e1 : bitsOf w 22 6 = 9 := by simp only [bitsOf, Nat.reducePow]; omega
  have eg : wG w = g := wG_of g (m := 9) (k := d.val * 65536 + i.toNat) hw (by omega) hl
  have f1 : wD w = d := Fin.ext (by simp only [wD, Fin.ofNat]; omega)
  have f2 : BitVec.ofNat 16 w = i := by
    apply BitVec.eq_of_toNat_eq; simp only [BitVec.toNat_ofNat]; omega
  rw [raw_9 e1]
  simp only [f1, f2, eg]

theorem lix (g : Guard) (d : Reg) (i : BitVec 16) : Statement (.lix g d i) := by
  intro h
  have h_d := d.isLt
  have h_i := i.isLt
  have hl : d.val * 65536 + i.toNat < 4194304 := by omega
  refine decode_ok (g := g) (maj := 10) (low := d.val * 65536 + i.toNat) (by omega) hl rfl rfl rfl h ?_
  intro w hw
  have hc := g.code_lt
  have e1 : bitsOf w 22 6 = 10 := by simp only [bitsOf, Nat.reducePow]; omega
  have eg : wG w = g := wG_of g (m := 10) (k := d.val * 65536 + i.toNat) hw (by omega) hl
  have f1 : wD w = d := Fin.ext (by simp only [wD, Fin.ofNat]; omega)
  have f2 : BitVec.ofNat 16 w = i := by
    apply BitVec.eq_of_toNat_eq; simp only [BitVec.toNat_ofNat]; omega
  rw [raw_10 e1]
  simp only [f1, f2, eg]

theorem shadd1 (g : Guard) (d : Reg) (a : Reg) (b : Reg) : Statement (.shadd1 g d a b) := by
  intro h
  have h_d := d.isLt
  have h_a := a.isLt
  have h_b := b.isLt
  have hb : b.val < 64 := by omega
  have hl : d.val * 65536 + a.val * 1024 + b.val * 16 + 0 < 4194304 := by omega
  refine decode_ok (g := g) (maj := 11) (low := d.val * 65536 + a.val * 1024 + b.val * 16 + 0) (by omega) hl rfl rfl rfl h ?_
  intro w hw
  have hc := g.code_lt
  have F := fieldsR g hw (by omega) (by omega) (by omega) hb (by omega)
  have e1 := F.1
  have e2 := F.2.1
  have eg := F.2.2.1
  have f1 : wD w = d := Fin.ext F.2.2.2.1
  have f2 : wA w = a := Fin.ext F.2.2.2.2.1
  have f3 : wB w = b := Fin.ext F.2.2.2.2.2
  rw [raw_11 e1]
  simp only [e2, f1, f2, f3, eg, decodeScale]

theorem shadd2 (g : Guard) (d : Reg) (a : Reg) (b : Reg) : Statement (.shadd2 g d a b) := by
  intro h
  have h_d := d.isLt
  have h_a := a.isLt
  have h_b := b.isLt
  have hb : b.val < 64 := by omega
  have hl : d.val * 65536 + a.val * 1024 + b.val * 16 + 1 < 4194304 := by omega
  refine decode_ok (g := g) (maj := 11) (low := d.val * 65536 + a.val * 1024 + b.val * 16 + 1) (by omega) hl rfl rfl rfl h ?_
  intro w hw
  have hc := g.code_lt
  have F := fieldsR g hw (by omega) (by omega) (by omega) hb (by omega)
  have e1 := F.1
  have e2 := F.2.1
  have eg := F.2.2.1
  have f1 : wD w = d := Fin.ext F.2.2.2.1
  have f2 : wA w = a := Fin.ext F.2.2.2.2.1
  have f3 : wB w = b := Fin.ext F.2.2.2.2.2
  rw [raw_11 e1]
  simp only [e2, f1, f2, f3, eg, decodeScale]

theorem shadd3 (g : Guard) (d : Reg) (a : Reg) (b : Reg) : Statement (.shadd3 g d a b) := by
  intro h
  have h_d := d.isLt
  have h_a := a.isLt
  have h_b := b.isLt
  have hb : b.val < 64 := by omega
  have hl : d.val * 65536 + a.val * 1024 + b.val * 16 + 2 < 4194304 := by omega
  refine decode_ok (g := g) (maj := 11) (low := d.val * 65536 + a.val * 1024 + b.val * 16 + 2) (by omega) hl rfl rfl rfl h ?_
  intro w hw
  have hc := g.code_lt
  have F := fieldsR g hw (by omega) (by omega) (by omega) hb (by omega)
  have e1 := F.1
  have e2 := F.2.1
  have eg := F.2.2.1
  have f1 : wD w = d := Fin.ext F.2.2.2.1
  have f2 : wA w = a := Fin.ext F.2.2.2.2.1
  have f3 : wB w = b := Fin.ext F.2.2.2.2.2
  rw [raw_11 e1]
  simp only [e2, f1, f2, f3, eg, decodeScale]

theorem shadd4 (g : Guard) (d : Reg) (a : Reg) (b : Reg) : Statement (.shadd4 g d a b) := by
  intro h
  have h_d := d.isLt
  have h_a := a.isLt
  have h_b := b.isLt
  have hb : b.val < 64 := by omega
  have hl : d.val * 65536 + a.val * 1024 + b.val * 16 + 3 < 4194304 := by omega
  refine decode_ok (g := g) (maj := 11) (low := d.val * 65536 + a.val * 1024 + b.val * 16 + 3) (by omega) hl rfl rfl rfl h ?_
  intro w hw
  have hc := g.code_lt
  have F := fieldsR g hw (by omega) (by omega) (by omega) hb (by omega)
  have e1 := F.1
  have e2 := F.2.1
  have eg := F.2.2.1
  have f1 : wD w = d := Fin.ext F.2.2.2.1
  have f2 : wA w = a := Fin.ext F.2.2.2.2.1
  have f3 : wB w = b := Fin.ext F.2.2.2.2.2
  rw [raw_11 e1]
  simp only [e2, f1, f2, f3, eg, decodeScale]

theorem ceq (g : Guard) (p : PReg) (a : Reg) (b : Reg) : Statement (.ceq g p a b) := by
  intro h
  have h_p := p.isLt
  have h_a := a.isLt
  have h_b := b.isLt
  have hb : b.val < 64 := by omega
  have hl : p.val * 65536 + a.val * 1024 + b.val * 16 + 0 < 4194304 := by omega
  refine decode_ok (g := g) (maj := 12) (low := p.val * 65536 + a.val * 1024 + b.val * 16 + 0) (by omega) hl rfl rfl rfl h ?_
  intro w hw
  have hc := g.code_lt
  have F := fieldsR g hw (by omega) (by omega) (by omega) hb (by omega)
  have e1 := F.1
  have e2 := F.2.1
  have eg := F.2.2.1
  have f1 : wPd w = p := Fin.ext (by simp only [wPd, Fin.ofNat]; omega)
  have f2 : wA w = a := Fin.ext F.2.2.2.2.1
  have f3 : wB w = b := Fin.ext F.2.2.2.2.2
  have ez : bitsOf w 19 3 = 0 := by
    simp only [bitsOf, Nat.reducePow]
    omega
  rw [raw_12 e1]
  simp only [e2, f1, f2, f3, eg, decodeCmp, ez]

theorem cne (g : Guard) (p : PReg) (a : Reg) (b : Reg) : Statement (.cne g p a b) := by
  intro h
  have h_p := p.isLt
  have h_a := a.isLt
  have h_b := b.isLt
  have hb : b.val < 64 := by omega
  have hl : p.val * 65536 + a.val * 1024 + b.val * 16 + 1 < 4194304 := by omega
  refine decode_ok (g := g) (maj := 12) (low := p.val * 65536 + a.val * 1024 + b.val * 16 + 1) (by omega) hl rfl rfl rfl h ?_
  intro w hw
  have hc := g.code_lt
  have F := fieldsR g hw (by omega) (by omega) (by omega) hb (by omega)
  have e1 := F.1
  have e2 := F.2.1
  have eg := F.2.2.1
  have f1 : wPd w = p := Fin.ext (by simp only [wPd, Fin.ofNat]; omega)
  have f2 : wA w = a := Fin.ext F.2.2.2.2.1
  have f3 : wB w = b := Fin.ext F.2.2.2.2.2
  have ez : bitsOf w 19 3 = 0 := by
    simp only [bitsOf, Nat.reducePow]
    omega
  rw [raw_12 e1]
  simp only [e2, f1, f2, f3, eg, decodeCmp, ez]

theorem clt (g : Guard) (p : PReg) (a : Reg) (b : Reg) : Statement (.clt g p a b) := by
  intro h
  have h_p := p.isLt
  have h_a := a.isLt
  have h_b := b.isLt
  have hb : b.val < 64 := by omega
  have hl : p.val * 65536 + a.val * 1024 + b.val * 16 + 2 < 4194304 := by omega
  refine decode_ok (g := g) (maj := 12) (low := p.val * 65536 + a.val * 1024 + b.val * 16 + 2) (by omega) hl rfl rfl rfl h ?_
  intro w hw
  have hc := g.code_lt
  have F := fieldsR g hw (by omega) (by omega) (by omega) hb (by omega)
  have e1 := F.1
  have e2 := F.2.1
  have eg := F.2.2.1
  have f1 : wPd w = p := Fin.ext (by simp only [wPd, Fin.ofNat]; omega)
  have f2 : wA w = a := Fin.ext F.2.2.2.2.1
  have f3 : wB w = b := Fin.ext F.2.2.2.2.2
  have ez : bitsOf w 19 3 = 0 := by
    simp only [bitsOf, Nat.reducePow]
    omega
  rw [raw_12 e1]
  simp only [e2, f1, f2, f3, eg, decodeCmp, ez]

theorem cltu (g : Guard) (p : PReg) (a : Reg) (b : Reg) : Statement (.cltu g p a b) := by
  intro h
  have h_p := p.isLt
  have h_a := a.isLt
  have h_b := b.isLt
  have hb : b.val < 64 := by omega
  have hl : p.val * 65536 + a.val * 1024 + b.val * 16 + 3 < 4194304 := by omega
  refine decode_ok (g := g) (maj := 12) (low := p.val * 65536 + a.val * 1024 + b.val * 16 + 3) (by omega) hl rfl rfl rfl h ?_
  intro w hw
  have hc := g.code_lt
  have F := fieldsR g hw (by omega) (by omega) (by omega) hb (by omega)
  have e1 := F.1
  have e2 := F.2.1
  have eg := F.2.2.1
  have f1 : wPd w = p := Fin.ext (by simp only [wPd, Fin.ofNat]; omega)
  have f2 : wA w = a := Fin.ext F.2.2.2.2.1
  have f3 : wB w = b := Fin.ext F.2.2.2.2.2
  have ez : bitsOf w 19 3 = 0 := by
    simp only [bitsOf, Nat.reducePow]
    omega
  rw [raw_12 e1]
  simp only [e2, f1, f2, f3, eg, decodeCmp, ez]

theorem cle (g : Guard) (p : PReg) (a : Reg) (b : Reg) : Statement (.cle g p a b) := by
  intro h
  have h_p := p.isLt
  have h_a := a.isLt
  have h_b := b.isLt
  have hb : b.val < 64 := by omega
  have hl : p.val * 65536 + a.val * 1024 + b.val * 16 + 4 < 4194304 := by omega
  refine decode_ok (g := g) (maj := 12) (low := p.val * 65536 + a.val * 1024 + b.val * 16 + 4) (by omega) hl rfl rfl rfl h ?_
  intro w hw
  have hc := g.code_lt
  have F := fieldsR g hw (by omega) (by omega) (by omega) hb (by omega)
  have e1 := F.1
  have e2 := F.2.1
  have eg := F.2.2.1
  have f1 : wPd w = p := Fin.ext (by simp only [wPd, Fin.ofNat]; omega)
  have f2 : wA w = a := Fin.ext F.2.2.2.2.1
  have f3 : wB w = b := Fin.ext F.2.2.2.2.2
  have ez : bitsOf w 19 3 = 0 := by
    simp only [bitsOf, Nat.reducePow]
    omega
  rw [raw_12 e1]
  simp only [e2, f1, f2, f3, eg, decodeCmp, ez]

theorem cleu (g : Guard) (p : PReg) (a : Reg) (b : Reg) : Statement (.cleu g p a b) := by
  intro h
  have h_p := p.isLt
  have h_a := a.isLt
  have h_b := b.isLt
  have hb : b.val < 64 := by omega
  have hl : p.val * 65536 + a.val * 1024 + b.val * 16 + 5 < 4194304 := by omega
  refine decode_ok (g := g) (maj := 12) (low := p.val * 65536 + a.val * 1024 + b.val * 16 + 5) (by omega) hl rfl rfl rfl h ?_
  intro w hw
  have hc := g.code_lt
  have F := fieldsR g hw (by omega) (by omega) (by omega) hb (by omega)
  have e1 := F.1
  have e2 := F.2.1
  have eg := F.2.2.1
  have f1 : wPd w = p := Fin.ext (by simp only [wPd, Fin.ofNat]; omega)
  have f2 : wA w = a := Fin.ext F.2.2.2.2.1
  have f3 : wB w = b := Fin.ext F.2.2.2.2.2
  have ez : bitsOf w 19 3 = 0 := by
    simp only [bitsOf, Nat.reducePow]
    omega
  rw [raw_12 e1]
  simp only [e2, f1, f2, f3, eg, decodeCmp, ez]

theorem ctst (g : Guard) (p : PReg) (a : Reg) (b : Reg) : Statement (.ctst g p a b) := by
  intro h
  have h_p := p.isLt
  have h_a := a.isLt
  have h_b := b.isLt
  have hb : b.val < 64 := by omega
  have hl : p.val * 65536 + a.val * 1024 + b.val * 16 + 6 < 4194304 := by omega
  refine decode_ok (g := g) (maj := 12) (low := p.val * 65536 + a.val * 1024 + b.val * 16 + 6) (by omega) hl rfl rfl rfl h ?_
  intro w hw
  have hc := g.code_lt
  have F := fieldsR g hw (by omega) (by omega) (by omega) hb (by omega)
  have e1 := F.1
  have e2 := F.2.1
  have eg := F.2.2.1
  have f1 : wPd w = p := Fin.ext (by simp only [wPd, Fin.ofNat]; omega)
  have f2 : wA w = a := Fin.ext F.2.2.2.2.1
  have f3 : wB w = b := Fin.ext F.2.2.2.2.2
  have ez : bitsOf w 19 3 = 0 := by
    simp only [bitsOf, Nat.reducePow]
    omega
  rw [raw_12 e1]
  simp only [e2, f1, f2, f3, eg, decodeCmp, ez]

theorem ceqi (g : Guard) (p : PReg) (a : Reg) (i : BitVec 10) : Statement (.ceqi g p a i) := by
  intro h
  have h_p := p.isLt
  have h_a := a.isLt
  have h_i := i.isLt
  have hl : (0 + p.val) * 65536 + a.val * 1024 + i.toNat < 4194304 := by omega
  refine decode_ok (g := g) (maj := 13) (low := (0 + p.val) * 65536 + a.val * 1024 + i.toNat) (by omega) hl rfl rfl rfl h ?_
  intro w hw
  have hc := g.code_lt
  have F := fieldsI g hw (by omega) (by omega) (by omega) (by omega)
  have e1 := F.1
  have e2 : bitsOf w 19 3 = 0 := by simp only [bitsOf, Nat.reducePow]; omega
  have eg := F.2.1
  have f1 : wPd w = p := Fin.ext (by simp only [wPd, Fin.ofNat]; omega)
  have f2 : wA w = a := Fin.ext F.2.2.2.1
  have f3 : BitVec.ofNat 10 w = i := by
    apply BitVec.eq_of_toNat_eq; simp only [BitVec.toNat_ofNat]; omega
  rw [raw_13 e1]
  simp only [e2, f1, f2, f3, eg, decodeCmpi]

theorem cnei (g : Guard) (p : PReg) (a : Reg) (i : BitVec 10) : Statement (.cnei g p a i) := by
  intro h
  have h_p := p.isLt
  have h_a := a.isLt
  have h_i := i.isLt
  have hl : (8 + p.val) * 65536 + a.val * 1024 + i.toNat < 4194304 := by omega
  refine decode_ok (g := g) (maj := 13) (low := (8 + p.val) * 65536 + a.val * 1024 + i.toNat) (by omega) hl rfl rfl rfl h ?_
  intro w hw
  have hc := g.code_lt
  have F := fieldsI g hw (by omega) (by omega) (by omega) (by omega)
  have e1 := F.1
  have e2 : bitsOf w 19 3 = 1 := by simp only [bitsOf, Nat.reducePow]; omega
  have eg := F.2.1
  have f1 : wPd w = p := Fin.ext (by simp only [wPd, Fin.ofNat]; omega)
  have f2 : wA w = a := Fin.ext F.2.2.2.1
  have f3 : BitVec.ofNat 10 w = i := by
    apply BitVec.eq_of_toNat_eq; simp only [BitVec.toNat_ofNat]; omega
  rw [raw_13 e1]
  simp only [e2, f1, f2, f3, eg, decodeCmpi]

theorem clti (g : Guard) (p : PReg) (a : Reg) (i : BitVec 10) : Statement (.clti g p a i) := by
  intro h
  have h_p := p.isLt
  have h_a := a.isLt
  have h_i := i.isLt
  have hl : (16 + p.val) * 65536 + a.val * 1024 + i.toNat < 4194304 := by omega
  refine decode_ok (g := g) (maj := 13) (low := (16 + p.val) * 65536 + a.val * 1024 + i.toNat) (by omega) hl rfl rfl rfl h ?_
  intro w hw
  have hc := g.code_lt
  have F := fieldsI g hw (by omega) (by omega) (by omega) (by omega)
  have e1 := F.1
  have e2 : bitsOf w 19 3 = 2 := by simp only [bitsOf, Nat.reducePow]; omega
  have eg := F.2.1
  have f1 : wPd w = p := Fin.ext (by simp only [wPd, Fin.ofNat]; omega)
  have f2 : wA w = a := Fin.ext F.2.2.2.1
  have f3 : BitVec.ofNat 10 w = i := by
    apply BitVec.eq_of_toNat_eq; simp only [BitVec.toNat_ofNat]; omega
  rw [raw_13 e1]
  simp only [e2, f1, f2, f3, eg, decodeCmpi]

theorem cltui (g : Guard) (p : PReg) (a : Reg) (i : BitVec 10) : Statement (.cltui g p a i) := by
  intro h
  have h_p := p.isLt
  have h_a := a.isLt
  have h_i := i.isLt
  have hl : (24 + p.val) * 65536 + a.val * 1024 + i.toNat < 4194304 := by omega
  refine decode_ok (g := g) (maj := 13) (low := (24 + p.val) * 65536 + a.val * 1024 + i.toNat) (by omega) hl rfl rfl rfl h ?_
  intro w hw
  have hc := g.code_lt
  have F := fieldsI g hw (by omega) (by omega) (by omega) (by omega)
  have e1 := F.1
  have e2 : bitsOf w 19 3 = 3 := by simp only [bitsOf, Nat.reducePow]; omega
  have eg := F.2.1
  have f1 : wPd w = p := Fin.ext (by simp only [wPd, Fin.ofNat]; omega)
  have f2 : wA w = a := Fin.ext F.2.2.2.1
  have f3 : BitVec.ofNat 10 w = i := by
    apply BitVec.eq_of_toNat_eq; simp only [BitVec.toNat_ofNat]; omega
  rw [raw_13 e1]
  simp only [e2, f1, f2, f3, eg, decodeCmpi]

theorem clei (g : Guard) (p : PReg) (a : Reg) (i : BitVec 10) : Statement (.clei g p a i) := by
  intro h
  have h_p := p.isLt
  have h_a := a.isLt
  have h_i := i.isLt
  have hl : (32 + p.val) * 65536 + a.val * 1024 + i.toNat < 4194304 := by omega
  refine decode_ok (g := g) (maj := 13) (low := (32 + p.val) * 65536 + a.val * 1024 + i.toNat) (by omega) hl rfl rfl rfl h ?_
  intro w hw
  have hc := g.code_lt
  have F := fieldsI g hw (by omega) (by omega) (by omega) (by omega)
  have e1 := F.1
  have e2 : bitsOf w 19 3 = 4 := by simp only [bitsOf, Nat.reducePow]; omega
  have eg := F.2.1
  have f1 : wPd w = p := Fin.ext (by simp only [wPd, Fin.ofNat]; omega)
  have f2 : wA w = a := Fin.ext F.2.2.2.1
  have f3 : BitVec.ofNat 10 w = i := by
    apply BitVec.eq_of_toNat_eq; simp only [BitVec.toNat_ofNat]; omega
  rw [raw_13 e1]
  simp only [e2, f1, f2, f3, eg, decodeCmpi]

theorem cleui (g : Guard) (p : PReg) (a : Reg) (i : BitVec 10) : Statement (.cleui g p a i) := by
  intro h
  have h_p := p.isLt
  have h_a := a.isLt
  have h_i := i.isLt
  have hl : (40 + p.val) * 65536 + a.val * 1024 + i.toNat < 4194304 := by omega
  refine decode_ok (g := g) (maj := 13) (low := (40 + p.val) * 65536 + a.val * 1024 + i.toNat) (by omega) hl rfl rfl rfl h ?_
  intro w hw
  have hc := g.code_lt
  have F := fieldsI g hw (by omega) (by omega) (by omega) (by omega)
  have e1 := F.1
  have e2 : bitsOf w 19 3 = 5 := by simp only [bitsOf, Nat.reducePow]; omega
  have eg := F.2.1
  have f1 : wPd w = p := Fin.ext (by simp only [wPd, Fin.ofNat]; omega)
  have f2 : wA w = a := Fin.ext F.2.2.2.1
  have f3 : BitVec.ofNat 10 w = i := by
    apply BitVec.eq_of_toNat_eq; simp only [BitVec.toNat_ofNat]; omega
  rw [raw_13 e1]
  simp only [e2, f1, f2, f3, eg, decodeCmpi]

theorem ctsti (g : Guard) (p : PReg) (a : Reg) (i : BitVec 10) : Statement (.ctsti g p a i) := by
  intro h
  have h_p := p.isLt
  have h_a := a.isLt
  have h_i := i.isLt
  have hl : (48 + p.val) * 65536 + a.val * 1024 + i.toNat < 4194304 := by omega
  refine decode_ok (g := g) (maj := 13) (low := (48 + p.val) * 65536 + a.val * 1024 + i.toNat) (by omega) hl rfl rfl rfl h ?_
  intro w hw
  have hc := g.code_lt
  have F := fieldsI g hw (by omega) (by omega) (by omega) (by omega)
  have e1 := F.1
  have e2 : bitsOf w 19 3 = 6 := by simp only [bitsOf, Nat.reducePow]; omega
  have eg := F.2.1
  have f1 : wPd w = p := Fin.ext (by simp only [wPd, Fin.ofNat]; omega)
  have f2 : wA w = a := Fin.ext F.2.2.2.1
  have f3 : BitVec.ofNat 10 w = i := by
    apply BitVec.eq_of_toNat_eq; simp only [BitVec.toNat_ofNat]; omega
  rw [raw_13 e1]
  simp only [e2, f1, f2, f3, eg, decodeCmpi]

theorem pand (g : Guard) (d : PReg) (a : PReg) (b : PReg) : Statement (.pand g d a b) := by
  intro h
  have h_d := d.isLt
  have h_a := a.isLt
  have h_b := b.isLt
  have hb : b.val < 64 := by omega
  have hl : d.val * 65536 + a.val * 1024 + b.val * 16 + 0 < 4194304 := by omega
  refine decode_ok (g := g) (maj := 14) (low := d.val * 65536 + a.val * 1024 + b.val * 16 + 0) (by omega) hl rfl rfl rfl h ?_
  intro w hw
  have hc := g.code_lt
  have F := fieldsR g hw (by omega) (by omega) (by omega) hb (by omega)
  have e1 := F.1
  have e2 := F.2.1
  have eg := F.2.2.1
  have f1 : wPd w = d := Fin.ext (by simp only [wPd, Fin.ofNat]; omega)
  have f2 : wPa w = a := Fin.ext (by simp only [wPa, Fin.ofNat]; omega)
  have f3 : wPb w = b := Fin.ext (by simp only [wPb, Fin.ofNat]; omega)
  have ez : bitsOf w 7 3 + bitsOf w 13 3 + bitsOf w 19 3 = 0 := by
    simp only [bitsOf, Nat.reducePow]
    omega
  rw [raw_14 e1]
  simp only [e2, f1, f2, f3, eg, decodePred, ez]

theorem por (g : Guard) (d : PReg) (a : PReg) (b : PReg) : Statement (.por g d a b) := by
  intro h
  have h_d := d.isLt
  have h_a := a.isLt
  have h_b := b.isLt
  have hb : b.val < 64 := by omega
  have hl : d.val * 65536 + a.val * 1024 + b.val * 16 + 1 < 4194304 := by omega
  refine decode_ok (g := g) (maj := 14) (low := d.val * 65536 + a.val * 1024 + b.val * 16 + 1) (by omega) hl rfl rfl rfl h ?_
  intro w hw
  have hc := g.code_lt
  have F := fieldsR g hw (by omega) (by omega) (by omega) hb (by omega)
  have e1 := F.1
  have e2 := F.2.1
  have eg := F.2.2.1
  have f1 : wPd w = d := Fin.ext (by simp only [wPd, Fin.ofNat]; omega)
  have f2 : wPa w = a := Fin.ext (by simp only [wPa, Fin.ofNat]; omega)
  have f3 : wPb w = b := Fin.ext (by simp only [wPb, Fin.ofNat]; omega)
  have ez : bitsOf w 7 3 + bitsOf w 13 3 + bitsOf w 19 3 = 0 := by
    simp only [bitsOf, Nat.reducePow]
    omega
  rw [raw_14 e1]
  simp only [e2, f1, f2, f3, eg, decodePred, ez]

theorem pxor (g : Guard) (d : PReg) (a : PReg) (b : PReg) : Statement (.pxor g d a b) := by
  intro h
  have h_d := d.isLt
  have h_a := a.isLt
  have h_b := b.isLt
  have hb : b.val < 64 := by omega
  have hl : d.val * 65536 + a.val * 1024 + b.val * 16 + 2 < 4194304 := by omega
  refine decode_ok (g := g) (maj := 14) (low := d.val * 65536 + a.val * 1024 + b.val * 16 + 2) (by omega) hl rfl rfl rfl h ?_
  intro w hw
  have hc := g.code_lt
  have F := fieldsR g hw (by omega) (by omega) (by omega) hb (by omega)
  have e1 := F.1
  have e2 := F.2.1
  have eg := F.2.2.1
  have f1 : wPd w = d := Fin.ext (by simp only [wPd, Fin.ofNat]; omega)
  have f2 : wPa w = a := Fin.ext (by simp only [wPa, Fin.ofNat]; omega)
  have f3 : wPb w = b := Fin.ext (by simp only [wPb, Fin.ofNat]; omega)
  have ez : bitsOf w 7 3 + bitsOf w 13 3 + bitsOf w 19 3 = 0 := by
    simp only [bitsOf, Nat.reducePow]
    omega
  rw [raw_14 e1]
  simp only [e2, f1, f2, f3, eg, decodePred, ez]

theorem pandn (g : Guard) (d : PReg) (a : PReg) (b : PReg) : Statement (.pandn g d a b) := by
  intro h
  have h_d := d.isLt
  have h_a := a.isLt
  have h_b := b.isLt
  have hb : b.val < 64 := by omega
  have hl : d.val * 65536 + a.val * 1024 + b.val * 16 + 3 < 4194304 := by omega
  refine decode_ok (g := g) (maj := 14) (low := d.val * 65536 + a.val * 1024 + b.val * 16 + 3) (by omega) hl rfl rfl rfl h ?_
  intro w hw
  have hc := g.code_lt
  have F := fieldsR g hw (by omega) (by omega) (by omega) hb (by omega)
  have e1 := F.1
  have e2 := F.2.1
  have eg := F.2.2.1
  have f1 : wPd w = d := Fin.ext (by simp only [wPd, Fin.ofNat]; omega)
  have f2 : wPa w = a := Fin.ext (by simp only [wPa, Fin.ofNat]; omega)
  have f3 : wPb w = b := Fin.ext (by simp only [wPb, Fin.ofNat]; omega)
  have ez : bitsOf w 7 3 + bitsOf w 13 3 + bitsOf w 19 3 = 0 := by
    simp only [bitsOf, Nat.reducePow]
    omega
  rw [raw_14 e1]
  simp only [e2, f1, f2, f3, eg, decodePred, ez]

theorem pnot (g : Guard) (d : PReg) (a : PReg) : Statement (.pnot g d a) := by
  intro h
  have h_d := d.isLt
  have h_a := a.isLt
  have hb : 0 < 64 := by decide
  have hl : d.val * 65536 + a.val * 1024 + 0 * 16 + 4 < 4194304 := by omega
  refine decode_ok (g := g) (maj := 14) (low := d.val * 65536 + a.val * 1024 + 0 * 16 + 4) (by omega) hl rfl rfl rfl h ?_
  intro w hw
  have hc := g.code_lt
  have F := fieldsR g hw (by omega) (by omega) (by omega) hb (by omega)
  have e1 := F.1
  have e2 := F.2.1
  have eg := F.2.2.1
  have f1 : wPd w = d := Fin.ext (by simp only [wPd, Fin.ofNat]; omega)
  have f2 : wPa w = a := Fin.ext (by simp only [wPa, Fin.ofNat]; omega)
  have ez : bitsOf w 4 6 + bitsOf w 13 3 + bitsOf w 19 3 = 0 := by
    simp only [bitsOf, Nat.reducePow]
    omega
  rw [raw_14 e1]
  simp only [e2, f1, f2, eg, decodePred, ez]

theorem pset (g : Guard) (a : Reg) : Statement (.pset g a) := by
  intro h
  have h_a := a.isLt
  have hb : 0 < 64 := by decide
  have hl : 0 * 65536 + a.val * 1024 + 0 * 16 + 5 < 4194304 := by simp only [Nat.zero_mul, Nat.zero_add]; omega
  refine decode_ok (g := g) (maj := 14) (low := 0 * 65536 + a.val * 1024 + 0 * 16 + 5) (by omega) hl rfl rfl rfl h ?_
  intro w hw
  have hc := g.code_lt
  have F := fieldsR g hw (by omega) (by omega) (by omega) hb (by omega)
  have e1 := F.1
  have e2 := F.2.1
  have eg := F.2.2.1
  have f1 : wA w = a := Fin.ext F.2.2.2.2.1
  have ez : bitsOf w 4 6 + bitsOf w 16 6 = 0 := by
    simp only [bitsOf, Nat.reducePow]
    omega
  rw [raw_14 e1]
  simp only [e2, f1, eg, decodePred, ez]

theorem pget (g : Guard) (d : Reg) : Statement (.pget g d) := by
  intro h
  have h_d := d.isLt
  have hb : 0 < 64 := by decide
  have hl : d.val * 65536 + 0 * 1024 + 0 * 16 + 6 < 4194304 := by omega
  refine decode_ok (g := g) (maj := 14) (low := d.val * 65536 + 0 * 1024 + 0 * 16 + 6) (by omega) hl rfl rfl rfl h ?_
  intro w hw
  have hc := g.code_lt
  have F := fieldsR g hw (by omega) (by omega) (by omega) hb (by omega)
  have e1 := F.1
  have e2 := F.2.1
  have eg := F.2.2.1
  have f1 : wD w = d := Fin.ext F.2.2.2.1
  have ez : bitsOf w 4 12 = 0 := by
    simp only [bitsOf, Nat.reducePow]
    omega
  rw [raw_14 e1]
  simp only [e2, f1, eg, decodePred, ez]

theorem pmov (g : Guard) (d : PReg) (a : PReg) : Statement (.pmov g d a) := by
  intro h
  have h_d := d.isLt
  have h_a := a.isLt
  have hb : 0 < 64 := by decide
  have hl : d.val * 65536 + a.val * 1024 + 0 * 16 + 7 < 4194304 := by omega
  refine decode_ok (g := g) (maj := 14) (low := d.val * 65536 + a.val * 1024 + 0 * 16 + 7) (by omega) hl rfl rfl rfl h ?_
  intro w hw
  have hc := g.code_lt
  have F := fieldsR g hw (by omega) (by omega) (by omega) hb (by omega)
  have e1 := F.1
  have e2 := F.2.1
  have eg := F.2.2.1
  have f1 : wPd w = d := Fin.ext (by simp only [wPd, Fin.ofNat]; omega)
  have f2 : wPa w = a := Fin.ext (by simp only [wPa, Fin.ofNat]; omega)
  have ez : bitsOf w 4 6 + bitsOf w 13 3 + bitsOf w 19 3 = 0 := by
    simp only [bitsOf, Nat.reducePow]
    omega
  rw [raw_14 e1]
  simp only [e2, f1, f2, eg, decodePred, ez]

theorem faddS (g : Guard) (d : Reg) (a : Reg) (b : Reg) : Statement (.faddS g d a b) := by
  intro h
  have h_d := d.isLt
  have h_a := a.isLt
  have h_b := b.isLt
  have hb : b.val < 64 := by omega
  have hl : d.val * 65536 + a.val * 1024 + b.val * 16 + 0 < 4194304 := by omega
  refine decode_ok (g := g) (maj := 16) (low := d.val * 65536 + a.val * 1024 + b.val * 16 + 0) (by omega) hl rfl rfl rfl h ?_
  intro w hw
  have hc := g.code_lt
  have F := fieldsR g hw (by omega) (by omega) (by omega) hb (by omega)
  have e1 := F.1
  have e2 := F.2.1
  have eg := F.2.2.1
  have f1 : wD w = d := Fin.ext F.2.2.2.1
  have f2 : wA w = a := Fin.ext F.2.2.2.2.1
  have f3 : wB w = b := Fin.ext F.2.2.2.2.2
  rw [raw_16 e1]
  simp only [e2, f1, f2, f3, eg, decodeFp32]

theorem fsubS (g : Guard) (d : Reg) (a : Reg) (b : Reg) : Statement (.fsubS g d a b) := by
  intro h
  have h_d := d.isLt
  have h_a := a.isLt
  have h_b := b.isLt
  have hb : b.val < 64 := by omega
  have hl : d.val * 65536 + a.val * 1024 + b.val * 16 + 1 < 4194304 := by omega
  refine decode_ok (g := g) (maj := 16) (low := d.val * 65536 + a.val * 1024 + b.val * 16 + 1) (by omega) hl rfl rfl rfl h ?_
  intro w hw
  have hc := g.code_lt
  have F := fieldsR g hw (by omega) (by omega) (by omega) hb (by omega)
  have e1 := F.1
  have e2 := F.2.1
  have eg := F.2.2.1
  have f1 : wD w = d := Fin.ext F.2.2.2.1
  have f2 : wA w = a := Fin.ext F.2.2.2.2.1
  have f3 : wB w = b := Fin.ext F.2.2.2.2.2
  rw [raw_16 e1]
  simp only [e2, f1, f2, f3, eg, decodeFp32]

theorem fmulS (g : Guard) (d : Reg) (a : Reg) (b : Reg) : Statement (.fmulS g d a b) := by
  intro h
  have h_d := d.isLt
  have h_a := a.isLt
  have h_b := b.isLt
  have hb : b.val < 64 := by omega
  have hl : d.val * 65536 + a.val * 1024 + b.val * 16 + 2 < 4194304 := by omega
  refine decode_ok (g := g) (maj := 16) (low := d.val * 65536 + a.val * 1024 + b.val * 16 + 2) (by omega) hl rfl rfl rfl h ?_
  intro w hw
  have hc := g.code_lt
  have F := fieldsR g hw (by omega) (by omega) (by omega) hb (by omega)
  have e1 := F.1
  have e2 := F.2.1
  have eg := F.2.2.1
  have f1 : wD w = d := Fin.ext F.2.2.2.1
  have f2 : wA w = a := Fin.ext F.2.2.2.2.1
  have f3 : wB w = b := Fin.ext F.2.2.2.2.2
  rw [raw_16 e1]
  simp only [e2, f1, f2, f3, eg, decodeFp32]

theorem fdivS (g : Guard) (d : Reg) (a : Reg) (b : Reg) : Statement (.fdivS g d a b) := by
  intro h
  have h_d := d.isLt
  have h_a := a.isLt
  have h_b := b.isLt
  have hb : b.val < 64 := by omega
  have hl : d.val * 65536 + a.val * 1024 + b.val * 16 + 3 < 4194304 := by omega
  refine decode_ok (g := g) (maj := 16) (low := d.val * 65536 + a.val * 1024 + b.val * 16 + 3) (by omega) hl rfl rfl rfl h ?_
  intro w hw
  have hc := g.code_lt
  have F := fieldsR g hw (by omega) (by omega) (by omega) hb (by omega)
  have e1 := F.1
  have e2 := F.2.1
  have eg := F.2.2.1
  have f1 : wD w = d := Fin.ext F.2.2.2.1
  have f2 : wA w = a := Fin.ext F.2.2.2.2.1
  have f3 : wB w = b := Fin.ext F.2.2.2.2.2
  rw [raw_16 e1]
  simp only [e2, f1, f2, f3, eg, decodeFp32]

theorem fsqrtS (g : Guard) (d : Reg) (a : Reg) : Statement (.fsqrtS g d a) := by
  intro h
  have h_d := d.isLt
  have h_a := a.isLt
  have hb : 0 < 64 := by decide
  have hl : d.val * 65536 + a.val * 1024 + 0 * 16 + 4 < 4194304 := by omega
  refine decode_ok (g := g) (maj := 16) (low := d.val * 65536 + a.val * 1024 + 0 * 16 + 4) (by omega) hl rfl rfl rfl h ?_
  intro w hw
  have hc := g.code_lt
  have F := fieldsR g hw (by omega) (by omega) (by omega) hb (by omega)
  have e1 := F.1
  have e2 := F.2.1
  have eg := F.2.2.1
  have f1 : wD w = d := Fin.ext F.2.2.2.1
  have f2 : wA w = a := Fin.ext F.2.2.2.2.1
  have ez : bitsOf w 4 6 = 0 := by
    simp only [bitsOf, Nat.reducePow]
    omega
  rw [raw_16 e1]
  simp only [e2, f1, f2, eg, decodeFp32, ez]

theorem fminS (g : Guard) (d : Reg) (a : Reg) (b : Reg) : Statement (.fminS g d a b) := by
  intro h
  have h_d := d.isLt
  have h_a := a.isLt
  have h_b := b.isLt
  have hb : b.val < 64 := by omega
  have hl : d.val * 65536 + a.val * 1024 + b.val * 16 + 5 < 4194304 := by omega
  refine decode_ok (g := g) (maj := 16) (low := d.val * 65536 + a.val * 1024 + b.val * 16 + 5) (by omega) hl rfl rfl rfl h ?_
  intro w hw
  have hc := g.code_lt
  have F := fieldsR g hw (by omega) (by omega) (by omega) hb (by omega)
  have e1 := F.1
  have e2 := F.2.1
  have eg := F.2.2.1
  have f1 : wD w = d := Fin.ext F.2.2.2.1
  have f2 : wA w = a := Fin.ext F.2.2.2.2.1
  have f3 : wB w = b := Fin.ext F.2.2.2.2.2
  rw [raw_16 e1]
  simp only [e2, f1, f2, f3, eg, decodeFp32]

theorem fmaxS (g : Guard) (d : Reg) (a : Reg) (b : Reg) : Statement (.fmaxS g d a b) := by
  intro h
  have h_d := d.isLt
  have h_a := a.isLt
  have h_b := b.isLt
  have hb : b.val < 64 := by omega
  have hl : d.val * 65536 + a.val * 1024 + b.val * 16 + 6 < 4194304 := by omega
  refine decode_ok (g := g) (maj := 16) (low := d.val * 65536 + a.val * 1024 + b.val * 16 + 6) (by omega) hl rfl rfl rfl h ?_
  intro w hw
  have hc := g.code_lt
  have F := fieldsR g hw (by omega) (by omega) (by omega) hb (by omega)
  have e1 := F.1
  have e2 := F.2.1
  have eg := F.2.2.1
  have f1 : wD w = d := Fin.ext F.2.2.2.1
  have f2 : wA w = a := Fin.ext F.2.2.2.2.1
  have f3 : wB w = b := Fin.ext F.2.2.2.2.2
  rw [raw_16 e1]
  simp only [e2, f1, f2, f3, eg, decodeFp32]

theorem fabsS (g : Guard) (d : Reg) (a : Reg) : Statement (.fabsS g d a) := by
  intro h
  have h_d := d.isLt
  have h_a := a.isLt
  have hb : 0 < 64 := by decide
  have hl : d.val * 65536 + a.val * 1024 + 0 * 16 + 7 < 4194304 := by omega
  refine decode_ok (g := g) (maj := 16) (low := d.val * 65536 + a.val * 1024 + 0 * 16 + 7) (by omega) hl rfl rfl rfl h ?_
  intro w hw
  have hc := g.code_lt
  have F := fieldsR g hw (by omega) (by omega) (by omega) hb (by omega)
  have e1 := F.1
  have e2 := F.2.1
  have eg := F.2.2.1
  have f1 : wD w = d := Fin.ext F.2.2.2.1
  have f2 : wA w = a := Fin.ext F.2.2.2.2.1
  have ez : bitsOf w 4 6 = 0 := by
    simp only [bitsOf, Nat.reducePow]
    omega
  rw [raw_16 e1]
  simp only [e2, f1, f2, eg, decodeFp32, ez]

theorem fnegS (g : Guard) (d : Reg) (a : Reg) : Statement (.fnegS g d a) := by
  intro h
  have h_d := d.isLt
  have h_a := a.isLt
  have hb : 0 < 64 := by decide
  have hl : d.val * 65536 + a.val * 1024 + 0 * 16 + 8 < 4194304 := by omega
  refine decode_ok (g := g) (maj := 16) (low := d.val * 65536 + a.val * 1024 + 0 * 16 + 8) (by omega) hl rfl rfl rfl h ?_
  intro w hw
  have hc := g.code_lt
  have F := fieldsR g hw (by omega) (by omega) (by omega) hb (by omega)
  have e1 := F.1
  have e2 := F.2.1
  have eg := F.2.2.1
  have f1 : wD w = d := Fin.ext F.2.2.2.1
  have f2 : wA w = a := Fin.ext F.2.2.2.2.1
  have ez : bitsOf w 4 6 = 0 := by
    simp only [bitsOf, Nat.reducePow]
    omega
  rw [raw_16 e1]
  simp only [e2, f1, f2, eg, decodeFp32, ez]

theorem fcpysS (g : Guard) (d : Reg) (a : Reg) (b : Reg) : Statement (.fcpysS g d a b) := by
  intro h
  have h_d := d.isLt
  have h_a := a.isLt
  have h_b := b.isLt
  have hb : b.val < 64 := by omega
  have hl : d.val * 65536 + a.val * 1024 + b.val * 16 + 9 < 4194304 := by omega
  refine decode_ok (g := g) (maj := 16) (low := d.val * 65536 + a.val * 1024 + b.val * 16 + 9) (by omega) hl rfl rfl rfl h ?_
  intro w hw
  have hc := g.code_lt
  have F := fieldsR g hw (by omega) (by omega) (by omega) hb (by omega)
  have e1 := F.1
  have e2 := F.2.1
  have eg := F.2.2.1
  have f1 : wD w = d := Fin.ext F.2.2.2.1
  have f2 : wA w = a := Fin.ext F.2.2.2.2.1
  have f3 : wB w = b := Fin.ext F.2.2.2.2.2
  rw [raw_16 e1]
  simp only [e2, f1, f2, f3, eg, decodeFp32]

theorem fclassS (g : Guard) (d : Reg) (a : Reg) : Statement (.fclassS g d a) := by
  intro h
  have h_d := d.isLt
  have h_a := a.isLt
  have hb : 0 < 64 := by decide
  have hl : d.val * 65536 + a.val * 1024 + 0 * 16 + 10 < 4194304 := by omega
  refine decode_ok (g := g) (maj := 16) (low := d.val * 65536 + a.val * 1024 + 0 * 16 + 10) (by omega) hl rfl rfl rfl h ?_
  intro w hw
  have hc := g.code_lt
  have F := fieldsR g hw (by omega) (by omega) (by omega) hb (by omega)
  have e1 := F.1
  have e2 := F.2.1
  have eg := F.2.2.1
  have f1 : wD w = d := Fin.ext F.2.2.2.1
  have f2 : wA w = a := Fin.ext F.2.2.2.2.1
  have ez : bitsOf w 4 6 = 0 := by
    simp only [bitsOf, Nat.reducePow]
    omega
  rw [raw_16 e1]
  simp only [e2, f1, f2, eg, decodeFp32, ez]

theorem frcpS (g : Guard) (d : Reg) (a : Reg) : Statement (.frcpS g d a) := by
  intro h
  have h_d := d.isLt
  have h_a := a.isLt
  have hb : 0 < 64 := by decide
  have hl : d.val * 65536 + a.val * 1024 + 0 * 16 + 11 < 4194304 := by omega
  refine decode_ok (g := g) (maj := 16) (low := d.val * 65536 + a.val * 1024 + 0 * 16 + 11) (by omega) hl rfl rfl rfl h ?_
  intro w hw
  have hc := g.code_lt
  have F := fieldsR g hw (by omega) (by omega) (by omega) hb (by omega)
  have e1 := F.1
  have e2 := F.2.1
  have eg := F.2.2.1
  have f1 : wD w = d := Fin.ext F.2.2.2.1
  have f2 : wA w = a := Fin.ext F.2.2.2.2.1
  have ez : bitsOf w 4 6 = 0 := by
    simp only [bitsOf, Nat.reducePow]
    omega
  rw [raw_16 e1]
  simp only [e2, f1, f2, eg, decodeFp32, ez]

theorem frsqS (g : Guard) (d : Reg) (a : Reg) : Statement (.frsqS g d a) := by
  intro h
  have h_d := d.isLt
  have h_a := a.isLt
  have hb : 0 < 64 := by decide
  have hl : d.val * 65536 + a.val * 1024 + 0 * 16 + 12 < 4194304 := by omega
  refine decode_ok (g := g) (maj := 16) (low := d.val * 65536 + a.val * 1024 + 0 * 16 + 12) (by omega) hl rfl rfl rfl h ?_
  intro w hw
  have hc := g.code_lt
  have F := fieldsR g hw (by omega) (by omega) (by omega) hb (by omega)
  have e1 := F.1
  have e2 := F.2.1
  have eg := F.2.2.1
  have f1 : wD w = d := Fin.ext F.2.2.2.1
  have f2 : wA w = a := Fin.ext F.2.2.2.2.1
  have ez : bitsOf w 4 6 = 0 := by
    simp only [bitsOf, Nat.reducePow]
    omega
  rw [raw_16 e1]
  simp only [e2, f1, f2, eg, decodeFp32, ez]

theorem fexp2S (g : Guard) (d : Reg) (a : Reg) : Statement (.fexp2S g d a) := by
  intro h
  have h_d := d.isLt
  have h_a := a.isLt
  have hb : 0 < 64 := by decide
  have hl : d.val * 65536 + a.val * 1024 + 0 * 16 + 13 < 4194304 := by omega
  refine decode_ok (g := g) (maj := 16) (low := d.val * 65536 + a.val * 1024 + 0 * 16 + 13) (by omega) hl rfl rfl rfl h ?_
  intro w hw
  have hc := g.code_lt
  have F := fieldsR g hw (by omega) (by omega) (by omega) hb (by omega)
  have e1 := F.1
  have e2 := F.2.1
  have eg := F.2.2.1
  have f1 : wD w = d := Fin.ext F.2.2.2.1
  have f2 : wA w = a := Fin.ext F.2.2.2.2.1
  have ez : bitsOf w 4 6 = 0 := by
    simp only [bitsOf, Nat.reducePow]
    omega
  rw [raw_16 e1]
  simp only [e2, f1, f2, eg, decodeFp32, ez]

theorem flog2S (g : Guard) (d : Reg) (a : Reg) : Statement (.flog2S g d a) := by
  intro h
  have h_d := d.isLt
  have h_a := a.isLt
  have hb : 0 < 64 := by decide
  have hl : d.val * 65536 + a.val * 1024 + 0 * 16 + 14 < 4194304 := by omega
  refine decode_ok (g := g) (maj := 16) (low := d.val * 65536 + a.val * 1024 + 0 * 16 + 14) (by omega) hl rfl rfl rfl h ?_
  intro w hw
  have hc := g.code_lt
  have F := fieldsR g hw (by omega) (by omega) (by omega) hb (by omega)
  have e1 := F.1
  have e2 := F.2.1
  have eg := F.2.2.1
  have f1 : wD w = d := Fin.ext F.2.2.2.1
  have f2 : wA w = a := Fin.ext F.2.2.2.2.1
  have ez : bitsOf w 4 6 = 0 := by
    simp only [bitsOf, Nat.reducePow]
    omega
  rw [raw_16 e1]
  simp only [e2, f1, f2, eg, decodeFp32, ez]

theorem ftanhS (g : Guard) (d : Reg) (a : Reg) : Statement (.ftanhS g d a) := by
  intro h
  have h_d := d.isLt
  have h_a := a.isLt
  have hb : 0 < 64 := by decide
  have hl : d.val * 65536 + a.val * 1024 + 0 * 16 + 15 < 4194304 := by omega
  refine decode_ok (g := g) (maj := 16) (low := d.val * 65536 + a.val * 1024 + 0 * 16 + 15) (by omega) hl rfl rfl rfl h ?_
  intro w hw
  have hc := g.code_lt
  have F := fieldsR g hw (by omega) (by omega) (by omega) hb (by omega)
  have e1 := F.1
  have e2 := F.2.1
  have eg := F.2.2.1
  have f1 : wD w = d := Fin.ext F.2.2.2.1
  have f2 : wA w = a := Fin.ext F.2.2.2.2.1
  have ez : bitsOf w 4 6 = 0 := by
    simp only [bitsOf, Nat.reducePow]
    omega
  rw [raw_16 e1]
  simp only [e2, f1, f2, eg, decodeFp32, ez]

theorem faddD (g : Guard) (d : Reg) (a : Reg) (b : Reg) : Statement (.faddD g d a b) := by
  intro h
  have h_d := d.isLt
  have h_a := a.isLt
  have h_b := b.isLt
  have hb : b.val < 64 := by omega
  have hl : d.val * 65536 + a.val * 1024 + b.val * 16 + 0 < 4194304 := by omega
  refine decode_ok (g := g) (maj := 17) (low := d.val * 65536 + a.val * 1024 + b.val * 16 + 0) (by omega) hl rfl rfl rfl h ?_
  intro w hw
  have hc := g.code_lt
  have F := fieldsR g hw (by omega) (by omega) (by omega) hb (by omega)
  have e1 := F.1
  have e2 := F.2.1
  have eg := F.2.2.1
  have f1 : wD w = d := Fin.ext F.2.2.2.1
  have f2 : wA w = a := Fin.ext F.2.2.2.2.1
  have f3 : wB w = b := Fin.ext F.2.2.2.2.2
  rw [raw_17 e1]
  simp only [e2, f1, f2, f3, eg, decodeFp64]

theorem fsubD (g : Guard) (d : Reg) (a : Reg) (b : Reg) : Statement (.fsubD g d a b) := by
  intro h
  have h_d := d.isLt
  have h_a := a.isLt
  have h_b := b.isLt
  have hb : b.val < 64 := by omega
  have hl : d.val * 65536 + a.val * 1024 + b.val * 16 + 1 < 4194304 := by omega
  refine decode_ok (g := g) (maj := 17) (low := d.val * 65536 + a.val * 1024 + b.val * 16 + 1) (by omega) hl rfl rfl rfl h ?_
  intro w hw
  have hc := g.code_lt
  have F := fieldsR g hw (by omega) (by omega) (by omega) hb (by omega)
  have e1 := F.1
  have e2 := F.2.1
  have eg := F.2.2.1
  have f1 : wD w = d := Fin.ext F.2.2.2.1
  have f2 : wA w = a := Fin.ext F.2.2.2.2.1
  have f3 : wB w = b := Fin.ext F.2.2.2.2.2
  rw [raw_17 e1]
  simp only [e2, f1, f2, f3, eg, decodeFp64]

theorem fmulD (g : Guard) (d : Reg) (a : Reg) (b : Reg) : Statement (.fmulD g d a b) := by
  intro h
  have h_d := d.isLt
  have h_a := a.isLt
  have h_b := b.isLt
  have hb : b.val < 64 := by omega
  have hl : d.val * 65536 + a.val * 1024 + b.val * 16 + 2 < 4194304 := by omega
  refine decode_ok (g := g) (maj := 17) (low := d.val * 65536 + a.val * 1024 + b.val * 16 + 2) (by omega) hl rfl rfl rfl h ?_
  intro w hw
  have hc := g.code_lt
  have F := fieldsR g hw (by omega) (by omega) (by omega) hb (by omega)
  have e1 := F.1
  have e2 := F.2.1
  have eg := F.2.2.1
  have f1 : wD w = d := Fin.ext F.2.2.2.1
  have f2 : wA w = a := Fin.ext F.2.2.2.2.1
  have f3 : wB w = b := Fin.ext F.2.2.2.2.2
  rw [raw_17 e1]
  simp only [e2, f1, f2, f3, eg, decodeFp64]

theorem fdivD (g : Guard) (d : Reg) (a : Reg) (b : Reg) : Statement (.fdivD g d a b) := by
  intro h
  have h_d := d.isLt
  have h_a := a.isLt
  have h_b := b.isLt
  have hb : b.val < 64 := by omega
  have hl : d.val * 65536 + a.val * 1024 + b.val * 16 + 3 < 4194304 := by omega
  refine decode_ok (g := g) (maj := 17) (low := d.val * 65536 + a.val * 1024 + b.val * 16 + 3) (by omega) hl rfl rfl rfl h ?_
  intro w hw
  have hc := g.code_lt
  have F := fieldsR g hw (by omega) (by omega) (by omega) hb (by omega)
  have e1 := F.1
  have e2 := F.2.1
  have eg := F.2.2.1
  have f1 : wD w = d := Fin.ext F.2.2.2.1
  have f2 : wA w = a := Fin.ext F.2.2.2.2.1
  have f3 : wB w = b := Fin.ext F.2.2.2.2.2
  rw [raw_17 e1]
  simp only [e2, f1, f2, f3, eg, decodeFp64]

theorem fsqrtD (g : Guard) (d : Reg) (a : Reg) : Statement (.fsqrtD g d a) := by
  intro h
  have h_d := d.isLt
  have h_a := a.isLt
  have hb : 0 < 64 := by decide
  have hl : d.val * 65536 + a.val * 1024 + 0 * 16 + 4 < 4194304 := by omega
  refine decode_ok (g := g) (maj := 17) (low := d.val * 65536 + a.val * 1024 + 0 * 16 + 4) (by omega) hl rfl rfl rfl h ?_
  intro w hw
  have hc := g.code_lt
  have F := fieldsR g hw (by omega) (by omega) (by omega) hb (by omega)
  have e1 := F.1
  have e2 := F.2.1
  have eg := F.2.2.1
  have f1 : wD w = d := Fin.ext F.2.2.2.1
  have f2 : wA w = a := Fin.ext F.2.2.2.2.1
  have ez : bitsOf w 4 6 = 0 := by
    simp only [bitsOf, Nat.reducePow]
    omega
  rw [raw_17 e1]
  simp only [e2, f1, f2, eg, decodeFp64, ez]

theorem fminD (g : Guard) (d : Reg) (a : Reg) (b : Reg) : Statement (.fminD g d a b) := by
  intro h
  have h_d := d.isLt
  have h_a := a.isLt
  have h_b := b.isLt
  have hb : b.val < 64 := by omega
  have hl : d.val * 65536 + a.val * 1024 + b.val * 16 + 5 < 4194304 := by omega
  refine decode_ok (g := g) (maj := 17) (low := d.val * 65536 + a.val * 1024 + b.val * 16 + 5) (by omega) hl rfl rfl rfl h ?_
  intro w hw
  have hc := g.code_lt
  have F := fieldsR g hw (by omega) (by omega) (by omega) hb (by omega)
  have e1 := F.1
  have e2 := F.2.1
  have eg := F.2.2.1
  have f1 : wD w = d := Fin.ext F.2.2.2.1
  have f2 : wA w = a := Fin.ext F.2.2.2.2.1
  have f3 : wB w = b := Fin.ext F.2.2.2.2.2
  rw [raw_17 e1]
  simp only [e2, f1, f2, f3, eg, decodeFp64]

theorem fmaxD (g : Guard) (d : Reg) (a : Reg) (b : Reg) : Statement (.fmaxD g d a b) := by
  intro h
  have h_d := d.isLt
  have h_a := a.isLt
  have h_b := b.isLt
  have hb : b.val < 64 := by omega
  have hl : d.val * 65536 + a.val * 1024 + b.val * 16 + 6 < 4194304 := by omega
  refine decode_ok (g := g) (maj := 17) (low := d.val * 65536 + a.val * 1024 + b.val * 16 + 6) (by omega) hl rfl rfl rfl h ?_
  intro w hw
  have hc := g.code_lt
  have F := fieldsR g hw (by omega) (by omega) (by omega) hb (by omega)
  have e1 := F.1
  have e2 := F.2.1
  have eg := F.2.2.1
  have f1 : wD w = d := Fin.ext F.2.2.2.1
  have f2 : wA w = a := Fin.ext F.2.2.2.2.1
  have f3 : wB w = b := Fin.ext F.2.2.2.2.2
  rw [raw_17 e1]
  simp only [e2, f1, f2, f3, eg, decodeFp64]

theorem fabsD (g : Guard) (d : Reg) (a : Reg) : Statement (.fabsD g d a) := by
  intro h
  have h_d := d.isLt
  have h_a := a.isLt
  have hb : 0 < 64 := by decide
  have hl : d.val * 65536 + a.val * 1024 + 0 * 16 + 7 < 4194304 := by omega
  refine decode_ok (g := g) (maj := 17) (low := d.val * 65536 + a.val * 1024 + 0 * 16 + 7) (by omega) hl rfl rfl rfl h ?_
  intro w hw
  have hc := g.code_lt
  have F := fieldsR g hw (by omega) (by omega) (by omega) hb (by omega)
  have e1 := F.1
  have e2 := F.2.1
  have eg := F.2.2.1
  have f1 : wD w = d := Fin.ext F.2.2.2.1
  have f2 : wA w = a := Fin.ext F.2.2.2.2.1
  have ez : bitsOf w 4 6 = 0 := by
    simp only [bitsOf, Nat.reducePow]
    omega
  rw [raw_17 e1]
  simp only [e2, f1, f2, eg, decodeFp64, ez]

theorem fnegD (g : Guard) (d : Reg) (a : Reg) : Statement (.fnegD g d a) := by
  intro h
  have h_d := d.isLt
  have h_a := a.isLt
  have hb : 0 < 64 := by decide
  have hl : d.val * 65536 + a.val * 1024 + 0 * 16 + 8 < 4194304 := by omega
  refine decode_ok (g := g) (maj := 17) (low := d.val * 65536 + a.val * 1024 + 0 * 16 + 8) (by omega) hl rfl rfl rfl h ?_
  intro w hw
  have hc := g.code_lt
  have F := fieldsR g hw (by omega) (by omega) (by omega) hb (by omega)
  have e1 := F.1
  have e2 := F.2.1
  have eg := F.2.2.1
  have f1 : wD w = d := Fin.ext F.2.2.2.1
  have f2 : wA w = a := Fin.ext F.2.2.2.2.1
  have ez : bitsOf w 4 6 = 0 := by
    simp only [bitsOf, Nat.reducePow]
    omega
  rw [raw_17 e1]
  simp only [e2, f1, f2, eg, decodeFp64, ez]

theorem fcpysD (g : Guard) (d : Reg) (a : Reg) (b : Reg) : Statement (.fcpysD g d a b) := by
  intro h
  have h_d := d.isLt
  have h_a := a.isLt
  have h_b := b.isLt
  have hb : b.val < 64 := by omega
  have hl : d.val * 65536 + a.val * 1024 + b.val * 16 + 9 < 4194304 := by omega
  refine decode_ok (g := g) (maj := 17) (low := d.val * 65536 + a.val * 1024 + b.val * 16 + 9) (by omega) hl rfl rfl rfl h ?_
  intro w hw
  have hc := g.code_lt
  have F := fieldsR g hw (by omega) (by omega) (by omega) hb (by omega)
  have e1 := F.1
  have e2 := F.2.1
  have eg := F.2.2.1
  have f1 : wD w = d := Fin.ext F.2.2.2.1
  have f2 : wA w = a := Fin.ext F.2.2.2.2.1
  have f3 : wB w = b := Fin.ext F.2.2.2.2.2
  rw [raw_17 e1]
  simp only [e2, f1, f2, f3, eg, decodeFp64]

theorem fclassD (g : Guard) (d : Reg) (a : Reg) : Statement (.fclassD g d a) := by
  intro h
  have h_d := d.isLt
  have h_a := a.isLt
  have hb : 0 < 64 := by decide
  have hl : d.val * 65536 + a.val * 1024 + 0 * 16 + 10 < 4194304 := by omega
  refine decode_ok (g := g) (maj := 17) (low := d.val * 65536 + a.val * 1024 + 0 * 16 + 10) (by omega) hl rfl rfl rfl h ?_
  intro w hw
  have hc := g.code_lt
  have F := fieldsR g hw (by omega) (by omega) (by omega) hb (by omega)
  have e1 := F.1
  have e2 := F.2.1
  have eg := F.2.2.1
  have f1 : wD w = d := Fin.ext F.2.2.2.1
  have f2 : wA w = a := Fin.ext F.2.2.2.2.1
  have ez : bitsOf w 4 6 = 0 := by
    simp only [bitsOf, Nat.reducePow]
    omega
  rw [raw_17 e1]
  simp only [e2, f1, f2, eg, decodeFp64, ez]

theorem fmacS (g : Guard) (d : Reg) (a : Reg) (b : Reg) : Statement (.fmacS g d a b) := by
  intro h
  have h_d := d.isLt
  have h_a := a.isLt
  have h_b := b.isLt
  have hb : b.val < 64 := by omega
  have hl : d.val * 65536 + a.val * 1024 + b.val * 16 + 0 < 4194304 := by omega
  refine decode_ok (g := g) (maj := 18) (low := d.val * 65536 + a.val * 1024 + b.val * 16 + 0) (by omega) hl rfl rfl rfl h ?_
  intro w hw
  have hc := g.code_lt
  have F := fieldsR g hw (by omega) (by omega) (by omega) hb (by omega)
  have e1 := F.1
  have e2 := F.2.1
  have eg := F.2.2.1
  have f1 : wD w = d := Fin.ext F.2.2.2.1
  have f2 : wA w = a := Fin.ext F.2.2.2.2.1
  have f3 : wB w = b := Fin.ext F.2.2.2.2.2
  rw [raw_18 e1]
  simp only [e2, f1, f2, f3, eg, decodeFma]

theorem fmscS (g : Guard) (d : Reg) (a : Reg) (b : Reg) : Statement (.fmscS g d a b) := by
  intro h
  have h_d := d.isLt
  have h_a := a.isLt
  have h_b := b.isLt
  have hb : b.val < 64 := by omega
  have hl : d.val * 65536 + a.val * 1024 + b.val * 16 + 1 < 4194304 := by omega
  refine decode_ok (g := g) (maj := 18) (low := d.val * 65536 + a.val * 1024 + b.val * 16 + 1) (by omega) hl rfl rfl rfl h ?_
  intro w hw
  have hc := g.code_lt
  have F := fieldsR g hw (by omega) (by omega) (by omega) hb (by omega)
  have e1 := F.1
  have e2 := F.2.1
  have eg := F.2.2.1
  have f1 : wD w = d := Fin.ext F.2.2.2.1
  have f2 : wA w = a := Fin.ext F.2.2.2.2.1
  have f3 : wB w = b := Fin.ext F.2.2.2.2.2
  rw [raw_18 e1]
  simp only [e2, f1, f2, f3, eg, decodeFma]

theorem fnmacS (g : Guard) (d : Reg) (a : Reg) (b : Reg) : Statement (.fnmacS g d a b) := by
  intro h
  have h_d := d.isLt
  have h_a := a.isLt
  have h_b := b.isLt
  have hb : b.val < 64 := by omega
  have hl : d.val * 65536 + a.val * 1024 + b.val * 16 + 2 < 4194304 := by omega
  refine decode_ok (g := g) (maj := 18) (low := d.val * 65536 + a.val * 1024 + b.val * 16 + 2) (by omega) hl rfl rfl rfl h ?_
  intro w hw
  have hc := g.code_lt
  have F := fieldsR g hw (by omega) (by omega) (by omega) hb (by omega)
  have e1 := F.1
  have e2 := F.2.1
  have eg := F.2.2.1
  have f1 : wD w = d := Fin.ext F.2.2.2.1
  have f2 : wA w = a := Fin.ext F.2.2.2.2.1
  have f3 : wB w = b := Fin.ext F.2.2.2.2.2
  rw [raw_18 e1]
  simp only [e2, f1, f2, f3, eg, decodeFma]

theorem fmacD (g : Guard) (d : Reg) (a : Reg) (b : Reg) : Statement (.fmacD g d a b) := by
  intro h
  have h_d := d.isLt
  have h_a := a.isLt
  have h_b := b.isLt
  have hb : b.val < 64 := by omega
  have hl : d.val * 65536 + a.val * 1024 + b.val * 16 + 3 < 4194304 := by omega
  refine decode_ok (g := g) (maj := 18) (low := d.val * 65536 + a.val * 1024 + b.val * 16 + 3) (by omega) hl rfl rfl rfl h ?_
  intro w hw
  have hc := g.code_lt
  have F := fieldsR g hw (by omega) (by omega) (by omega) hb (by omega)
  have e1 := F.1
  have e2 := F.2.1
  have eg := F.2.2.1
  have f1 : wD w = d := Fin.ext F.2.2.2.1
  have f2 : wA w = a := Fin.ext F.2.2.2.2.1
  have f3 : wB w = b := Fin.ext F.2.2.2.2.2
  rw [raw_18 e1]
  simp only [e2, f1, f2, f3, eg, decodeFma]

theorem fmscD (g : Guard) (d : Reg) (a : Reg) (b : Reg) : Statement (.fmscD g d a b) := by
  intro h
  have h_d := d.isLt
  have h_a := a.isLt
  have h_b := b.isLt
  have hb : b.val < 64 := by omega
  have hl : d.val * 65536 + a.val * 1024 + b.val * 16 + 4 < 4194304 := by omega
  refine decode_ok (g := g) (maj := 18) (low := d.val * 65536 + a.val * 1024 + b.val * 16 + 4) (by omega) hl rfl rfl rfl h ?_
  intro w hw
  have hc := g.code_lt
  have F := fieldsR g hw (by omega) (by omega) (by omega) hb (by omega)
  have e1 := F.1
  have e2 := F.2.1
  have eg := F.2.2.1
  have f1 : wD w = d := Fin.ext F.2.2.2.1
  have f2 : wA w = a := Fin.ext F.2.2.2.2.1
  have f3 : wB w = b := Fin.ext F.2.2.2.2.2
  rw [raw_18 e1]
  simp only [e2, f1, f2, f3, eg, decodeFma]

theorem fnmacD (g : Guard) (d : Reg) (a : Reg) (b : Reg) : Statement (.fnmacD g d a b) := by
  intro h
  have h_d := d.isLt
  have h_a := a.isLt
  have h_b := b.isLt
  have hb : b.val < 64 := by omega
  have hl : d.val * 65536 + a.val * 1024 + b.val * 16 + 5 < 4194304 := by omega
  refine decode_ok (g := g) (maj := 18) (low := d.val * 65536 + a.val * 1024 + b.val * 16 + 5) (by omega) hl rfl rfl rfl h ?_
  intro w hw
  have hc := g.code_lt
  have F := fieldsR g hw (by omega) (by omega) (by omega) hb (by omega)
  have e1 := F.1
  have e2 := F.2.1
  have eg := F.2.2.1
  have f1 : wD w = d := Fin.ext F.2.2.2.1
  have f2 : wA w = a := Fin.ext F.2.2.2.2.1
  have f3 : wB w = b := Fin.ext F.2.2.2.2.2
  rw [raw_18 e1]
  simp only [e2, f1, f2, f3, eg, decodeFma]

theorem fceqS (g : Guard) (p : PReg) (a : Reg) (b : Reg) : Statement (.fceqS g p a b) := by
  intro h
  have h_p := p.isLt
  have h_a := a.isLt
  have h_b := b.isLt
  have hb : b.val < 64 := by omega
  have hl : p.val * 65536 + a.val * 1024 + b.val * 16 + 0 < 4194304 := by omega
  refine decode_ok (g := g) (maj := 19) (low := p.val * 65536 + a.val * 1024 + b.val * 16 + 0) (by omega) hl rfl rfl rfl h ?_
  intro w hw
  have hc := g.code_lt
  have F := fieldsR g hw (by omega) (by omega) (by omega) hb (by omega)
  have e1 := F.1
  have e2 := F.2.1
  have eg := F.2.2.1
  have f1 : wPd w = p := Fin.ext (by simp only [wPd, Fin.ofNat]; omega)
  have f2 : wA w = a := Fin.ext F.2.2.2.2.1
  have f3 : wB w = b := Fin.ext F.2.2.2.2.2
  have ez : bitsOf w 19 3 = 0 := by
    simp only [bitsOf, Nat.reducePow]
    omega
  rw [raw_19 e1]
  simp only [e2, f1, f2, f3, eg, decodeFcmp, ez]

theorem fcltS (g : Guard) (p : PReg) (a : Reg) (b : Reg) : Statement (.fcltS g p a b) := by
  intro h
  have h_p := p.isLt
  have h_a := a.isLt
  have h_b := b.isLt
  have hb : b.val < 64 := by omega
  have hl : p.val * 65536 + a.val * 1024 + b.val * 16 + 1 < 4194304 := by omega
  refine decode_ok (g := g) (maj := 19) (low := p.val * 65536 + a.val * 1024 + b.val * 16 + 1) (by omega) hl rfl rfl rfl h ?_
  intro w hw
  have hc := g.code_lt
  have F := fieldsR g hw (by omega) (by omega) (by omega) hb (by omega)
  have e1 := F.1
  have e2 := F.2.1
  have eg := F.2.2.1
  have f1 : wPd w = p := Fin.ext (by simp only [wPd, Fin.ofNat]; omega)
  have f2 : wA w = a := Fin.ext F.2.2.2.2.1
  have f3 : wB w = b := Fin.ext F.2.2.2.2.2
  have ez : bitsOf w 19 3 = 0 := by
    simp only [bitsOf, Nat.reducePow]
    omega
  rw [raw_19 e1]
  simp only [e2, f1, f2, f3, eg, decodeFcmp, ez]

theorem fcleS (g : Guard) (p : PReg) (a : Reg) (b : Reg) : Statement (.fcleS g p a b) := by
  intro h
  have h_p := p.isLt
  have h_a := a.isLt
  have h_b := b.isLt
  have hb : b.val < 64 := by omega
  have hl : p.val * 65536 + a.val * 1024 + b.val * 16 + 2 < 4194304 := by omega
  refine decode_ok (g := g) (maj := 19) (low := p.val * 65536 + a.val * 1024 + b.val * 16 + 2) (by omega) hl rfl rfl rfl h ?_
  intro w hw
  have hc := g.code_lt
  have F := fieldsR g hw (by omega) (by omega) (by omega) hb (by omega)
  have e1 := F.1
  have e2 := F.2.1
  have eg := F.2.2.1
  have f1 : wPd w = p := Fin.ext (by simp only [wPd, Fin.ofNat]; omega)
  have f2 : wA w = a := Fin.ext F.2.2.2.2.1
  have f3 : wB w = b := Fin.ext F.2.2.2.2.2
  have ez : bitsOf w 19 3 = 0 := by
    simp only [bitsOf, Nat.reducePow]
    omega
  rw [raw_19 e1]
  simp only [e2, f1, f2, f3, eg, decodeFcmp, ez]

theorem fcunS (g : Guard) (p : PReg) (a : Reg) (b : Reg) : Statement (.fcunS g p a b) := by
  intro h
  have h_p := p.isLt
  have h_a := a.isLt
  have h_b := b.isLt
  have hb : b.val < 64 := by omega
  have hl : p.val * 65536 + a.val * 1024 + b.val * 16 + 3 < 4194304 := by omega
  refine decode_ok (g := g) (maj := 19) (low := p.val * 65536 + a.val * 1024 + b.val * 16 + 3) (by omega) hl rfl rfl rfl h ?_
  intro w hw
  have hc := g.code_lt
  have F := fieldsR g hw (by omega) (by omega) (by omega) hb (by omega)
  have e1 := F.1
  have e2 := F.2.1
  have eg := F.2.2.1
  have f1 : wPd w = p := Fin.ext (by simp only [wPd, Fin.ofNat]; omega)
  have f2 : wA w = a := Fin.ext F.2.2.2.2.1
  have f3 : wB w = b := Fin.ext F.2.2.2.2.2
  have ez : bitsOf w 19 3 = 0 := by
    simp only [bitsOf, Nat.reducePow]
    omega
  rw [raw_19 e1]
  simp only [e2, f1, f2, f3, eg, decodeFcmp, ez]

theorem fceqD (g : Guard) (p : PReg) (a : Reg) (b : Reg) : Statement (.fceqD g p a b) := by
  intro h
  have h_p := p.isLt
  have h_a := a.isLt
  have h_b := b.isLt
  have hb : b.val < 64 := by omega
  have hl : p.val * 65536 + a.val * 1024 + b.val * 16 + 4 < 4194304 := by omega
  refine decode_ok (g := g) (maj := 19) (low := p.val * 65536 + a.val * 1024 + b.val * 16 + 4) (by omega) hl rfl rfl rfl h ?_
  intro w hw
  have hc := g.code_lt
  have F := fieldsR g hw (by omega) (by omega) (by omega) hb (by omega)
  have e1 := F.1
  have e2 := F.2.1
  have eg := F.2.2.1
  have f1 : wPd w = p := Fin.ext (by simp only [wPd, Fin.ofNat]; omega)
  have f2 : wA w = a := Fin.ext F.2.2.2.2.1
  have f3 : wB w = b := Fin.ext F.2.2.2.2.2
  have ez : bitsOf w 19 3 = 0 := by
    simp only [bitsOf, Nat.reducePow]
    omega
  rw [raw_19 e1]
  simp only [e2, f1, f2, f3, eg, decodeFcmp, ez]

theorem fcltD (g : Guard) (p : PReg) (a : Reg) (b : Reg) : Statement (.fcltD g p a b) := by
  intro h
  have h_p := p.isLt
  have h_a := a.isLt
  have h_b := b.isLt
  have hb : b.val < 64 := by omega
  have hl : p.val * 65536 + a.val * 1024 + b.val * 16 + 5 < 4194304 := by omega
  refine decode_ok (g := g) (maj := 19) (low := p.val * 65536 + a.val * 1024 + b.val * 16 + 5) (by omega) hl rfl rfl rfl h ?_
  intro w hw
  have hc := g.code_lt
  have F := fieldsR g hw (by omega) (by omega) (by omega) hb (by omega)
  have e1 := F.1
  have e2 := F.2.1
  have eg := F.2.2.1
  have f1 : wPd w = p := Fin.ext (by simp only [wPd, Fin.ofNat]; omega)
  have f2 : wA w = a := Fin.ext F.2.2.2.2.1
  have f3 : wB w = b := Fin.ext F.2.2.2.2.2
  have ez : bitsOf w 19 3 = 0 := by
    simp only [bitsOf, Nat.reducePow]
    omega
  rw [raw_19 e1]
  simp only [e2, f1, f2, f3, eg, decodeFcmp, ez]

theorem fcleD (g : Guard) (p : PReg) (a : Reg) (b : Reg) : Statement (.fcleD g p a b) := by
  intro h
  have h_p := p.isLt
  have h_a := a.isLt
  have h_b := b.isLt
  have hb : b.val < 64 := by omega
  have hl : p.val * 65536 + a.val * 1024 + b.val * 16 + 6 < 4194304 := by omega
  refine decode_ok (g := g) (maj := 19) (low := p.val * 65536 + a.val * 1024 + b.val * 16 + 6) (by omega) hl rfl rfl rfl h ?_
  intro w hw
  have hc := g.code_lt
  have F := fieldsR g hw (by omega) (by omega) (by omega) hb (by omega)
  have e1 := F.1
  have e2 := F.2.1
  have eg := F.2.2.1
  have f1 : wPd w = p := Fin.ext (by simp only [wPd, Fin.ofNat]; omega)
  have f2 : wA w = a := Fin.ext F.2.2.2.2.1
  have f3 : wB w = b := Fin.ext F.2.2.2.2.2
  have ez : bitsOf w 19 3 = 0 := by
    simp only [bitsOf, Nat.reducePow]
    omega
  rw [raw_19 e1]
  simp only [e2, f1, f2, f3, eg, decodeFcmp, ez]

theorem fcunD (g : Guard) (p : PReg) (a : Reg) (b : Reg) : Statement (.fcunD g p a b) := by
  intro h
  have h_p := p.isLt
  have h_a := a.isLt
  have h_b := b.isLt
  have hb : b.val < 64 := by omega
  have hl : p.val * 65536 + a.val * 1024 + b.val * 16 + 7 < 4194304 := by omega
  refine decode_ok (g := g) (maj := 19) (low := p.val * 65536 + a.val * 1024 + b.val * 16 + 7) (by omega) hl rfl rfl rfl h ?_
  intro w hw
  have hc := g.code_lt
  have F := fieldsR g hw (by omega) (by omega) (by omega) hb (by omega)
  have e1 := F.1
  have e2 := F.2.1
  have eg := F.2.2.1
  have f1 : wPd w = p := Fin.ext (by simp only [wPd, Fin.ofNat]; omega)
  have f2 : wA w = a := Fin.ext F.2.2.2.2.1
  have f3 : wB w = b := Fin.ext F.2.2.2.2.2
  have ez : bitsOf w 19 3 = 0 := by
    simp only [bitsOf, Nat.reducePow]
    omega
  rw [raw_19 e1]
  simp only [e2, f1, f2, f3, eg, decodeFcmp, ez]

theorem cvtSD (g : Guard) (d : Reg) (a : Reg) : Statement (.cvtSD g d a) := by
  intro h
  have h_d := d.isLt
  have h_a := a.isLt
  have hb : 0 < 64 := by decide
  have hl : d.val * 65536 + a.val * 1024 + 0 * 16 + 0 < 4194304 := by omega
  refine decode_ok (g := g) (maj := 20) (low := d.val * 65536 + a.val * 1024 + 0 * 16 + 0) (by omega) hl rfl rfl rfl h ?_
  intro w hw
  have hc := g.code_lt
  have F := fieldsR g hw (by omega) (by omega) (by omega) hb (by omega)
  have e1 := F.1
  have e2 := F.2.1
  have eg := F.2.2.1
  have f1 : wD w = d := Fin.ext F.2.2.2.1
  have f2 : wA w = a := Fin.ext F.2.2.2.2.1
  have ez : bitsOf w 4 6 = 0 := by
    simp only [bitsOf, Nat.reducePow]
    omega
  rw [raw_20 e1]
  simp only [e2, f1, f2, eg, decodeCvt, ez]

theorem cvtDS (g : Guard) (d : Reg) (a : Reg) : Statement (.cvtDS g d a) := by
  intro h
  have h_d := d.isLt
  have h_a := a.isLt
  have hb : 0 < 64 := by decide
  have hl : d.val * 65536 + a.val * 1024 + 0 * 16 + 1 < 4194304 := by omega
  refine decode_ok (g := g) (maj := 20) (low := d.val * 65536 + a.val * 1024 + 0 * 16 + 1) (by omega) hl rfl rfl rfl h ?_
  intro w hw
  have hc := g.code_lt
  have F := fieldsR g hw (by omega) (by omega) (by omega) hb (by omega)
  have e1 := F.1
  have e2 := F.2.1
  have eg := F.2.2.1
  have f1 : wD w = d := Fin.ext F.2.2.2.1
  have f2 : wA w = a := Fin.ext F.2.2.2.2.1
  have ez : bitsOf w 4 6 = 0 := by
    simp only [bitsOf, Nat.reducePow]
    omega
  rw [raw_20 e1]
  simp only [e2, f1, f2, eg, decodeCvt, ez]

theorem cvtSH (g : Guard) (d : Reg) (a : Reg) : Statement (.cvtSH g d a) := by
  intro h
  have h_d := d.isLt
  have h_a := a.isLt
  have hb : 0 < 64 := by decide
  have hl : d.val * 65536 + a.val * 1024 + 0 * 16 + 2 < 4194304 := by omega
  refine decode_ok (g := g) (maj := 20) (low := d.val * 65536 + a.val * 1024 + 0 * 16 + 2) (by omega) hl rfl rfl rfl h ?_
  intro w hw
  have hc := g.code_lt
  have F := fieldsR g hw (by omega) (by omega) (by omega) hb (by omega)
  have e1 := F.1
  have e2 := F.2.1
  have eg := F.2.2.1
  have f1 : wD w = d := Fin.ext F.2.2.2.1
  have f2 : wA w = a := Fin.ext F.2.2.2.2.1
  have ez : bitsOf w 4 6 = 0 := by
    simp only [bitsOf, Nat.reducePow]
    omega
  rw [raw_20 e1]
  simp only [e2, f1, f2, eg, decodeCvt, ez]

theorem cvtHS (g : Guard) (d : Reg) (a : Reg) : Statement (.cvtHS g d a) := by
  intro h
  have h_d := d.isLt
  have h_a := a.isLt
  have hb : 0 < 64 := by decide
  have hl : d.val * 65536 + a.val * 1024 + 0 * 16 + 3 < 4194304 := by omega
  refine decode_ok (g := g) (maj := 20) (low := d.val * 65536 + a.val * 1024 + 0 * 16 + 3) (by omega) hl rfl rfl rfl h ?_
  intro w hw
  have hc := g.code_lt
  have F := fieldsR g hw (by omega) (by omega) (by omega) hb (by omega)
  have e1 := F.1
  have e2 := F.2.1
  have eg := F.2.2.1
  have f1 : wD w = d := Fin.ext F.2.2.2.1
  have f2 : wA w = a := Fin.ext F.2.2.2.2.1
  have ez : bitsOf w 4 6 = 0 := by
    simp only [bitsOf, Nat.reducePow]
    omega
  rw [raw_20 e1]
  simp only [e2, f1, f2, eg, decodeCvt, ez]

theorem cvtSBf (g : Guard) (d : Reg) (a : Reg) : Statement (.cvtSBf g d a) := by
  intro h
  have h_d := d.isLt
  have h_a := a.isLt
  have hb : 0 < 64 := by decide
  have hl : d.val * 65536 + a.val * 1024 + 0 * 16 + 4 < 4194304 := by omega
  refine decode_ok (g := g) (maj := 20) (low := d.val * 65536 + a.val * 1024 + 0 * 16 + 4) (by omega) hl rfl rfl rfl h ?_
  intro w hw
  have hc := g.code_lt
  have F := fieldsR g hw (by omega) (by omega) (by omega) hb (by omega)
  have e1 := F.1
  have e2 := F.2.1
  have eg := F.2.2.1
  have f1 : wD w = d := Fin.ext F.2.2.2.1
  have f2 : wA w = a := Fin.ext F.2.2.2.2.1
  have ez : bitsOf w 4 6 = 0 := by
    simp only [bitsOf, Nat.reducePow]
    omega
  rw [raw_20 e1]
  simp only [e2, f1, f2, eg, decodeCvt, ez]

theorem cvtBfS (g : Guard) (d : Reg) (a : Reg) : Statement (.cvtBfS g d a) := by
  intro h
  have h_d := d.isLt
  have h_a := a.isLt
  have hb : 0 < 64 := by decide
  have hl : d.val * 65536 + a.val * 1024 + 0 * 16 + 5 < 4194304 := by omega
  refine decode_ok (g := g) (maj := 20) (low := d.val * 65536 + a.val * 1024 + 0 * 16 + 5) (by omega) hl rfl rfl rfl h ?_
  intro w hw
  have hc := g.code_lt
  have F := fieldsR g hw (by omega) (by omega) (by omega) hb (by omega)
  have e1 := F.1
  have e2 := F.2.1
  have eg := F.2.2.1
  have f1 : wD w = d := Fin.ext F.2.2.2.1
  have f2 : wA w = a := Fin.ext F.2.2.2.2.1
  have ez : bitsOf w 4 6 = 0 := by
    simp only [bitsOf, Nat.reducePow]
    omega
  rw [raw_20 e1]
  simp only [e2, f1, f2, eg, decodeCvt, ez]

theorem cvtSE4 (g : Guard) (d : Reg) (a : Reg) : Statement (.cvtSE4 g d a) := by
  intro h
  have h_d := d.isLt
  have h_a := a.isLt
  have hb : 0 < 64 := by decide
  have hl : d.val * 65536 + a.val * 1024 + 0 * 16 + 6 < 4194304 := by omega
  refine decode_ok (g := g) (maj := 20) (low := d.val * 65536 + a.val * 1024 + 0 * 16 + 6) (by omega) hl rfl rfl rfl h ?_
  intro w hw
  have hc := g.code_lt
  have F := fieldsR g hw (by omega) (by omega) (by omega) hb (by omega)
  have e1 := F.1
  have e2 := F.2.1
  have eg := F.2.2.1
  have f1 : wD w = d := Fin.ext F.2.2.2.1
  have f2 : wA w = a := Fin.ext F.2.2.2.2.1
  have ez : bitsOf w 4 6 = 0 := by
    simp only [bitsOf, Nat.reducePow]
    omega
  rw [raw_20 e1]
  simp only [e2, f1, f2, eg, decodeCvt, ez]

theorem cvtE4S (g : Guard) (d : Reg) (a : Reg) : Statement (.cvtE4S g d a) := by
  intro h
  have h_d := d.isLt
  have h_a := a.isLt
  have hb : 0 < 64 := by decide
  have hl : d.val * 65536 + a.val * 1024 + 0 * 16 + 7 < 4194304 := by omega
  refine decode_ok (g := g) (maj := 20) (low := d.val * 65536 + a.val * 1024 + 0 * 16 + 7) (by omega) hl rfl rfl rfl h ?_
  intro w hw
  have hc := g.code_lt
  have F := fieldsR g hw (by omega) (by omega) (by omega) hb (by omega)
  have e1 := F.1
  have e2 := F.2.1
  have eg := F.2.2.1
  have f1 : wD w = d := Fin.ext F.2.2.2.1
  have f2 : wA w = a := Fin.ext F.2.2.2.2.1
  have ez : bitsOf w 4 6 = 0 := by
    simp only [bitsOf, Nat.reducePow]
    omega
  rw [raw_20 e1]
  simp only [e2, f1, f2, eg, decodeCvt, ez]

theorem cvtSE5 (g : Guard) (d : Reg) (a : Reg) : Statement (.cvtSE5 g d a) := by
  intro h
  have h_d := d.isLt
  have h_a := a.isLt
  have hb : 0 < 64 := by decide
  have hl : d.val * 65536 + a.val * 1024 + 0 * 16 + 8 < 4194304 := by omega
  refine decode_ok (g := g) (maj := 20) (low := d.val * 65536 + a.val * 1024 + 0 * 16 + 8) (by omega) hl rfl rfl rfl h ?_
  intro w hw
  have hc := g.code_lt
  have F := fieldsR g hw (by omega) (by omega) (by omega) hb (by omega)
  have e1 := F.1
  have e2 := F.2.1
  have eg := F.2.2.1
  have f1 : wD w = d := Fin.ext F.2.2.2.1
  have f2 : wA w = a := Fin.ext F.2.2.2.2.1
  have ez : bitsOf w 4 6 = 0 := by
    simp only [bitsOf, Nat.reducePow]
    omega
  rw [raw_20 e1]
  simp only [e2, f1, f2, eg, decodeCvt, ez]

theorem cvtE5S (g : Guard) (d : Reg) (a : Reg) : Statement (.cvtE5S g d a) := by
  intro h
  have h_d := d.isLt
  have h_a := a.isLt
  have hb : 0 < 64 := by decide
  have hl : d.val * 65536 + a.val * 1024 + 0 * 16 + 9 < 4194304 := by omega
  refine decode_ok (g := g) (maj := 20) (low := d.val * 65536 + a.val * 1024 + 0 * 16 + 9) (by omega) hl rfl rfl rfl h ?_
  intro w hw
  have hc := g.code_lt
  have F := fieldsR g hw (by omega) (by omega) (by omega) hb (by omega)
  have e1 := F.1
  have e2 := F.2.1
  have eg := F.2.2.1
  have f1 : wD w = d := Fin.ext F.2.2.2.1
  have f2 : wA w = a := Fin.ext F.2.2.2.2.1
  have ez : bitsOf w 4 6 = 0 := by
    simp only [bitsOf, Nat.reducePow]
    omega
  rw [raw_20 e1]
  simp only [e2, f1, f2, eg, decodeCvt, ez]

theorem cvtWS (g : Guard) (d : Reg) (a : Reg) : Statement (.cvtWS g d a) := by
  intro h
  have h_d := d.isLt
  have h_a := a.isLt
  have hb : 0 < 64 := by decide
  have hl : d.val * 65536 + a.val * 1024 + 0 * 16 + 10 < 4194304 := by omega
  refine decode_ok (g := g) (maj := 20) (low := d.val * 65536 + a.val * 1024 + 0 * 16 + 10) (by omega) hl rfl rfl rfl h ?_
  intro w hw
  have hc := g.code_lt
  have F := fieldsR g hw (by omega) (by omega) (by omega) hb (by omega)
  have e1 := F.1
  have e2 := F.2.1
  have eg := F.2.2.1
  have f1 : wD w = d := Fin.ext F.2.2.2.1
  have f2 : wA w = a := Fin.ext F.2.2.2.2.1
  have ez : bitsOf w 4 6 = 0 := by
    simp only [bitsOf, Nat.reducePow]
    omega
  rw [raw_20 e1]
  simp only [e2, f1, f2, eg, decodeCvt, ez]

theorem cvtSW (g : Guard) (d : Reg) (a : Reg) : Statement (.cvtSW g d a) := by
  intro h
  have h_d := d.isLt
  have h_a := a.isLt
  have hb : 0 < 64 := by decide
  have hl : d.val * 65536 + a.val * 1024 + 0 * 16 + 11 < 4194304 := by omega
  refine decode_ok (g := g) (maj := 20) (low := d.val * 65536 + a.val * 1024 + 0 * 16 + 11) (by omega) hl rfl rfl rfl h ?_
  intro w hw
  have hc := g.code_lt
  have F := fieldsR g hw (by omega) (by omega) (by omega) hb (by omega)
  have e1 := F.1
  have e2 := F.2.1
  have eg := F.2.2.1
  have f1 : wD w = d := Fin.ext F.2.2.2.1
  have f2 : wA w = a := Fin.ext F.2.2.2.2.1
  have ez : bitsOf w 4 6 = 0 := by
    simp only [bitsOf, Nat.reducePow]
    omega
  rw [raw_20 e1]
  simp only [e2, f1, f2, eg, decodeCvt, ez]

theorem cvtWuS (g : Guard) (d : Reg) (a : Reg) : Statement (.cvtWuS g d a) := by
  intro h
  have h_d := d.isLt
  have h_a := a.isLt
  have hb : 0 < 64 := by decide
  have hl : d.val * 65536 + a.val * 1024 + 0 * 16 + 12 < 4194304 := by omega
  refine decode_ok (g := g) (maj := 20) (low := d.val * 65536 + a.val * 1024 + 0 * 16 + 12) (by omega) hl rfl rfl rfl h ?_
  intro w hw
  have hc := g.code_lt
  have F := fieldsR g hw (by omega) (by omega) (by omega) hb (by omega)
  have e1 := F.1
  have e2 := F.2.1
  have eg := F.2.2.1
  have f1 : wD w = d := Fin.ext F.2.2.2.1
  have f2 : wA w = a := Fin.ext F.2.2.2.2.1
  have ez : bitsOf w 4 6 = 0 := by
    simp only [bitsOf, Nat.reducePow]
    omega
  rw [raw_20 e1]
  simp only [e2, f1, f2, eg, decodeCvt, ez]

theorem cvtSWu (g : Guard) (d : Reg) (a : Reg) : Statement (.cvtSWu g d a) := by
  intro h
  have h_d := d.isLt
  have h_a := a.isLt
  have hb : 0 < 64 := by decide
  have hl : d.val * 65536 + a.val * 1024 + 0 * 16 + 13 < 4194304 := by omega
  refine decode_ok (g := g) (maj := 20) (low := d.val * 65536 + a.val * 1024 + 0 * 16 + 13) (by omega) hl rfl rfl rfl h ?_
  intro w hw
  have hc := g.code_lt
  have F := fieldsR g hw (by omega) (by omega) (by omega) hb (by omega)
  have e1 := F.1
  have e2 := F.2.1
  have eg := F.2.2.1
  have f1 : wD w = d := Fin.ext F.2.2.2.1
  have f2 : wA w = a := Fin.ext F.2.2.2.2.1
  have ez : bitsOf w 4 6 = 0 := by
    simp only [bitsOf, Nat.reducePow]
    omega
  rw [raw_20 e1]
  simp only [e2, f1, f2, eg, decodeCvt, ez]

theorem cvtLD (g : Guard) (d : Reg) (a : Reg) : Statement (.cvtLD g d a) := by
  intro h
  have h_d := d.isLt
  have h_a := a.isLt
  have hb : 0 < 64 := by decide
  have hl : d.val * 65536 + a.val * 1024 + 0 * 16 + 14 < 4194304 := by omega
  refine decode_ok (g := g) (maj := 20) (low := d.val * 65536 + a.val * 1024 + 0 * 16 + 14) (by omega) hl rfl rfl rfl h ?_
  intro w hw
  have hc := g.code_lt
  have F := fieldsR g hw (by omega) (by omega) (by omega) hb (by omega)
  have e1 := F.1
  have e2 := F.2.1
  have eg := F.2.2.1
  have f1 : wD w = d := Fin.ext F.2.2.2.1
  have f2 : wA w = a := Fin.ext F.2.2.2.2.1
  have ez : bitsOf w 4 6 = 0 := by
    simp only [bitsOf, Nat.reducePow]
    omega
  rw [raw_20 e1]
  simp only [e2, f1, f2, eg, decodeCvt, ez]

theorem cvtDL (g : Guard) (d : Reg) (a : Reg) : Statement (.cvtDL g d a) := by
  intro h
  have h_d := d.isLt
  have h_a := a.isLt
  have hb : 0 < 64 := by decide
  have hl : d.val * 65536 + a.val * 1024 + 0 * 16 + 15 < 4194304 := by omega
  refine decode_ok (g := g) (maj := 20) (low := d.val * 65536 + a.val * 1024 + 0 * 16 + 15) (by omega) hl rfl rfl rfl h ?_
  intro w hw
  have hc := g.code_lt
  have F := fieldsR g hw (by omega) (by omega) (by omega) hb (by omega)
  have e1 := F.1
  have e2 := F.2.1
  have eg := F.2.2.1
  have f1 : wD w = d := Fin.ext F.2.2.2.1
  have f2 : wA w = a := Fin.ext F.2.2.2.2.1
  have ez : bitsOf w 4 6 = 0 := by
    simp only [bitsOf, Nat.reducePow]
    omega
  rw [raw_20 e1]
  simp only [e2, f1, f2, eg, decodeCvt, ez]

theorem br (g : Guard) (o : BitVec 22) : Statement (.br g o) := by
  intro h
  have h_o := o.isLt
  have hl : o.toNat < 4194304 := by omega
  refine decode_ok (g := g) (maj := 21) (low := o.toNat) (by omega) hl rfl rfl rfl h ?_
  intro w hw
  have hc := g.code_lt
  have e1 : bitsOf w 22 6 = 21 := by simp only [bitsOf, Nat.reducePow]; omega
  have eg : wG w = g := wG_of g (m := 21) (k := o.toNat) hw (by omega) hl
  have f1 : BitVec.ofNat 22 w = o := by
    apply BitVec.eq_of_toNat_eq; simp only [BitVec.toNat_ofNat]; omega
  rw [raw_21 e1]
  simp only [f1, eg]

theorem call (g : Guard) (o : BitVec 22) : Statement (.call g o) := by
  intro h
  have h_o := o.isLt
  have hl : o.toNat < 4194304 := by omega
  refine decode_ok (g := g) (maj := 22) (low := o.toNat) (by omega) hl rfl rfl rfl h ?_
  intro w hw
  have hc := g.code_lt
  have e1 : bitsOf w 22 6 = 22 := by simp only [bitsOf, Nat.reducePow]; omega
  have eg : wG w = g := wG_of g (m := 22) (k := o.toNat) hw (by omega) hl
  have f1 : BitVec.ofNat 22 w = o := by
    apply BitVec.eq_of_toNat_eq; simp only [BitVec.toNat_ofNat]; omega
  rw [raw_22 e1]
  simp only [f1, eg]

theorem jalr (g : Guard) (d : Reg) (a : Reg) (i : BitVec 10) : Statement (.jalr g d a i) := by
  intro h
  have h_d := d.isLt
  have h_a := a.isLt
  have h_i := i.isLt
  have hl : d.val * 65536 + a.val * 1024 + i.toNat < 4194304 := by omega
  refine decode_ok (g := g) (maj := 23) (low := d.val * 65536 + a.val * 1024 + i.toNat) (by omega) hl rfl rfl rfl h ?_
  intro w hw
  have hc := g.code_lt
  have F := fieldsI g hw (by omega) (by omega) (by omega) (by omega)
  have e1 := F.1
  have eg := F.2.1
  have f1 : wD w = d := Fin.ext F.2.2.1
  have f2 : wA w = a := Fin.ext F.2.2.2.1
  have f3 : BitVec.ofNat 10 w = i := by
    apply BitVec.eq_of_toNat_eq; simp only [BitVec.toNat_ofNat]; omega
  rw [raw_23 e1]
  simp only [f1, f2, f3, eg]

theorem exit (g : Guard) : Statement (.exit g) := by
  intro h
  have hb : 0 < 64 := by decide
  have hl : 0 * 65536 + 0 * 1024 + 0 * 16 + 0 < 4194304 := by decide
  refine decode_ok (g := g) (maj := 24) (low := 0 * 65536 + 0 * 1024 + 0 * 16 + 0) (by omega) hl rfl rfl rfl h ?_
  intro w hw
  have hc := g.code_lt
  have F := fieldsR g hw (by omega) (by omega) (by omega) hb (by omega)
  have e1 := F.1
  have e2 := F.2.1
  have eg := F.2.2.1
  have ez : bitsOf w 4 18 = 0 := by
    simp only [bitsOf, Nat.reducePow]
    omega
  rw [raw_24 e1]
  simp only [e2, eg, decodeThread, ez]

theorem spawn (g : Guard) (d : Reg) (a : Reg) (b : Reg) : Statement (.spawn g d a b) := by
  intro h
  have h_d := d.isLt
  have h_a := a.isLt
  have h_b := b.isLt
  have hb : b.val < 64 := by omega
  have hl : d.val * 65536 + a.val * 1024 + b.val * 16 + 1 < 4194304 := by omega
  refine decode_ok (g := g) (maj := 24) (low := d.val * 65536 + a.val * 1024 + b.val * 16 + 1) (by omega) hl rfl rfl rfl h ?_
  intro w hw
  have hc := g.code_lt
  have F := fieldsR g hw (by omega) (by omega) (by omega) hb (by omega)
  have e1 := F.1
  have e2 := F.2.1
  have eg := F.2.2.1
  have f1 : wD w = d := Fin.ext F.2.2.2.1
  have f2 : wA w = a := Fin.ext F.2.2.2.2.1
  have f3 : wB w = b := Fin.ext F.2.2.2.2.2
  rw [raw_24 e1]
  simp only [e2, f1, f2, f3, eg, decodeThread]

theorem sleep (g : Guard) (d : Reg) (a : Reg) (p : PReg) : Statement (.sleep g d a p) := by
  intro h
  have h_d := d.isLt
  have h_a := a.isLt
  have h_p := p.isLt
  have hb : p.val < 64 := by omega
  have hl : d.val * 65536 + a.val * 1024 + p.val * 16 + 2 < 4194304 := by omega
  refine decode_ok (g := g) (maj := 24) (low := d.val * 65536 + a.val * 1024 + p.val * 16 + 2) (by omega) hl rfl rfl rfl h ?_
  intro w hw
  have hc := g.code_lt
  have F := fieldsR g hw (by omega) (by omega) (by omega) hb (by omega)
  have e1 := F.1
  have e2 := F.2.1
  have eg := F.2.2.1
  have f1 : wD w = d := Fin.ext F.2.2.2.1
  have f2 : wA w = a := Fin.ext F.2.2.2.2.1
  have f3 : wPb w = p := Fin.ext (by simp only [wPb, Fin.ofNat]; omega)
  have ez : bitsOf w 7 3 = 0 := by
    simp only [bitsOf, Nat.reducePow]
    omega
  rw [raw_24 e1]
  simp only [e2, f1, f2, f3, eg, decodeThread, ez]

theorem kill (g : Guard) (d : Reg) (a : Reg) : Statement (.kill g d a) := by
  intro h
  have h_d := d.isLt
  have h_a := a.isLt
  have hb : 0 < 64 := by decide
  have hl : d.val * 65536 + a.val * 1024 + 0 * 16 + 3 < 4194304 := by omega
  refine decode_ok (g := g) (maj := 24) (low := d.val * 65536 + a.val * 1024 + 0 * 16 + 3) (by omega) hl rfl rfl rfl h ?_
  intro w hw
  have hc := g.code_lt
  have F := fieldsR g hw (by omega) (by omega) (by omega) hb (by omega)
  have e1 := F.1
  have e2 := F.2.1
  have eg := F.2.2.1
  have f1 : wD w = d := Fin.ext F.2.2.2.1
  have f2 : wA w = a := Fin.ext F.2.2.2.2.1
  have ez : bitsOf w 4 6 = 0 := by
    simp only [bitsOf, Nat.reducePow]
    omega
  rw [raw_24 e1]
  simp only [e2, f1, f2, eg, decodeThread, ez]

theorem send (g : Guard) (a : Reg) (b : Reg) : Statement (.send g a b) := by
  intro h
  have h_a := a.isLt
  have h_b := b.isLt
  have hb : b.val < 64 := by omega
  have hl : 0 * 65536 + a.val * 1024 + b.val * 16 + 0 < 4194304 := by simp only [Nat.zero_mul, Nat.zero_add]; omega
  refine decode_ok (g := g) (maj := 25) (low := 0 * 65536 + a.val * 1024 + b.val * 16 + 0) (by omega) hl rfl rfl rfl h ?_
  intro w hw
  have hc := g.code_lt
  have F := fieldsR g hw (by omega) (by omega) (by omega) hb (by omega)
  have e1 := F.1
  have e2 := F.2.1
  have eg := F.2.2.1
  have f1 : wA w = a := Fin.ext F.2.2.2.2.1
  have f2 : wB w = b := Fin.ext F.2.2.2.2.2
  have ez : bitsOf w 16 6 = 0 := by
    simp only [bitsOf, Nat.reducePow]
    exact F.2.2.2.1
  rw [raw_25 e1]
  simp only [e2, f1, f2, eg, decodeMsg, ez]

theorem sendw (g : Guard) (d : Reg) (a : Reg) (b : Reg) : Statement (.sendw g d a b) := by
  intro h
  have h_d := d.isLt
  have h_a := a.isLt
  have h_b := b.isLt
  have hb : b.val < 64 := by omega
  have hl : d.val * 65536 + a.val * 1024 + b.val * 16 + 1 < 4194304 := by omega
  refine decode_ok (g := g) (maj := 25) (low := d.val * 65536 + a.val * 1024 + b.val * 16 + 1) (by omega) hl rfl rfl rfl h ?_
  intro w hw
  have hc := g.code_lt
  have F := fieldsR g hw (by omega) (by omega) (by omega) hb (by omega)
  have e1 := F.1
  have e2 := F.2.1
  have eg := F.2.2.1
  have f1 : wD w = d := Fin.ext F.2.2.2.1
  have f2 : wA w = a := Fin.ext F.2.2.2.2.1
  have f3 : wB w = b := Fin.ext F.2.2.2.2.2
  rw [raw_25 e1]
  simp only [e2, f1, f2, f3, eg, decodeMsg]

theorem hbind (g : Guard) (d : Reg) (a : Reg) (b : Reg) : Statement (.hbind g d a b) := by
  intro h
  have h_d := d.isLt
  have h_a := a.isLt
  have h_b := b.isLt
  have hb : b.val < 64 := by omega
  have hl : d.val * 65536 + a.val * 1024 + b.val * 16 + 2 < 4194304 := by omega
  refine decode_ok (g := g) (maj := 25) (low := d.val * 65536 + a.val * 1024 + b.val * 16 + 2) (by omega) hl rfl rfl rfl h ?_
  intro w hw
  have hc := g.code_lt
  have F := fieldsR g hw (by omega) (by omega) (by omega) hb (by omega)
  have e1 := F.1
  have e2 := F.2.1
  have eg := F.2.2.1
  have f1 : wD w = d := Fin.ext F.2.2.2.1
  have f2 : wA w = a := Fin.ext F.2.2.2.2.1
  have f3 : wB w = b := Fin.ext F.2.2.2.2.2
  rw [raw_25 e1]
  simp only [e2, f1, f2, f3, eg, decodeMsg]

theorem hunbind (g : Guard) (d : Reg) (a : Reg) : Statement (.hunbind g d a) := by
  intro h
  have h_d := d.isLt
  have h_a := a.isLt
  have hb : 0 < 64 := by decide
  have hl : d.val * 65536 + a.val * 1024 + 0 * 16 + 3 < 4194304 := by omega
  refine decode_ok (g := g) (maj := 25) (low := d.val * 65536 + a.val * 1024 + 0 * 16 + 3) (by omega) hl rfl rfl rfl h ?_
  intro w hw
  have hc := g.code_lt
  have F := fieldsR g hw (by omega) (by omega) (by omega) hb (by omega)
  have e1 := F.1
  have e2 := F.2.1
  have eg := F.2.2.1
  have f1 : wD w = d := Fin.ext F.2.2.2.1
  have f2 : wA w = a := Fin.ext F.2.2.2.2.1
  have ez : bitsOf w 4 6 = 0 := by
    simp only [bitsOf, Nat.reducePow]
    omega
  rw [raw_25 e1]
  simp only [e2, f1, f2, eg, decodeMsg, ez]

theorem lb (g : Guard) (d : Reg) (a : Reg) (i : BitVec 10) : Statement (.lb g d a i) := by
  intro h
  have h_d := d.isLt
  have h_a := a.isLt
  have h_i := i.isLt
  have hl : d.val * 65536 + a.val * 1024 + i.toNat < 4194304 := by omega
  refine decode_ok (g := g) (maj := 32) (low := d.val * 65536 + a.val * 1024 + i.toNat) (by omega) hl rfl rfl rfl h ?_
  intro w hw
  have hc := g.code_lt
  have F := fieldsI g hw (by omega) (by omega) (by omega) (by omega)
  have e1 := F.1
  have eg := F.2.1
  have f1 : wD w = d := Fin.ext F.2.2.1
  have f2 : wA w = a := Fin.ext F.2.2.2.1
  have f3 : BitVec.ofNat 10 w = i := by
    apply BitVec.eq_of_toNat_eq; simp only [BitVec.toNat_ofNat]; omega
  rw [raw_32 e1]
  simp only [f1, f2, f3, eg]

theorem lbu (g : Guard) (d : Reg) (a : Reg) (i : BitVec 10) : Statement (.lbu g d a i) := by
  intro h
  have h_d := d.isLt
  have h_a := a.isLt
  have h_i := i.isLt
  have hl : d.val * 65536 + a.val * 1024 + i.toNat < 4194304 := by omega
  refine decode_ok (g := g) (maj := 33) (low := d.val * 65536 + a.val * 1024 + i.toNat) (by omega) hl rfl rfl rfl h ?_
  intro w hw
  have hc := g.code_lt
  have F := fieldsI g hw (by omega) (by omega) (by omega) (by omega)
  have e1 := F.1
  have eg := F.2.1
  have f1 : wD w = d := Fin.ext F.2.2.1
  have f2 : wA w = a := Fin.ext F.2.2.2.1
  have f3 : BitVec.ofNat 10 w = i := by
    apply BitVec.eq_of_toNat_eq; simp only [BitVec.toNat_ofNat]; omega
  rw [raw_33 e1]
  simp only [f1, f2, f3, eg]

theorem lh (g : Guard) (d : Reg) (a : Reg) (i : BitVec 10) : Statement (.lh g d a i) := by
  intro h
  have h_d := d.isLt
  have h_a := a.isLt
  have h_i := i.isLt
  have hl : d.val * 65536 + a.val * 1024 + i.toNat < 4194304 := by omega
  refine decode_ok (g := g) (maj := 34) (low := d.val * 65536 + a.val * 1024 + i.toNat) (by omega) hl rfl rfl rfl h ?_
  intro w hw
  have hc := g.code_lt
  have F := fieldsI g hw (by omega) (by omega) (by omega) (by omega)
  have e1 := F.1
  have eg := F.2.1
  have f1 : wD w = d := Fin.ext F.2.2.1
  have f2 : wA w = a := Fin.ext F.2.2.2.1
  have f3 : BitVec.ofNat 10 w = i := by
    apply BitVec.eq_of_toNat_eq; simp only [BitVec.toNat_ofNat]; omega
  rw [raw_34 e1]
  simp only [f1, f2, f3, eg]

theorem lhu (g : Guard) (d : Reg) (a : Reg) (i : BitVec 10) : Statement (.lhu g d a i) := by
  intro h
  have h_d := d.isLt
  have h_a := a.isLt
  have h_i := i.isLt
  have hl : d.val * 65536 + a.val * 1024 + i.toNat < 4194304 := by omega
  refine decode_ok (g := g) (maj := 35) (low := d.val * 65536 + a.val * 1024 + i.toNat) (by omega) hl rfl rfl rfl h ?_
  intro w hw
  have hc := g.code_lt
  have F := fieldsI g hw (by omega) (by omega) (by omega) (by omega)
  have e1 := F.1
  have eg := F.2.1
  have f1 : wD w = d := Fin.ext F.2.2.1
  have f2 : wA w = a := Fin.ext F.2.2.2.1
  have f3 : BitVec.ofNat 10 w = i := by
    apply BitVec.eq_of_toNat_eq; simp only [BitVec.toNat_ofNat]; omega
  rw [raw_35 e1]
  simp only [f1, f2, f3, eg]

theorem lw (g : Guard) (d : Reg) (a : Reg) (i : BitVec 10) : Statement (.lw g d a i) := by
  intro h
  have h_d := d.isLt
  have h_a := a.isLt
  have h_i := i.isLt
  have hl : d.val * 65536 + a.val * 1024 + i.toNat < 4194304 := by omega
  refine decode_ok (g := g) (maj := 36) (low := d.val * 65536 + a.val * 1024 + i.toNat) (by omega) hl rfl rfl rfl h ?_
  intro w hw
  have hc := g.code_lt
  have F := fieldsI g hw (by omega) (by omega) (by omega) (by omega)
  have e1 := F.1
  have eg := F.2.1
  have f1 : wD w = d := Fin.ext F.2.2.1
  have f2 : wA w = a := Fin.ext F.2.2.2.1
  have f3 : BitVec.ofNat 10 w = i := by
    apply BitVec.eq_of_toNat_eq; simp only [BitVec.toNat_ofNat]; omega
  rw [raw_36 e1]
  simp only [f1, f2, f3, eg]

theorem lwu (g : Guard) (d : Reg) (a : Reg) (i : BitVec 10) : Statement (.lwu g d a i) := by
  intro h
  have h_d := d.isLt
  have h_a := a.isLt
  have h_i := i.isLt
  have hl : d.val * 65536 + a.val * 1024 + i.toNat < 4194304 := by omega
  refine decode_ok (g := g) (maj := 37) (low := d.val * 65536 + a.val * 1024 + i.toNat) (by omega) hl rfl rfl rfl h ?_
  intro w hw
  have hc := g.code_lt
  have F := fieldsI g hw (by omega) (by omega) (by omega) (by omega)
  have e1 := F.1
  have eg := F.2.1
  have f1 : wD w = d := Fin.ext F.2.2.1
  have f2 : wA w = a := Fin.ext F.2.2.2.1
  have f3 : BitVec.ofNat 10 w = i := by
    apply BitVec.eq_of_toNat_eq; simp only [BitVec.toNat_ofNat]; omega
  rw [raw_37 e1]
  simp only [f1, f2, f3, eg]

theorem ld (g : Guard) (d : Reg) (a : Reg) (i : BitVec 10) : Statement (.ld g d a i) := by
  intro h
  have h_d := d.isLt
  have h_a := a.isLt
  have h_i := i.isLt
  have hl : d.val * 65536 + a.val * 1024 + i.toNat < 4194304 := by omega
  refine decode_ok (g := g) (maj := 38) (low := d.val * 65536 + a.val * 1024 + i.toNat) (by omega) hl rfl rfl rfl h ?_
  intro w hw
  have hc := g.code_lt
  have F := fieldsI g hw (by omega) (by omega) (by omega) (by omega)
  have e1 := F.1
  have eg := F.2.1
  have f1 : wD w = d := Fin.ext F.2.2.1
  have f2 : wA w = a := Fin.ext F.2.2.2.1
  have f3 : BitVec.ofNat 10 w = i := by
    apply BitVec.eq_of_toNat_eq; simp only [BitVec.toNat_ofNat]; omega
  rw [raw_38 e1]
  simp only [f1, f2, f3, eg]

theorem lq (g : Guard) (d : Reg) (a : Reg) (i : BitVec 10) : Statement (.lq g d a i) := by
  intro h
  have h_d := d.isLt
  have h_a := a.isLt
  have h_i := i.isLt
  have hl : d.val * 65536 + a.val * 1024 + i.toNat < 4194304 := by omega
  refine decode_ok (g := g) (maj := 39) (low := d.val * 65536 + a.val * 1024 + i.toNat) (by omega) hl rfl rfl rfl h ?_
  intro w hw
  have hc := g.code_lt
  have F := fieldsI g hw (by omega) (by omega) (by omega) (by omega)
  have e1 := F.1
  have eg := F.2.1
  have f1 : wD w = d := Fin.ext F.2.2.1
  have f2 : wA w = a := Fin.ext F.2.2.2.1
  have f3 : BitVec.ofNat 10 w = i := by
    apply BitVec.eq_of_toNat_eq; simp only [BitVec.toNat_ofNat]; omega
  rw [raw_39 e1]
  simp only [f1, f2, f3, eg]

theorem sb (g : Guard) (d : Reg) (a : Reg) (i : BitVec 10) : Statement (.sb g d a i) := by
  intro h
  have h_d := d.isLt
  have h_a := a.isLt
  have h_i := i.isLt
  have hl : d.val * 65536 + a.val * 1024 + i.toNat < 4194304 := by omega
  refine decode_ok (g := g) (maj := 40) (low := d.val * 65536 + a.val * 1024 + i.toNat) (by omega) hl rfl rfl rfl h ?_
  intro w hw
  have hc := g.code_lt
  have F := fieldsI g hw (by omega) (by omega) (by omega) (by omega)
  have e1 := F.1
  have eg := F.2.1
  have f1 : wD w = d := Fin.ext F.2.2.1
  have f2 : wA w = a := Fin.ext F.2.2.2.1
  have f3 : BitVec.ofNat 10 w = i := by
    apply BitVec.eq_of_toNat_eq; simp only [BitVec.toNat_ofNat]; omega
  rw [raw_40 e1]
  simp only [f1, f2, f3, eg]

theorem sh (g : Guard) (d : Reg) (a : Reg) (i : BitVec 10) : Statement (.sh g d a i) := by
  intro h
  have h_d := d.isLt
  have h_a := a.isLt
  have h_i := i.isLt
  have hl : d.val * 65536 + a.val * 1024 + i.toNat < 4194304 := by omega
  refine decode_ok (g := g) (maj := 41) (low := d.val * 65536 + a.val * 1024 + i.toNat) (by omega) hl rfl rfl rfl h ?_
  intro w hw
  have hc := g.code_lt
  have F := fieldsI g hw (by omega) (by omega) (by omega) (by omega)
  have e1 := F.1
  have eg := F.2.1
  have f1 : wD w = d := Fin.ext F.2.2.1
  have f2 : wA w = a := Fin.ext F.2.2.2.1
  have f3 : BitVec.ofNat 10 w = i := by
    apply BitVec.eq_of_toNat_eq; simp only [BitVec.toNat_ofNat]; omega
  rw [raw_41 e1]
  simp only [f1, f2, f3, eg]

theorem sw (g : Guard) (d : Reg) (a : Reg) (i : BitVec 10) : Statement (.sw g d a i) := by
  intro h
  have h_d := d.isLt
  have h_a := a.isLt
  have h_i := i.isLt
  have hl : d.val * 65536 + a.val * 1024 + i.toNat < 4194304 := by omega
  refine decode_ok (g := g) (maj := 42) (low := d.val * 65536 + a.val * 1024 + i.toNat) (by omega) hl rfl rfl rfl h ?_
  intro w hw
  have hc := g.code_lt
  have F := fieldsI g hw (by omega) (by omega) (by omega) (by omega)
  have e1 := F.1
  have eg := F.2.1
  have f1 : wD w = d := Fin.ext F.2.2.1
  have f2 : wA w = a := Fin.ext F.2.2.2.1
  have f3 : BitVec.ofNat 10 w = i := by
    apply BitVec.eq_of_toNat_eq; simp only [BitVec.toNat_ofNat]; omega
  rw [raw_42 e1]
  simp only [f1, f2, f3, eg]

theorem sd (g : Guard) (d : Reg) (a : Reg) (i : BitVec 10) : Statement (.sd g d a i) := by
  intro h
  have h_d := d.isLt
  have h_a := a.isLt
  have h_i := i.isLt
  have hl : d.val * 65536 + a.val * 1024 + i.toNat < 4194304 := by omega
  refine decode_ok (g := g) (maj := 43) (low := d.val * 65536 + a.val * 1024 + i.toNat) (by omega) hl rfl rfl rfl h ?_
  intro w hw
  have hc := g.code_lt
  have F := fieldsI g hw (by omega) (by omega) (by omega) (by omega)
  have e1 := F.1
  have eg := F.2.1
  have f1 : wD w = d := Fin.ext F.2.2.1
  have f2 : wA w = a := Fin.ext F.2.2.2.1
  have f3 : BitVec.ofNat 10 w = i := by
    apply BitVec.eq_of_toNat_eq; simp only [BitVec.toNat_ofNat]; omega
  rw [raw_43 e1]
  simp only [f1, f2, f3, eg]

theorem sq (g : Guard) (d : Reg) (a : Reg) (i : BitVec 10) : Statement (.sq g d a i) := by
  intro h
  have h_d := d.isLt
  have h_a := a.isLt
  have h_i := i.isLt
  have hl : d.val * 65536 + a.val * 1024 + i.toNat < 4194304 := by omega
  refine decode_ok (g := g) (maj := 44) (low := d.val * 65536 + a.val * 1024 + i.toNat) (by omega) hl rfl rfl rfl h ?_
  intro w hw
  have hc := g.code_lt
  have F := fieldsI g hw (by omega) (by omega) (by omega) (by omega)
  have e1 := F.1
  have eg := F.2.1
  have f1 : wD w = d := Fin.ext F.2.2.1
  have f2 : wA w = a := Fin.ext F.2.2.2.1
  have f3 : BitVec.ofNat 10 w = i := by
    apply BitVec.eq_of_toNat_eq; simp only [BitVec.toNat_ofNat]; omega
  rw [raw_44 e1]
  simp only [f1, f2, f3, eg]

theorem lacq (g : Guard) (d : Reg) (a : Reg) (s : Scope) (z : OrdSize) : Statement (.lacq g d a s z) := by
  intro h
  have h_d := d.isLt
  have h_a := a.isLt
  have h_s := Scope.code_lt s
  have h_z := OrdSize.code_lt z
  have hb : (s.code * 8 + z.code) < 64 := by omega
  have hl : d.val * 65536 + a.val * 1024 + (s.code * 8 + z.code) * 16 + 0 < 4194304 := by omega
  refine decode_ok (g := g) (maj := 45) (low := d.val * 65536 + a.val * 1024 + (s.code * 8 + z.code) * 16 + 0) (by omega) hl rfl rfl rfl h ?_
  intro w hw
  have hc := g.code_lt
  have F := fieldsR g hw (by omega) (by omega) (by omega) hb (by omega)
  have e1 := F.1
  have e2 := F.2.1
  have eg := F.2.2.1
  have f1 : wD w = d := Fin.ext F.2.2.2.1
  have f2 : wA w = a := Fin.ext F.2.2.2.2.1
  have es : bitsOf w 7 3 = s.code := by simp only [bitsOf, Nat.reducePow]; omega
  have eo : bitsOf w 4 3 = z.code := by simp only [bitsOf, Nat.reducePow]; omega
  rw [raw_45 e1]
  simp only [e2, f1, f2, es, eo, eg, decodeOrd, withScope, scopeOf_code, ordSizeOf_code]

theorem srel (g : Guard) (d : Reg) (a : Reg) (s : Scope) (z : OrdSize) : Statement (.srel g d a s z) := by
  intro h
  have h_d := d.isLt
  have h_a := a.isLt
  have h_s := Scope.code_lt s
  have h_z := OrdSize.code_lt z
  have hb : (s.code * 8 + z.code) < 64 := by omega
  have hl : d.val * 65536 + a.val * 1024 + (s.code * 8 + z.code) * 16 + 1 < 4194304 := by omega
  refine decode_ok (g := g) (maj := 45) (low := d.val * 65536 + a.val * 1024 + (s.code * 8 + z.code) * 16 + 1) (by omega) hl rfl rfl rfl h ?_
  intro w hw
  have hc := g.code_lt
  have F := fieldsR g hw (by omega) (by omega) (by omega) hb (by omega)
  have e1 := F.1
  have e2 := F.2.1
  have eg := F.2.2.1
  have f1 : wD w = d := Fin.ext F.2.2.2.1
  have f2 : wA w = a := Fin.ext F.2.2.2.2.1
  have es : bitsOf w 7 3 = s.code := by simp only [bitsOf, Nat.reducePow]; omega
  have eo : bitsOf w 4 3 = z.code := by simp only [bitsOf, Nat.reducePow]; omega
  rw [raw_45 e1]
  simp only [e2, f1, f2, es, eo, eg, decodeOrd, withScope, scopeOf_code, ordSizeOf_code]

theorem ldf (g : Guard) (d : Reg) (a : Reg) (s : Scope) : Statement (.ldf g d a s) := by
  intro h
  have h_d := d.isLt
  have h_a := a.isLt
  have h_s := Scope.code_lt s
  have hb : (s.code * 8) < 64 := by omega
  have hl : d.val * 65536 + a.val * 1024 + (s.code * 8) * 16 + 0 < 4194304 := by omega
  refine decode_ok (g := g) (maj := 46) (low := d.val * 65536 + a.val * 1024 + (s.code * 8) * 16 + 0) (by omega) hl rfl rfl rfl h ?_
  intro w hw
  have hc := g.code_lt
  have F := fieldsR g hw (by omega) (by omega) (by omega) hb (by omega)
  have e1 := F.1
  have e2 := F.2.1
  have eg := F.2.2.1
  have f1 : wD w = d := Fin.ext F.2.2.2.1
  have f2 : wA w = a := Fin.ext F.2.2.2.2.1
  have es : bitsOf w 7 3 = s.code := by simp only [bitsOf, Nat.reducePow]; omega
  have ez : bitsOf w 4 3 = 0 := by
    simp only [bitsOf, Nat.reducePow]
    omega
  rw [raw_46 e1]
  simp only [e2, f1, f2, es, eg, decodeSyncw, withScope, scopeOf_code, ez]

theorem ldfe (g : Guard) (d : Reg) (a : Reg) (s : Scope) : Statement (.ldfe g d a s) := by
  intro h
  have h_d := d.isLt
  have h_a := a.isLt
  have h_s := Scope.code_lt s
  have hb : (s.code * 8) < 64 := by omega
  have hl : d.val * 65536 + a.val * 1024 + (s.code * 8) * 16 + 1 < 4194304 := by omega
  refine decode_ok (g := g) (maj := 46) (low := d.val * 65536 + a.val * 1024 + (s.code * 8) * 16 + 1) (by omega) hl rfl rfl rfl h ?_
  intro w hw
  have hc := g.code_lt
  have F := fieldsR g hw (by omega) (by omega) (by omega) hb (by omega)
  have e1 := F.1
  have e2 := F.2.1
  have eg := F.2.2.1
  have f1 : wD w = d := Fin.ext F.2.2.2.1
  have f2 : wA w = a := Fin.ext F.2.2.2.2.1
  have es : bitsOf w 7 3 = s.code := by simp only [bitsOf, Nat.reducePow]; omega
  have ez : bitsOf w 4 3 = 0 := by
    simp only [bitsOf, Nat.reducePow]
    omega
  rw [raw_46 e1]
  simp only [e2, f1, f2, es, eg, decodeSyncw, withScope, scopeOf_code, ez]

theorem stef (g : Guard) (d : Reg) (a : Reg) (s : Scope) : Statement (.stef g d a s) := by
  intro h
  have h_d := d.isLt
  have h_a := a.isLt
  have h_s := Scope.code_lt s
  have hb : (s.code * 8) < 64 := by omega
  have hl : d.val * 65536 + a.val * 1024 + (s.code * 8) * 16 + 2 < 4194304 := by omega
  refine decode_ok (g := g) (maj := 46) (low := d.val * 65536 + a.val * 1024 + (s.code * 8) * 16 + 2) (by omega) hl rfl rfl rfl h ?_
  intro w hw
  have hc := g.code_lt
  have F := fieldsR g hw (by omega) (by omega) (by omega) hb (by omega)
  have e1 := F.1
  have e2 := F.2.1
  have eg := F.2.2.1
  have f1 : wD w = d := Fin.ext F.2.2.2.1
  have f2 : wA w = a := Fin.ext F.2.2.2.2.1
  have es : bitsOf w 7 3 = s.code := by simp only [bitsOf, Nat.reducePow]; omega
  have ez : bitsOf w 4 3 = 0 := by
    simp only [bitsOf, Nat.reducePow]
    omega
  rw [raw_46 e1]
  simp only [e2, f1, f2, es, eg, decodeSyncw, withScope, scopeOf_code, ez]

theorem stf (g : Guard) (d : Reg) (a : Reg) (s : Scope) : Statement (.stf g d a s) := by
  intro h
  have h_d := d.isLt
  have h_a := a.isLt
  have h_s := Scope.code_lt s
  have hb : (s.code * 8) < 64 := by omega
  have hl : d.val * 65536 + a.val * 1024 + (s.code * 8) * 16 + 3 < 4194304 := by omega
  refine decode_ok (g := g) (maj := 46) (low := d.val * 65536 + a.val * 1024 + (s.code * 8) * 16 + 3) (by omega) hl rfl rfl rfl h ?_
  intro w hw
  have hc := g.code_lt
  have F := fieldsR g hw (by omega) (by omega) (by omega) hb (by omega)
  have e1 := F.1
  have e2 := F.2.1
  have eg := F.2.2.1
  have f1 : wD w = d := Fin.ext F.2.2.2.1
  have f2 : wA w = a := Fin.ext F.2.2.2.2.1
  have es : bitsOf w 7 3 = s.code := by simp only [bitsOf, Nat.reducePow]; omega
  have ez : bitsOf w 4 3 = 0 := by
    simp only [bitsOf, Nat.reducePow]
    omega
  rw [raw_46 e1]
  simp only [e2, f1, f2, es, eg, decodeSyncw, withScope, scopeOf_code, ez]

theorem sto (g : Guard) (d : Reg) (a : Reg) (s : Scope) : Statement (.sto g d a s) := by
  intro h
  have h_d := d.isLt
  have h_a := a.isLt
  have h_s := Scope.code_lt s
  have hb : (s.code * 8) < 64 := by omega
  have hl : d.val * 65536 + a.val * 1024 + (s.code * 8) * 16 + 4 < 4194304 := by omega
  refine decode_ok (g := g) (maj := 46) (low := d.val * 65536 + a.val * 1024 + (s.code * 8) * 16 + 4) (by omega) hl rfl rfl rfl h ?_
  intro w hw
  have hc := g.code_lt
  have F := fieldsR g hw (by omega) (by omega) (by omega) hb (by omega)
  have e1 := F.1
  have e2 := F.2.1
  have eg := F.2.2.1
  have f1 : wD w = d := Fin.ext F.2.2.2.1
  have f2 : wA w = a := Fin.ext F.2.2.2.2.1
  have es : bitsOf w 7 3 = s.code := by simp only [bitsOf, Nat.reducePow]; omega
  have ez : bitsOf w 4 3 = 0 := by
    simp only [bitsOf, Nat.reducePow]
    omega
  rw [raw_46 e1]
  simp only [e2, f1, f2, es, eg, decodeSyncw, withScope, scopeOf_code, ez]

theorem sete (g : Guard) (a : Reg) (s : Scope) : Statement (.sete g a s) := by
  intro h
  have h_a := a.isLt
  have h_s := Scope.code_lt s
  have hb : (s.code * 8) < 64 := by omega
  have hl : 0 * 65536 + a.val * 1024 + (s.code * 8) * 16 + 5 < 4194304 := by simp only [Nat.zero_mul, Nat.zero_add]; omega
  refine decode_ok (g := g) (maj := 46) (low := 0 * 65536 + a.val * 1024 + (s.code * 8) * 16 + 5) (by omega) hl rfl rfl rfl h ?_
  intro w hw
  have hc := g.code_lt
  have F := fieldsR g hw (by omega) (by omega) (by omega) hb (by omega)
  have e1 := F.1
  have e2 := F.2.1
  have eg := F.2.2.1
  have f1 : wA w = a := Fin.ext F.2.2.2.2.1
  have es : bitsOf w 7 3 = s.code := by simp only [bitsOf, Nat.reducePow]; omega
  have ez : bitsOf w 4 3 + bitsOf w 16 6 = 0 := by
    simp only [bitsOf, Nat.reducePow]
    omega
  rw [raw_46 e1]
  simp only [e2, f1, es, eg, decodeSyncw, withScope, scopeOf_code, ez]

theorem peekf (g : Guard) (p : PReg) (a : Reg) (s : Scope) : Statement (.peekf g p a s) := by
  intro h
  have h_p := p.isLt
  have h_a := a.isLt
  have h_s := Scope.code_lt s
  have hb : (s.code * 8) < 64 := by omega
  have hl : p.val * 65536 + a.val * 1024 + (s.code * 8) * 16 + 6 < 4194304 := by omega
  refine decode_ok (g := g) (maj := 46) (low := p.val * 65536 + a.val * 1024 + (s.code * 8) * 16 + 6) (by omega) hl rfl rfl rfl h ?_
  intro w hw
  have hc := g.code_lt
  have F := fieldsR g hw (by omega) (by omega) (by omega) hb (by omega)
  have e1 := F.1
  have e2 := F.2.1
  have eg := F.2.2.1
  have f1 : wPd w = p := Fin.ext (by simp only [wPd, Fin.ofNat]; omega)
  have f2 : wA w = a := Fin.ext F.2.2.2.2.1
  have es : bitsOf w 7 3 = s.code := by simp only [bitsOf, Nat.reducePow]; omega
  have ez : bitsOf w 4 3 + bitsOf w 19 3 = 0 := by
    simp only [bitsOf, Nat.reducePow]
    omega
  rw [raw_46 e1]
  simp only [e2, f1, f2, es, eg, decodeSyncw, withScope, scopeOf_code, ez]

theorem arrive (g : Guard) (d : Reg) (a : Reg) (s : Scope) : Statement (.arrive g d a s) := by
  intro h
  have h_d := d.isLt
  have h_a := a.isLt
  have h_s := Scope.code_lt s
  have hb : (s.code * 8) < 64 := by omega
  have hl : d.val * 65536 + a.val * 1024 + (s.code * 8) * 16 + 7 < 4194304 := by omega
  refine decode_ok (g := g) (maj := 46) (low := d.val * 65536 + a.val * 1024 + (s.code * 8) * 16 + 7) (by omega) hl rfl rfl rfl h ?_
  intro w hw
  have hc := g.code_lt
  have F := fieldsR g hw (by omega) (by omega) (by omega) hb (by omega)
  have e1 := F.1
  have e2 := F.2.1
  have eg := F.2.2.1
  have f1 : wD w = d := Fin.ext F.2.2.2.1
  have f2 : wA w = a := Fin.ext F.2.2.2.2.1
  have es : bitsOf w 7 3 = s.code := by simp only [bitsOf, Nat.reducePow]; omega
  have ez : bitsOf w 4 3 = 0 := by
    simp only [bitsOf, Nat.reducePow]
    omega
  rw [raw_46 e1]
  simp only [e2, f1, f2, es, eg, decodeSyncw, withScope, scopeOf_code, ez]

theorem expect (g : Guard) (d : Reg) (a : Reg) (s : Scope) : Statement (.expect g d a s) := by
  intro h
  have h_d := d.isLt
  have h_a := a.isLt
  have h_s := Scope.code_lt s
  have hb : (s.code * 8) < 64 := by omega
  have hl : d.val * 65536 + a.val * 1024 + (s.code * 8) * 16 + 8 < 4194304 := by omega
  refine decode_ok (g := g) (maj := 46) (low := d.val * 65536 + a.val * 1024 + (s.code * 8) * 16 + 8) (by omega) hl rfl rfl rfl h ?_
  intro w hw
  have hc := g.code_lt
  have F := fieldsR g hw (by omega) (by omega) (by omega) hb (by omega)
  have e1 := F.1
  have e2 := F.2.1
  have eg := F.2.2.1
  have f1 : wD w = d := Fin.ext F.2.2.2.1
  have f2 : wA w = a := Fin.ext F.2.2.2.2.1
  have es : bitsOf w 7 3 = s.code := by simp only [bitsOf, Nat.reducePow]; omega
  have ez : bitsOf w 4 3 = 0 := by
    simp only [bitsOf, Nat.reducePow]
    omega
  rw [raw_46 e1]
  simp only [e2, f1, f2, es, eg, decodeSyncw, withScope, scopeOf_code, ez]

theorem aaddD (g : Guard) (d : Reg) (a : Reg) (b : Reg) : Statement (.aaddD g d a b) := by
  intro h
  have h_d := d.isLt
  have h_a := a.isLt
  have h_b := b.isLt
  have hb : b.val < 64 := by omega
  have hl : d.val * 65536 + a.val * 1024 + b.val * 16 + 0 < 4194304 := by omega
  refine decode_ok (g := g) (maj := 47) (low := d.val * 65536 + a.val * 1024 + b.val * 16 + 0) (by omega) hl rfl rfl rfl h ?_
  intro w hw
  have hc := g.code_lt
  have F := fieldsR g hw (by omega) (by omega) (by omega) hb (by omega)
  have e1 := F.1
  have e2 := F.2.1
  have eg := F.2.2.1
  have f1 : wD w = d := Fin.ext F.2.2.2.1
  have f2 : wA w = a := Fin.ext F.2.2.2.2.1
  have f3 : wB w = b := Fin.ext F.2.2.2.2.2
  rw [raw_47 e1]
  simp only [e2, f1, f2, f3, eg, decodeAmoD]

theorem aandD (g : Guard) (d : Reg) (a : Reg) (b : Reg) : Statement (.aandD g d a b) := by
  intro h
  have h_d := d.isLt
  have h_a := a.isLt
  have h_b := b.isLt
  have hb : b.val < 64 := by omega
  have hl : d.val * 65536 + a.val * 1024 + b.val * 16 + 1 < 4194304 := by omega
  refine decode_ok (g := g) (maj := 47) (low := d.val * 65536 + a.val * 1024 + b.val * 16 + 1) (by omega) hl rfl rfl rfl h ?_
  intro w hw
  have hc := g.code_lt
  have F := fieldsR g hw (by omega) (by omega) (by omega) hb (by omega)
  have e1 := F.1
  have e2 := F.2.1
  have eg := F.2.2.1
  have f1 : wD w = d := Fin.ext F.2.2.2.1
  have f2 : wA w = a := Fin.ext F.2.2.2.2.1
  have f3 : wB w = b := Fin.ext F.2.2.2.2.2
  rw [raw_47 e1]
  simp only [e2, f1, f2, f3, eg, decodeAmoD]

theorem aorD (g : Guard) (d : Reg) (a : Reg) (b : Reg) : Statement (.aorD g d a b) := by
  intro h
  have h_d := d.isLt
  have h_a := a.isLt
  have h_b := b.isLt
  have hb : b.val < 64 := by omega
  have hl : d.val * 65536 + a.val * 1024 + b.val * 16 + 2 < 4194304 := by omega
  refine decode_ok (g := g) (maj := 47) (low := d.val * 65536 + a.val * 1024 + b.val * 16 + 2) (by omega) hl rfl rfl rfl h ?_
  intro w hw
  have hc := g.code_lt
  have F := fieldsR g hw (by omega) (by omega) (by omega) hb (by omega)
  have e1 := F.1
  have e2 := F.2.1
  have eg := F.2.2.1
  have f1 : wD w = d := Fin.ext F.2.2.2.1
  have f2 : wA w = a := Fin.ext F.2.2.2.2.1
  have f3 : wB w = b := Fin.ext F.2.2.2.2.2
  rw [raw_47 e1]
  simp only [e2, f1, f2, f3, eg, decodeAmoD]

theorem axorD (g : Guard) (d : Reg) (a : Reg) (b : Reg) : Statement (.axorD g d a b) := by
  intro h
  have h_d := d.isLt
  have h_a := a.isLt
  have h_b := b.isLt
  have hb : b.val < 64 := by omega
  have hl : d.val * 65536 + a.val * 1024 + b.val * 16 + 3 < 4194304 := by omega
  refine decode_ok (g := g) (maj := 47) (low := d.val * 65536 + a.val * 1024 + b.val * 16 + 3) (by omega) hl rfl rfl rfl h ?_
  intro w hw
  have hc := g.code_lt
  have F := fieldsR g hw (by omega) (by omega) (by omega) hb (by omega)
  have e1 := F.1
  have e2 := F.2.1
  have eg := F.2.2.1
  have f1 : wD w = d := Fin.ext F.2.2.2.1
  have f2 : wA w = a := Fin.ext F.2.2.2.2.1
  have f3 : wB w = b := Fin.ext F.2.2.2.2.2
  rw [raw_47 e1]
  simp only [e2, f1, f2, f3, eg, decodeAmoD]

theorem aminD (g : Guard) (d : Reg) (a : Reg) (b : Reg) : Statement (.aminD g d a b) := by
  intro h
  have h_d := d.isLt
  have h_a := a.isLt
  have h_b := b.isLt
  have hb : b.val < 64 := by omega
  have hl : d.val * 65536 + a.val * 1024 + b.val * 16 + 4 < 4194304 := by omega
  refine decode_ok (g := g) (maj := 47) (low := d.val * 65536 + a.val * 1024 + b.val * 16 + 4) (by omega) hl rfl rfl rfl h ?_
  intro w hw
  have hc := g.code_lt
  have F := fieldsR g hw (by omega) (by omega) (by omega) hb (by omega)
  have e1 := F.1
  have e2 := F.2.1
  have eg := F.2.2.1
  have f1 : wD w = d := Fin.ext F.2.2.2.1
  have f2 : wA w = a := Fin.ext F.2.2.2.2.1
  have f3 : wB w = b := Fin.ext F.2.2.2.2.2
  rw [raw_47 e1]
  simp only [e2, f1, f2, f3, eg, decodeAmoD]

theorem amaxD (g : Guard) (d : Reg) (a : Reg) (b : Reg) : Statement (.amaxD g d a b) := by
  intro h
  have h_d := d.isLt
  have h_a := a.isLt
  have h_b := b.isLt
  have hb : b.val < 64 := by omega
  have hl : d.val * 65536 + a.val * 1024 + b.val * 16 + 5 < 4194304 := by omega
  refine decode_ok (g := g) (maj := 47) (low := d.val * 65536 + a.val * 1024 + b.val * 16 + 5) (by omega) hl rfl rfl rfl h ?_
  intro w hw
  have hc := g.code_lt
  have F := fieldsR g hw (by omega) (by omega) (by omega) hb (by omega)
  have e1 := F.1
  have e2 := F.2.1
  have eg := F.2.2.1
  have f1 : wD w = d := Fin.ext F.2.2.2.1
  have f2 : wA w = a := Fin.ext F.2.2.2.2.1
  have f3 : wB w = b := Fin.ext F.2.2.2.2.2
  rw [raw_47 e1]
  simp only [e2, f1, f2, f3, eg, decodeAmoD]

theorem aminuD (g : Guard) (d : Reg) (a : Reg) (b : Reg) : Statement (.aminuD g d a b) := by
  intro h
  have h_d := d.isLt
  have h_a := a.isLt
  have h_b := b.isLt
  have hb : b.val < 64 := by omega
  have hl : d.val * 65536 + a.val * 1024 + b.val * 16 + 6 < 4194304 := by omega
  refine decode_ok (g := g) (maj := 47) (low := d.val * 65536 + a.val * 1024 + b.val * 16 + 6) (by omega) hl rfl rfl rfl h ?_
  intro w hw
  have hc := g.code_lt
  have F := fieldsR g hw (by omega) (by omega) (by omega) hb (by omega)
  have e1 := F.1
  have e2 := F.2.1
  have eg := F.2.2.1
  have f1 : wD w = d := Fin.ext F.2.2.2.1
  have f2 : wA w = a := Fin.ext F.2.2.2.2.1
  have f3 : wB w = b := Fin.ext F.2.2.2.2.2
  rw [raw_47 e1]
  simp only [e2, f1, f2, f3, eg, decodeAmoD]

theorem amaxuD (g : Guard) (d : Reg) (a : Reg) (b : Reg) : Statement (.amaxuD g d a b) := by
  intro h
  have h_d := d.isLt
  have h_a := a.isLt
  have h_b := b.isLt
  have hb : b.val < 64 := by omega
  have hl : d.val * 65536 + a.val * 1024 + b.val * 16 + 7 < 4194304 := by omega
  refine decode_ok (g := g) (maj := 47) (low := d.val * 65536 + a.val * 1024 + b.val * 16 + 7) (by omega) hl rfl rfl rfl h ?_
  intro w hw
  have hc := g.code_lt
  have F := fieldsR g hw (by omega) (by omega) (by omega) hb (by omega)
  have e1 := F.1
  have e2 := F.2.1
  have eg := F.2.2.1
  have f1 : wD w = d := Fin.ext F.2.2.2.1
  have f2 : wA w = a := Fin.ext F.2.2.2.2.1
  have f3 : wB w = b := Fin.ext F.2.2.2.2.2
  rw [raw_47 e1]
  simp only [e2, f1, f2, f3, eg, decodeAmoD]

theorem aswpD (g : Guard) (d : Reg) (a : Reg) (b : Reg) : Statement (.aswpD g d a b) := by
  intro h
  have h_d := d.isLt
  have h_a := a.isLt
  have h_b := b.isLt
  have hb : b.val < 64 := by omega
  have hl : d.val * 65536 + a.val * 1024 + b.val * 16 + 8 < 4194304 := by omega
  refine decode_ok (g := g) (maj := 47) (low := d.val * 65536 + a.val * 1024 + b.val * 16 + 8) (by omega) hl rfl rfl rfl h ?_
  intro w hw
  have hc := g.code_lt
  have F := fieldsR g hw (by omega) (by omega) (by omega) hb (by omega)
  have e1 := F.1
  have e2 := F.2.1
  have eg := F.2.2.1
  have f1 : wD w = d := Fin.ext F.2.2.2.1
  have f2 : wA w = a := Fin.ext F.2.2.2.2.1
  have f3 : wB w = b := Fin.ext F.2.2.2.2.2
  rw [raw_47 e1]
  simp only [e2, f1, f2, f3, eg, decodeAmoD]

theorem acasD (g : Guard) (d : Reg) (a : Reg) (b : Reg) : Statement (.acasD g d a b) := by
  intro h
  have h_d := d.isLt
  have h_a := a.isLt
  have h_b := b.isLt
  have hb : b.val < 64 := by omega
  have hl : d.val * 65536 + a.val * 1024 + b.val * 16 + 9 < 4194304 := by omega
  refine decode_ok (g := g) (maj := 47) (low := d.val * 65536 + a.val * 1024 + b.val * 16 + 9) (by omega) hl rfl rfl rfl h ?_
  intro w hw
  have hc := g.code_lt
  have F := fieldsR g hw (by omega) (by omega) (by omega) hb (by omega)
  have e1 := F.1
  have e2 := F.2.1
  have eg := F.2.2.1
  have f1 : wD w = d := Fin.ext F.2.2.2.1
  have f2 : wA w = a := Fin.ext F.2.2.2.2.1
  have f3 : wB w = b := Fin.ext F.2.2.2.2.2
  rw [raw_47 e1]
  simp only [e2, f1, f2, f3, eg, decodeAmoD]

theorem afaddD (g : Guard) (d : Reg) (a : Reg) (b : Reg) : Statement (.afaddD g d a b) := by
  intro h
  have h_d := d.isLt
  have h_a := a.isLt
  have h_b := b.isLt
  have hb : b.val < 64 := by omega
  have hl : d.val * 65536 + a.val * 1024 + b.val * 16 + 10 < 4194304 := by omega
  refine decode_ok (g := g) (maj := 47) (low := d.val * 65536 + a.val * 1024 + b.val * 16 + 10) (by omega) hl rfl rfl rfl h ?_
  intro w hw
  have hc := g.code_lt
  have F := fieldsR g hw (by omega) (by omega) (by omega) hb (by omega)
  have e1 := F.1
  have e2 := F.2.1
  have eg := F.2.2.1
  have f1 : wD w = d := Fin.ext F.2.2.2.1
  have f2 : wA w = a := Fin.ext F.2.2.2.2.1
  have f3 : wB w = b := Fin.ext F.2.2.2.2.2
  rw [raw_47 e1]
  simp only [e2, f1, f2, f3, eg, decodeAmoD]

theorem aaddW (g : Guard) (d : Reg) (a : Reg) (b : Reg) : Statement (.aaddW g d a b) := by
  intro h
  have h_d := d.isLt
  have h_a := a.isLt
  have h_b := b.isLt
  have hb : b.val < 64 := by omega
  have hl : d.val * 65536 + a.val * 1024 + b.val * 16 + 0 < 4194304 := by omega
  refine decode_ok (g := g) (maj := 48) (low := d.val * 65536 + a.val * 1024 + b.val * 16 + 0) (by omega) hl rfl rfl rfl h ?_
  intro w hw
  have hc := g.code_lt
  have F := fieldsR g hw (by omega) (by omega) (by omega) hb (by omega)
  have e1 := F.1
  have e2 := F.2.1
  have eg := F.2.2.1
  have f1 : wD w = d := Fin.ext F.2.2.2.1
  have f2 : wA w = a := Fin.ext F.2.2.2.2.1
  have f3 : wB w = b := Fin.ext F.2.2.2.2.2
  rw [raw_48 e1]
  simp only [e2, f1, f2, f3, eg, decodeAmoW]

theorem aandW (g : Guard) (d : Reg) (a : Reg) (b : Reg) : Statement (.aandW g d a b) := by
  intro h
  have h_d := d.isLt
  have h_a := a.isLt
  have h_b := b.isLt
  have hb : b.val < 64 := by omega
  have hl : d.val * 65536 + a.val * 1024 + b.val * 16 + 1 < 4194304 := by omega
  refine decode_ok (g := g) (maj := 48) (low := d.val * 65536 + a.val * 1024 + b.val * 16 + 1) (by omega) hl rfl rfl rfl h ?_
  intro w hw
  have hc := g.code_lt
  have F := fieldsR g hw (by omega) (by omega) (by omega) hb (by omega)
  have e1 := F.1
  have e2 := F.2.1
  have eg := F.2.2.1
  have f1 : wD w = d := Fin.ext F.2.2.2.1
  have f2 : wA w = a := Fin.ext F.2.2.2.2.1
  have f3 : wB w = b := Fin.ext F.2.2.2.2.2
  rw [raw_48 e1]
  simp only [e2, f1, f2, f3, eg, decodeAmoW]

theorem aorW (g : Guard) (d : Reg) (a : Reg) (b : Reg) : Statement (.aorW g d a b) := by
  intro h
  have h_d := d.isLt
  have h_a := a.isLt
  have h_b := b.isLt
  have hb : b.val < 64 := by omega
  have hl : d.val * 65536 + a.val * 1024 + b.val * 16 + 2 < 4194304 := by omega
  refine decode_ok (g := g) (maj := 48) (low := d.val * 65536 + a.val * 1024 + b.val * 16 + 2) (by omega) hl rfl rfl rfl h ?_
  intro w hw
  have hc := g.code_lt
  have F := fieldsR g hw (by omega) (by omega) (by omega) hb (by omega)
  have e1 := F.1
  have e2 := F.2.1
  have eg := F.2.2.1
  have f1 : wD w = d := Fin.ext F.2.2.2.1
  have f2 : wA w = a := Fin.ext F.2.2.2.2.1
  have f3 : wB w = b := Fin.ext F.2.2.2.2.2
  rw [raw_48 e1]
  simp only [e2, f1, f2, f3, eg, decodeAmoW]

theorem axorW (g : Guard) (d : Reg) (a : Reg) (b : Reg) : Statement (.axorW g d a b) := by
  intro h
  have h_d := d.isLt
  have h_a := a.isLt
  have h_b := b.isLt
  have hb : b.val < 64 := by omega
  have hl : d.val * 65536 + a.val * 1024 + b.val * 16 + 3 < 4194304 := by omega
  refine decode_ok (g := g) (maj := 48) (low := d.val * 65536 + a.val * 1024 + b.val * 16 + 3) (by omega) hl rfl rfl rfl h ?_
  intro w hw
  have hc := g.code_lt
  have F := fieldsR g hw (by omega) (by omega) (by omega) hb (by omega)
  have e1 := F.1
  have e2 := F.2.1
  have eg := F.2.2.1
  have f1 : wD w = d := Fin.ext F.2.2.2.1
  have f2 : wA w = a := Fin.ext F.2.2.2.2.1
  have f3 : wB w = b := Fin.ext F.2.2.2.2.2
  rw [raw_48 e1]
  simp only [e2, f1, f2, f3, eg, decodeAmoW]

theorem aminW (g : Guard) (d : Reg) (a : Reg) (b : Reg) : Statement (.aminW g d a b) := by
  intro h
  have h_d := d.isLt
  have h_a := a.isLt
  have h_b := b.isLt
  have hb : b.val < 64 := by omega
  have hl : d.val * 65536 + a.val * 1024 + b.val * 16 + 4 < 4194304 := by omega
  refine decode_ok (g := g) (maj := 48) (low := d.val * 65536 + a.val * 1024 + b.val * 16 + 4) (by omega) hl rfl rfl rfl h ?_
  intro w hw
  have hc := g.code_lt
  have F := fieldsR g hw (by omega) (by omega) (by omega) hb (by omega)
  have e1 := F.1
  have e2 := F.2.1
  have eg := F.2.2.1
  have f1 : wD w = d := Fin.ext F.2.2.2.1
  have f2 : wA w = a := Fin.ext F.2.2.2.2.1
  have f3 : wB w = b := Fin.ext F.2.2.2.2.2
  rw [raw_48 e1]
  simp only [e2, f1, f2, f3, eg, decodeAmoW]

theorem amaxW (g : Guard) (d : Reg) (a : Reg) (b : Reg) : Statement (.amaxW g d a b) := by
  intro h
  have h_d := d.isLt
  have h_a := a.isLt
  have h_b := b.isLt
  have hb : b.val < 64 := by omega
  have hl : d.val * 65536 + a.val * 1024 + b.val * 16 + 5 < 4194304 := by omega
  refine decode_ok (g := g) (maj := 48) (low := d.val * 65536 + a.val * 1024 + b.val * 16 + 5) (by omega) hl rfl rfl rfl h ?_
  intro w hw
  have hc := g.code_lt
  have F := fieldsR g hw (by omega) (by omega) (by omega) hb (by omega)
  have e1 := F.1
  have e2 := F.2.1
  have eg := F.2.2.1
  have f1 : wD w = d := Fin.ext F.2.2.2.1
  have f2 : wA w = a := Fin.ext F.2.2.2.2.1
  have f3 : wB w = b := Fin.ext F.2.2.2.2.2
  rw [raw_48 e1]
  simp only [e2, f1, f2, f3, eg, decodeAmoW]

theorem aminuW (g : Guard) (d : Reg) (a : Reg) (b : Reg) : Statement (.aminuW g d a b) := by
  intro h
  have h_d := d.isLt
  have h_a := a.isLt
  have h_b := b.isLt
  have hb : b.val < 64 := by omega
  have hl : d.val * 65536 + a.val * 1024 + b.val * 16 + 6 < 4194304 := by omega
  refine decode_ok (g := g) (maj := 48) (low := d.val * 65536 + a.val * 1024 + b.val * 16 + 6) (by omega) hl rfl rfl rfl h ?_
  intro w hw
  have hc := g.code_lt
  have F := fieldsR g hw (by omega) (by omega) (by omega) hb (by omega)
  have e1 := F.1
  have e2 := F.2.1
  have eg := F.2.2.1
  have f1 : wD w = d := Fin.ext F.2.2.2.1
  have f2 : wA w = a := Fin.ext F.2.2.2.2.1
  have f3 : wB w = b := Fin.ext F.2.2.2.2.2
  rw [raw_48 e1]
  simp only [e2, f1, f2, f3, eg, decodeAmoW]

theorem amaxuW (g : Guard) (d : Reg) (a : Reg) (b : Reg) : Statement (.amaxuW g d a b) := by
  intro h
  have h_d := d.isLt
  have h_a := a.isLt
  have h_b := b.isLt
  have hb : b.val < 64 := by omega
  have hl : d.val * 65536 + a.val * 1024 + b.val * 16 + 7 < 4194304 := by omega
  refine decode_ok (g := g) (maj := 48) (low := d.val * 65536 + a.val * 1024 + b.val * 16 + 7) (by omega) hl rfl rfl rfl h ?_
  intro w hw
  have hc := g.code_lt
  have F := fieldsR g hw (by omega) (by omega) (by omega) hb (by omega)
  have e1 := F.1
  have e2 := F.2.1
  have eg := F.2.2.1
  have f1 : wD w = d := Fin.ext F.2.2.2.1
  have f2 : wA w = a := Fin.ext F.2.2.2.2.1
  have f3 : wB w = b := Fin.ext F.2.2.2.2.2
  rw [raw_48 e1]
  simp only [e2, f1, f2, f3, eg, decodeAmoW]

theorem aswpW (g : Guard) (d : Reg) (a : Reg) (b : Reg) : Statement (.aswpW g d a b) := by
  intro h
  have h_d := d.isLt
  have h_a := a.isLt
  have h_b := b.isLt
  have hb : b.val < 64 := by omega
  have hl : d.val * 65536 + a.val * 1024 + b.val * 16 + 8 < 4194304 := by omega
  refine decode_ok (g := g) (maj := 48) (low := d.val * 65536 + a.val * 1024 + b.val * 16 + 8) (by omega) hl rfl rfl rfl h ?_
  intro w hw
  have hc := g.code_lt
  have F := fieldsR g hw (by omega) (by omega) (by omega) hb (by omega)
  have e1 := F.1
  have e2 := F.2.1
  have eg := F.2.2.1
  have f1 : wD w = d := Fin.ext F.2.2.2.1
  have f2 : wA w = a := Fin.ext F.2.2.2.2.1
  have f3 : wB w = b := Fin.ext F.2.2.2.2.2
  rw [raw_48 e1]
  simp only [e2, f1, f2, f3, eg, decodeAmoW]

theorem acasW (g : Guard) (d : Reg) (a : Reg) (b : Reg) : Statement (.acasW g d a b) := by
  intro h
  have h_d := d.isLt
  have h_a := a.isLt
  have h_b := b.isLt
  have hb : b.val < 64 := by omega
  have hl : d.val * 65536 + a.val * 1024 + b.val * 16 + 9 < 4194304 := by omega
  refine decode_ok (g := g) (maj := 48) (low := d.val * 65536 + a.val * 1024 + b.val * 16 + 9) (by omega) hl rfl rfl rfl h ?_
  intro w hw
  have hc := g.code_lt
  have F := fieldsR g hw (by omega) (by omega) (by omega) hb (by omega)
  have e1 := F.1
  have e2 := F.2.1
  have eg := F.2.2.1
  have f1 : wD w = d := Fin.ext F.2.2.2.1
  have f2 : wA w = a := Fin.ext F.2.2.2.2.1
  have f3 : wB w = b := Fin.ext F.2.2.2.2.2
  rw [raw_48 e1]
  simp only [e2, f1, f2, f3, eg, decodeAmoW]

theorem afaddW (g : Guard) (d : Reg) (a : Reg) (b : Reg) : Statement (.afaddW g d a b) := by
  intro h
  have h_d := d.isLt
  have h_a := a.isLt
  have h_b := b.isLt
  have hb : b.val < 64 := by omega
  have hl : d.val * 65536 + a.val * 1024 + b.val * 16 + 10 < 4194304 := by omega
  refine decode_ok (g := g) (maj := 48) (low := d.val * 65536 + a.val * 1024 + b.val * 16 + 10) (by omega) hl rfl rfl rfl h ?_
  intro w hw
  have hc := g.code_lt
  have F := fieldsR g hw (by omega) (by omega) (by omega) hb (by omega)
  have e1 := F.1
  have e2 := F.2.1
  have eg := F.2.2.1
  have f1 : wD w = d := Fin.ext F.2.2.2.1
  have f2 : wA w = a := Fin.ext F.2.2.2.2.1
  have f3 : wB w = b := Fin.ext F.2.2.2.2.2
  rw [raw_48 e1]
  simp only [e2, f1, f2, f3, eg, decodeAmoW]

theorem fenceAcq (g : Guard) (s : Scope) : Statement (.fenceAcq g s) := by
  intro h
  have h_s := Scope.code_lt s
  have hb : s.code < 64 := by omega
  have hl : 0 * 65536 + 0 * 1024 + s.code * 16 + 0 < 4194304 := by simp only [Nat.zero_mul, Nat.zero_add]; omega
  refine decode_ok (g := g) (maj := 49) (low := 0 * 65536 + 0 * 1024 + s.code * 16 + 0) (by omega) hl rfl rfl rfl h ?_
  intro w hw
  have hc := g.code_lt
  have F := fieldsR g hw (by omega) (by omega) (by omega) hb (by omega)
  have e1 := F.1
  have e2 := F.2.1
  have eg := F.2.2.1
  have es : bitsOf w 4 3 = s.code := by simp only [bitsOf, Nat.reducePow]; omega
  have ez : bitsOf w 7 15 = 0 := by
    simp only [bitsOf, Nat.reducePow]
    omega
  rw [raw_49 e1]
  simp only [e2, es, eg, decodeFence, withScope, scopeOf_code, ez]

theorem fenceRel (g : Guard) (s : Scope) : Statement (.fenceRel g s) := by
  intro h
  have h_s := Scope.code_lt s
  have hb : s.code < 64 := by omega
  have hl : 0 * 65536 + 0 * 1024 + s.code * 16 + 1 < 4194304 := by simp only [Nat.zero_mul, Nat.zero_add]; omega
  refine decode_ok (g := g) (maj := 49) (low := 0 * 65536 + 0 * 1024 + s.code * 16 + 1) (by omega) hl rfl rfl rfl h ?_
  intro w hw
  have hc := g.code_lt
  have F := fieldsR g hw (by omega) (by omega) (by omega) hb (by omega)
  have e1 := F.1
  have e2 := F.2.1
  have eg := F.2.2.1
  have es : bitsOf w 4 3 = s.code := by simp only [bitsOf, Nat.reducePow]; omega
  have ez : bitsOf w 7 15 = 0 := by
    simp only [bitsOf, Nat.reducePow]
    omega
  rw [raw_49 e1]
  simp only [e2, es, eg, decodeFence, withScope, scopeOf_code, ez]

theorem fenceAr (g : Guard) (s : Scope) : Statement (.fenceAr g s) := by
  intro h
  have h_s := Scope.code_lt s
  have hb : s.code < 64 := by omega
  have hl : 0 * 65536 + 0 * 1024 + s.code * 16 + 2 < 4194304 := by simp only [Nat.zero_mul, Nat.zero_add]; omega
  refine decode_ok (g := g) (maj := 49) (low := 0 * 65536 + 0 * 1024 + s.code * 16 + 2) (by omega) hl rfl rfl rfl h ?_
  intro w hw
  have hc := g.code_lt
  have F := fieldsR g hw (by omega) (by omega) (by omega) hb (by omega)
  have e1 := F.1
  have e2 := F.2.1
  have eg := F.2.2.1
  have es : bitsOf w 4 3 = s.code := by simp only [bitsOf, Nat.reducePow]; omega
  have ez : bitsOf w 7 15 = 0 := by
    simp only [bitsOf, Nat.reducePow]
    omega
  rw [raw_49 e1]
  simp only [e2, es, eg, decodeFence, withScope, scopeOf_code, ez]

theorem fenceCpy (g : Guard) (s : Scope) : Statement (.fenceCpy g s) := by
  intro h
  have h_s := Scope.code_lt s
  have hb : s.code < 64 := by omega
  have hl : 0 * 65536 + 0 * 1024 + s.code * 16 + 3 < 4194304 := by simp only [Nat.zero_mul, Nat.zero_add]; omega
  refine decode_ok (g := g) (maj := 49) (low := 0 * 65536 + 0 * 1024 + s.code * 16 + 3) (by omega) hl rfl rfl rfl h ?_
  intro w hw
  have hc := g.code_lt
  have F := fieldsR g hw (by omega) (by omega) (by omega) hb (by omega)
  have e1 := F.1
  have e2 := F.2.1
  have eg := F.2.2.1
  have es : bitsOf w 4 3 = s.code := by simp only [bitsOf, Nat.reducePow]; omega
  have ez : bitsOf w 7 15 = 0 := by
    simp only [bitsOf, Nat.reducePow]
    omega
  rw [raw_49 e1]
  simp only [e2, es, eg, decodeFence, withScope, scopeOf_code, ez]

theorem fenceSrv (g : Guard) (s : Scope) : Statement (.fenceSrv g s) := by
  intro h
  have h_s := Scope.code_lt s
  have hb : s.code < 64 := by omega
  have hl : 0 * 65536 + 0 * 1024 + s.code * 16 + 4 < 4194304 := by simp only [Nat.zero_mul, Nat.zero_add]; omega
  refine decode_ok (g := g) (maj := 49) (low := 0 * 65536 + 0 * 1024 + s.code * 16 + 4) (by omega) hl rfl rfl rfl h ?_
  intro w hw
  have hc := g.code_lt
  have F := fieldsR g hw (by omega) (by omega) (by omega) hb (by omega)
  have e1 := F.1
  have e2 := F.2.1
  have eg := F.2.2.1
  have es : bitsOf w 4 3 = s.code := by simp only [bitsOf, Nat.reducePow]; omega
  have ez : bitsOf w 7 15 = 0 := by
    simp only [bitsOf, Nat.reducePow]
    omega
  rw [raw_49 e1]
  simp only [e2, es, eg, decodeFence, withScope, scopeOf_code, ez]

theorem cflush (g : Guard) (a : Reg) : Statement (.cflush g a) := by
  intro h
  have h_a := a.isLt
  have hb : 0 < 64 := by decide
  have hl : 0 * 65536 + a.val * 1024 + 0 * 16 + 0 < 4194304 := by simp only [Nat.zero_mul, Nat.zero_add]; omega
  refine decode_ok (g := g) (maj := 50) (low := 0 * 65536 + a.val * 1024 + 0 * 16 + 0) (by omega) hl rfl rfl rfl h ?_
  intro w hw
  have hc := g.code_lt
  have F := fieldsR g hw (by omega) (by omega) (by omega) hb (by omega)
  have e1 := F.1
  have e2 := F.2.1
  have eg := F.2.2.1
  have f1 : wA w = a := Fin.ext F.2.2.2.2.1
  have ez : bitsOf w 4 6 + bitsOf w 16 6 = 0 := by
    simp only [bitsOf, Nat.reducePow]
    omega
  rw [raw_50 e1]
  simp only [e2, f1, eg, decodeCache, ez]

theorem cinv (g : Guard) (a : Reg) : Statement (.cinv g a) := by
  intro h
  have h_a := a.isLt
  have hb : 0 < 64 := by decide
  have hl : 0 * 65536 + a.val * 1024 + 0 * 16 + 1 < 4194304 := by simp only [Nat.zero_mul, Nat.zero_add]; omega
  refine decode_ok (g := g) (maj := 50) (low := 0 * 65536 + a.val * 1024 + 0 * 16 + 1) (by omega) hl rfl rfl rfl h ?_
  intro w hw
  have hc := g.code_lt
  have F := fieldsR g hw (by omega) (by omega) (by omega) hb (by omega)
  have e1 := F.1
  have e2 := F.2.1
  have eg := F.2.2.1
  have f1 : wA w = a := Fin.ext F.2.2.2.2.1
  have ez : bitsOf w 4 6 + bitsOf w 16 6 = 0 := by
    simp only [bitsOf, Nat.reducePow]
    omega
  rw [raw_50 e1]
  simp only [e2, f1, eg, decodeCache, ez]

theorem cpref (g : Guard) (a : Reg) : Statement (.cpref g a) := by
  intro h
  have h_a := a.isLt
  have hb : 0 < 64 := by decide
  have hl : 0 * 65536 + a.val * 1024 + 0 * 16 + 2 < 4194304 := by simp only [Nat.zero_mul, Nat.zero_add]; omega
  refine decode_ok (g := g) (maj := 50) (low := 0 * 65536 + a.val * 1024 + 0 * 16 + 2) (by omega) hl rfl rfl rfl h ?_
  intro w hw
  have hc := g.code_lt
  have F := fieldsR g hw (by omega) (by omega) (by omega) hb (by omega)
  have e1 := F.1
  have e2 := F.2.1
  have eg := F.2.2.1
  have f1 : wA w = a := Fin.ext F.2.2.2.2.1
  have ez : bitsOf w 4 6 + bitsOf w 16 6 = 0 := by
    simp only [bitsOf, Nat.reducePow]
    omega
  rw [raw_50 e1]
  simp only [e2, f1, eg, decodeCache, ez]

theorem czero (g : Guard) (a : Reg) : Statement (.czero g a) := by
  intro h
  have h_a := a.isLt
  have hb : 0 < 64 := by decide
  have hl : 0 * 65536 + a.val * 1024 + 0 * 16 + 3 < 4194304 := by simp only [Nat.zero_mul, Nat.zero_add]; omega
  refine decode_ok (g := g) (maj := 50) (low := 0 * 65536 + a.val * 1024 + 0 * 16 + 3) (by omega) hl rfl rfl rfl h ?_
  intro w hw
  have hc := g.code_lt
  have F := fieldsR g hw (by omega) (by omega) (by omega) hb (by omega)
  have e1 := F.1
  have e2 := F.2.1
  have eg := F.2.2.1
  have f1 : wA w = a := Fin.ext F.2.2.2.2.1
  have ez : bitsOf w 4 6 + bitsOf w 16 6 = 0 := by
    simp only [bitsOf, Nat.reducePow]
    omega
  rw [raw_50 e1]
  simp only [e2, f1, eg, decodeCache, ez]

theorem cclean (g : Guard) (a : Reg) : Statement (.cclean g a) := by
  intro h
  have h_a := a.isLt
  have hb : 0 < 64 := by decide
  have hl : 0 * 65536 + a.val * 1024 + 0 * 16 + 4 < 4194304 := by simp only [Nat.zero_mul, Nat.zero_add]; omega
  refine decode_ok (g := g) (maj := 50) (low := 0 * 65536 + a.val * 1024 + 0 * 16 + 4) (by omega) hl rfl rfl rfl h ?_
  intro w hw
  have hc := g.code_lt
  have F := fieldsR g hw (by omega) (by omega) (by omega) hb (by omega)
  have e1 := F.1
  have e2 := F.2.1
  have eg := F.2.2.1
  have f1 : wA w = a := Fin.ext F.2.2.2.2.1
  have ez : bitsOf w 4 6 + bitsOf w 16 6 = 0 := by
    simp only [bitsOf, Nat.reducePow]
    omega
  rw [raw_50 e1]
  simp only [e2, f1, eg, decodeCache, ez]

theorem gjoin (g : Guard) (d : Reg) (n : BitVec 6) : Statement (.gjoin g d n) := by
  intro h
  have h_d := d.isLt
  have h_n := n.isLt
  have hb : n.toNat < 64 := by omega
  have hl : d.val * 65536 + 0 * 1024 + n.toNat * 16 + 0 < 4194304 := by omega
  refine decode_ok (g := g) (maj := 51) (low := d.val * 65536 + 0 * 1024 + n.toNat * 16 + 0) (by omega) hl rfl rfl rfl h ?_
  intro w hw
  have hc := g.code_lt
  have F := fieldsR g hw (by omega) (by omega) (by omega) hb (by omega)
  have e1 := F.1
  have e2 := F.2.1
  have eg := F.2.2.1
  have f1 : wD w = d := Fin.ext F.2.2.2.1
  have f2 : BitVec.ofNat 6 (w / 16) = n := by
    apply BitVec.eq_of_toNat_eq; simp only [BitVec.toNat_ofNat]; omega
  have ez : bitsOf w 10 6 = 0 := by
    simp only [bitsOf, Nat.reducePow]
    omega
  rw [raw_51 e1]
  simp only [e2, f1, f2, eg, decodeGroup, ez]

theorem gleave (g : Guard) (d : Reg) (n : BitVec 6) : Statement (.gleave g d n) := by
  intro h
  have h_d := d.isLt
  have h_n := n.isLt
  have hb : n.toNat < 64 := by omega
  have hl : d.val * 65536 + 0 * 1024 + n.toNat * 16 + 1 < 4194304 := by omega
  refine decode_ok (g := g) (maj := 51) (low := d.val * 65536 + 0 * 1024 + n.toNat * 16 + 1) (by omega) hl rfl rfl rfl h ?_
  intro w hw
  have hc := g.code_lt
  have F := fieldsR g hw (by omega) (by omega) (by omega) hb (by omega)
  have e1 := F.1
  have e2 := F.2.1
  have eg := F.2.2.1
  have f1 : wD w = d := Fin.ext F.2.2.2.1
  have f2 : BitVec.ofNat 6 (w / 16) = n := by
    apply BitVec.eq_of_toNat_eq; simp only [BitVec.toNat_ofNat]; omega
  have ez : bitsOf w 10 6 = 0 := by
    simp only [bitsOf, Nat.reducePow]
    omega
  rw [raw_51 e1]
  simp only [e2, f1, f2, eg, decodeGroup, ez]

theorem gsync (g : Guard) (n : BitVec 6) : Statement (.gsync g n) := by
  intro h
  have h_n := n.isLt
  have hb : n.toNat < 64 := by omega
  have hl : 0 * 65536 + 0 * 1024 + n.toNat * 16 + 2 < 4194304 := by simp only [Nat.zero_mul, Nat.zero_add]; omega
  refine decode_ok (g := g) (maj := 51) (low := 0 * 65536 + 0 * 1024 + n.toNat * 16 + 2) (by omega) hl rfl rfl rfl h ?_
  intro w hw
  have hc := g.code_lt
  have F := fieldsR g hw (by omega) (by omega) (by omega) hb (by omega)
  have e1 := F.1
  have e2 := F.2.1
  have eg := F.2.2.1
  have f1 : BitVec.ofNat 6 (w / 16) = n := by
    apply BitVec.eq_of_toNat_eq; simp only [BitVec.toNat_ofNat]; omega
  have ez : bitsOf w 10 12 = 0 := by
    simp only [bitsOf, Nat.reducePow]
    omega
  rw [raw_51 e1]
  simp only [e2, f1, eg, decodeGroup, ez]

theorem gshfl (g : Guard) (d : Reg) (a : Reg) (n : BitVec 6) : Statement (.gshfl g d a n) := by
  intro h
  have h_d := d.isLt
  have h_a := a.isLt
  have h_n := n.isLt
  have hb : n.toNat < 64 := by omega
  have hl : d.val * 65536 + a.val * 1024 + n.toNat * 16 + 3 < 4194304 := by omega
  refine decode_ok (g := g) (maj := 51) (low := d.val * 65536 + a.val * 1024 + n.toNat * 16 + 3) (by omega) hl rfl rfl rfl h ?_
  intro w hw
  have hc := g.code_lt
  have F := fieldsR g hw (by omega) (by omega) (by omega) hb (by omega)
  have e1 := F.1
  have e2 := F.2.1
  have eg := F.2.2.1
  have f1 : wD w = d := Fin.ext F.2.2.2.1
  have f2 : wA w = a := Fin.ext F.2.2.2.2.1
  have f3 : BitVec.ofNat 6 (w / 16) = n := by
    apply BitVec.eq_of_toNat_eq; simp only [BitVec.toNat_ofNat]; omega
  rw [raw_51 e1]
  simp only [e2, f1, f2, f3, eg, decodeGroup]

theorem gshflx (g : Guard) (d : Reg) (a : Reg) (n : BitVec 6) : Statement (.gshflx g d a n) := by
  intro h
  have h_d := d.isLt
  have h_a := a.isLt
  have h_n := n.isLt
  have hb : n.toNat < 64 := by omega
  have hl : d.val * 65536 + a.val * 1024 + n.toNat * 16 + 4 < 4194304 := by omega
  refine decode_ok (g := g) (maj := 51) (low := d.val * 65536 + a.val * 1024 + n.toNat * 16 + 4) (by omega) hl rfl rfl rfl h ?_
  intro w hw
  have hc := g.code_lt
  have F := fieldsR g hw (by omega) (by omega) (by omega) hb (by omega)
  have e1 := F.1
  have e2 := F.2.1
  have eg := F.2.2.1
  have f1 : wD w = d := Fin.ext F.2.2.2.1
  have f2 : wA w = a := Fin.ext F.2.2.2.2.1
  have f3 : BitVec.ofNat 6 (w / 16) = n := by
    apply BitVec.eq_of_toNat_eq; simp only [BitVec.toNat_ofNat]; omega
  rw [raw_51 e1]
  simp only [e2, f1, f2, f3, eg, decodeGroup]

theorem gbcast (g : Guard) (d : Reg) (a : Reg) (n : BitVec 6) : Statement (.gbcast g d a n) := by
  intro h
  have h_d := d.isLt
  have h_a := a.isLt
  have h_n := n.isLt
  have hb : n.toNat < 64 := by omega
  have hl : d.val * 65536 + a.val * 1024 + n.toNat * 16 + 5 < 4194304 := by omega
  refine decode_ok (g := g) (maj := 51) (low := d.val * 65536 + a.val * 1024 + n.toNat * 16 + 5) (by omega) hl rfl rfl rfl h ?_
  intro w hw
  have hc := g.code_lt
  have F := fieldsR g hw (by omega) (by omega) (by omega) hb (by omega)
  have e1 := F.1
  have e2 := F.2.1
  have eg := F.2.2.1
  have f1 : wD w = d := Fin.ext F.2.2.2.1
  have f2 : wA w = a := Fin.ext F.2.2.2.2.1
  have f3 : BitVec.ofNat 6 (w / 16) = n := by
    apply BitVec.eq_of_toNat_eq; simp only [BitVec.toNat_ofNat]; omega
  rw [raw_51 e1]
  simp only [e2, f1, f2, f3, eg, decodeGroup]

theorem gvoteAny (g : Guard) (d : Reg) (a : Reg) (n : BitVec 6) : Statement (.gvoteAny g d a n) := by
  intro h
  have h_d := d.isLt
  have h_a := a.isLt
  have h_n := n.isLt
  have hb : n.toNat < 64 := by omega
  have hl : d.val * 65536 + a.val * 1024 + n.toNat * 16 + 6 < 4194304 := by omega
  refine decode_ok (g := g) (maj := 51) (low := d.val * 65536 + a.val * 1024 + n.toNat * 16 + 6) (by omega) hl rfl rfl rfl h ?_
  intro w hw
  have hc := g.code_lt
  have F := fieldsR g hw (by omega) (by omega) (by omega) hb (by omega)
  have e1 := F.1
  have e2 := F.2.1
  have eg := F.2.2.1
  have f1 : wD w = d := Fin.ext F.2.2.2.1
  have f2 : wA w = a := Fin.ext F.2.2.2.2.1
  have f3 : BitVec.ofNat 6 (w / 16) = n := by
    apply BitVec.eq_of_toNat_eq; simp only [BitVec.toNat_ofNat]; omega
  rw [raw_51 e1]
  simp only [e2, f1, f2, f3, eg, decodeGroup]

theorem gvoteAll (g : Guard) (d : Reg) (a : Reg) (n : BitVec 6) : Statement (.gvoteAll g d a n) := by
  intro h
  have h_d := d.isLt
  have h_a := a.isLt
  have h_n := n.isLt
  have hb : n.toNat < 64 := by omega
  have hl : d.val * 65536 + a.val * 1024 + n.toNat * 16 + 7 < 4194304 := by omega
  refine decode_ok (g := g) (maj := 51) (low := d.val * 65536 + a.val * 1024 + n.toNat * 16 + 7) (by omega) hl rfl rfl rfl h ?_
  intro w hw
  have hc := g.code_lt
  have F := fieldsR g hw (by omega) (by omega) (by omega) hb (by omega)
  have e1 := F.1
  have e2 := F.2.1
  have eg := F.2.2.1
  have f1 : wD w = d := Fin.ext F.2.2.2.1
  have f2 : wA w = a := Fin.ext F.2.2.2.2.1
  have f3 : BitVec.ofNat 6 (w / 16) = n := by
    apply BitVec.eq_of_toNat_eq; simp only [BitVec.toNat_ofNat]; omega
  rw [raw_51 e1]
  simp only [e2, f1, f2, f3, eg, decodeGroup]

theorem gvoteBal (g : Guard) (d : Reg) (a : Reg) (n : BitVec 6) : Statement (.gvoteBal g d a n) := by
  intro h
  have h_d := d.isLt
  have h_a := a.isLt
  have h_n := n.isLt
  have hb : n.toNat < 64 := by omega
  have hl : d.val * 65536 + a.val * 1024 + n.toNat * 16 + 8 < 4194304 := by omega
  refine decode_ok (g := g) (maj := 51) (low := d.val * 65536 + a.val * 1024 + n.toNat * 16 + 8) (by omega) hl rfl rfl rfl h ?_
  intro w hw
  have hc := g.code_lt
  have F := fieldsR g hw (by omega) (by omega) (by omega) hb (by omega)
  have e1 := F.1
  have e2 := F.2.1
  have eg := F.2.2.1
  have f1 : wD w = d := Fin.ext F.2.2.2.1
  have f2 : wA w = a := Fin.ext F.2.2.2.2.1
  have f3 : BitVec.ofNat 6 (w / 16) = n := by
    apply BitVec.eq_of_toNat_eq; simp only [BitVec.toNat_ofNat]; omega
  rw [raw_51 e1]
  simp only [e2, f1, f2, f3, eg, decodeGroup]

theorem gmatch (g : Guard) (d : Reg) (a : Reg) (n : BitVec 6) : Statement (.gmatch g d a n) := by
  intro h
  have h_d := d.isLt
  have h_a := a.isLt
  have h_n := n.isLt
  have hb : n.toNat < 64 := by omega
  have hl : d.val * 65536 + a.val * 1024 + n.toNat * 16 + 9 < 4194304 := by omega
  refine decode_ok (g := g) (maj := 51) (low := d.val * 65536 + a.val * 1024 + n.toNat * 16 + 9) (by omega) hl rfl rfl rfl h ?_
  intro w hw
  have hc := g.code_lt
  have F := fieldsR g hw (by omega) (by omega) (by omega) hb (by omega)
  have e1 := F.1
  have e2 := F.2.1
  have eg := F.2.2.1
  have f1 : wD w = d := Fin.ext F.2.2.2.1
  have f2 : wA w = a := Fin.ext F.2.2.2.2.1
  have f3 : BitVec.ofNat 6 (w / 16) = n := by
    apply BitVec.eq_of_toNat_eq; simp only [BitVec.toNat_ofNat]; omega
  rw [raw_51 e1]
  simp only [e2, f1, f2, f3, eg, decodeGroup]

theorem gredAdd (g : Guard) (d : Reg) (a : Reg) (n : BitVec 6) : Statement (.gredAdd g d a n) := by
  intro h
  have h_d := d.isLt
  have h_a := a.isLt
  have h_n := n.isLt
  have hb : n.toNat < 64 := by omega
  have hl : d.val * 65536 + a.val * 1024 + n.toNat * 16 + 10 < 4194304 := by omega
  refine decode_ok (g := g) (maj := 51) (low := d.val * 65536 + a.val * 1024 + n.toNat * 16 + 10) (by omega) hl rfl rfl rfl h ?_
  intro w hw
  have hc := g.code_lt
  have F := fieldsR g hw (by omega) (by omega) (by omega) hb (by omega)
  have e1 := F.1
  have e2 := F.2.1
  have eg := F.2.2.1
  have f1 : wD w = d := Fin.ext F.2.2.2.1
  have f2 : wA w = a := Fin.ext F.2.2.2.2.1
  have f3 : BitVec.ofNat 6 (w / 16) = n := by
    apply BitVec.eq_of_toNat_eq; simp only [BitVec.toNat_ofNat]; omega
  rw [raw_51 e1]
  simp only [e2, f1, f2, f3, eg, decodeGroup]

theorem gredMin (g : Guard) (d : Reg) (a : Reg) (n : BitVec 6) : Statement (.gredMin g d a n) := by
  intro h
  have h_d := d.isLt
  have h_a := a.isLt
  have h_n := n.isLt
  have hb : n.toNat < 64 := by omega
  have hl : d.val * 65536 + a.val * 1024 + n.toNat * 16 + 11 < 4194304 := by omega
  refine decode_ok (g := g) (maj := 51) (low := d.val * 65536 + a.val * 1024 + n.toNat * 16 + 11) (by omega) hl rfl rfl rfl h ?_
  intro w hw
  have hc := g.code_lt
  have F := fieldsR g hw (by omega) (by omega) (by omega) hb (by omega)
  have e1 := F.1
  have e2 := F.2.1
  have eg := F.2.2.1
  have f1 : wD w = d := Fin.ext F.2.2.2.1
  have f2 : wA w = a := Fin.ext F.2.2.2.2.1
  have f3 : BitVec.ofNat 6 (w / 16) = n := by
    apply BitVec.eq_of_toNat_eq; simp only [BitVec.toNat_ofNat]; omega
  rw [raw_51 e1]
  simp only [e2, f1, f2, f3, eg, decodeGroup]

theorem gredMax (g : Guard) (d : Reg) (a : Reg) (n : BitVec 6) : Statement (.gredMax g d a n) := by
  intro h
  have h_d := d.isLt
  have h_a := a.isLt
  have h_n := n.isLt
  have hb : n.toNat < 64 := by omega
  have hl : d.val * 65536 + a.val * 1024 + n.toNat * 16 + 12 < 4194304 := by omega
  refine decode_ok (g := g) (maj := 51) (low := d.val * 65536 + a.val * 1024 + n.toNat * 16 + 12) (by omega) hl rfl rfl rfl h ?_
  intro w hw
  have hc := g.code_lt
  have F := fieldsR g hw (by omega) (by omega) (by omega) hb (by omega)
  have e1 := F.1
  have e2 := F.2.1
  have eg := F.2.2.1
  have f1 : wD w = d := Fin.ext F.2.2.2.1
  have f2 : wA w = a := Fin.ext F.2.2.2.2.1
  have f3 : BitVec.ofNat 6 (w / 16) = n := by
    apply BitVec.eq_of_toNat_eq; simp only [BitVec.toNat_ofNat]; omega
  rw [raw_51 e1]
  simp only [e2, f1, f2, f3, eg, decodeGroup]

theorem gredFadd (g : Guard) (d : Reg) (a : Reg) (n : BitVec 6) : Statement (.gredFadd g d a n) := by
  intro h
  have h_d := d.isLt
  have h_a := a.isLt
  have h_n := n.isLt
  have hb : n.toNat < 64 := by omega
  have hl : d.val * 65536 + a.val * 1024 + n.toNat * 16 + 13 < 4194304 := by omega
  refine decode_ok (g := g) (maj := 51) (low := d.val * 65536 + a.val * 1024 + n.toNat * 16 + 13) (by omega) hl rfl rfl rfl h ?_
  intro w hw
  have hc := g.code_lt
  have F := fieldsR g hw (by omega) (by omega) (by omega) hb (by omega)
  have e1 := F.1
  have e2 := F.2.1
  have eg := F.2.2.1
  have f1 : wD w = d := Fin.ext F.2.2.2.1
  have f2 : wA w = a := Fin.ext F.2.2.2.2.1
  have f3 : BitVec.ofNat 6 (w / 16) = n := by
    apply BitVec.eq_of_toNat_eq; simp only [BitVec.toNat_ofNat]; omega
  rw [raw_51 e1]
  simp only [e2, f1, f2, f3, eg, decodeGroup]

theorem gredFmax (g : Guard) (d : Reg) (a : Reg) (n : BitVec 6) : Statement (.gredFmax g d a n) := by
  intro h
  have h_d := d.isLt
  have h_a := a.isLt
  have h_n := n.isLt
  have hb : n.toNat < 64 := by omega
  have hl : d.val * 65536 + a.val * 1024 + n.toNat * 16 + 14 < 4194304 := by omega
  refine decode_ok (g := g) (maj := 51) (low := d.val * 65536 + a.val * 1024 + n.toNat * 16 + 14) (by omega) hl rfl rfl rfl h ?_
  intro w hw
  have hc := g.code_lt
  have F := fieldsR g hw (by omega) (by omega) (by omega) hb (by omega)
  have e1 := F.1
  have e2 := F.2.1
  have eg := F.2.2.1
  have f1 : wD w = d := Fin.ext F.2.2.2.1
  have f2 : wA w = a := Fin.ext F.2.2.2.2.1
  have f3 : BitVec.ofNat 6 (w / 16) = n := by
    apply BitVec.eq_of_toNat_eq; simp only [BitVec.toNat_ofNat]; omega
  rw [raw_51 e1]
  simp only [e2, f1, f2, f3, eg, decodeGroup]

theorem gscanAdd (g : Guard) (d : Reg) (a : Reg) (n : BitVec 6) : Statement (.gscanAdd g d a n) := by
  intro h
  have h_d := d.isLt
  have h_a := a.isLt
  have h_n := n.isLt
  have hb : n.toNat < 64 := by omega
  have hl : d.val * 65536 + a.val * 1024 + n.toNat * 16 + 15 < 4194304 := by omega
  refine decode_ok (g := g) (maj := 51) (low := d.val * 65536 + a.val * 1024 + n.toNat * 16 + 15) (by omega) hl rfl rfl rfl h ?_
  intro w hw
  have hc := g.code_lt
  have F := fieldsR g hw (by omega) (by omega) (by omega) hb (by omega)
  have e1 := F.1
  have e2 := F.2.1
  have eg := F.2.2.1
  have f1 : wD w = d := Fin.ext F.2.2.2.1
  have f2 : wA w = a := Fin.ext F.2.2.2.2.1
  have f3 : BitVec.ofNat 6 (w / 16) = n := by
    apply BitVec.eq_of_toNat_eq; simp only [BitVec.toNat_ofNat]; omega
  rw [raw_51 e1]
  simp only [e2, f1, f2, f3, eg, decodeGroup]

theorem ldxtB (g : Guard) (d : Reg) (a : Reg) (b : Reg) : Statement (.ldxtB g d a b) := by
  intro h
  have h_d := d.isLt
  have h_a := a.isLt
  have h_b := b.isLt
  have hb : b.val < 64 := by omega
  have hl : d.val * 65536 + a.val * 1024 + b.val * 16 + 0 < 4194304 := by omega
  refine decode_ok (g := g) (maj := 52) (low := d.val * 65536 + a.val * 1024 + b.val * 16 + 0) (by omega) hl rfl rfl rfl h ?_
  intro w hw
  have hc := g.code_lt
  have F := fieldsR g hw (by omega) (by omega) (by omega) hb (by omega)
  have e1 := F.1
  have e2 := F.2.1
  have eg := F.2.2.1
  have f1 : wD w = d := Fin.ext F.2.2.2.1
  have f2 : wA w = a := Fin.ext F.2.2.2.2.1
  have f3 : wB w = b := Fin.ext F.2.2.2.2.2
  rw [raw_52 e1]
  simp only [e2, f1, f2, f3, eg, decodeFrag]

theorem ldxtH (g : Guard) (d : Reg) (a : Reg) (b : Reg) : Statement (.ldxtH g d a b) := by
  intro h
  have h_d := d.isLt
  have h_a := a.isLt
  have h_b := b.isLt
  have hb : b.val < 64 := by omega
  have hl : d.val * 65536 + a.val * 1024 + b.val * 16 + 1 < 4194304 := by omega
  refine decode_ok (g := g) (maj := 52) (low := d.val * 65536 + a.val * 1024 + b.val * 16 + 1) (by omega) hl rfl rfl rfl h ?_
  intro w hw
  have hc := g.code_lt
  have F := fieldsR g hw (by omega) (by omega) (by omega) hb (by omega)
  have e1 := F.1
  have e2 := F.2.1
  have eg := F.2.2.1
  have f1 : wD w = d := Fin.ext F.2.2.2.1
  have f2 : wA w = a := Fin.ext F.2.2.2.2.1
  have f3 : wB w = b := Fin.ext F.2.2.2.2.2
  rw [raw_52 e1]
  simp only [e2, f1, f2, f3, eg, decodeFrag]

theorem srv (g : Guard) (a : Reg) (n : BitVec 3) (r : BitVec 3) : Statement (.srv g a n r) := by
  intro h
  have h_a := a.isLt
  have h_n := n.isLt
  have h_r := r.isLt
  have hb : (n.toNat * 8 + r.toNat) < 64 := by omega
  have hl : 0 * 65536 + a.val * 1024 + (n.toNat * 8 + r.toNat) * 16 + 0 < 4194304 := by simp only [Nat.zero_mul, Nat.zero_add]; omega
  refine decode_ok (g := g) (maj := 54) (low := 0 * 65536 + a.val * 1024 + (n.toNat * 8 + r.toNat) * 16 + 0) (by omega) hl rfl rfl rfl h ?_
  intro w hw
  have hc := g.code_lt
  have F := fieldsR g hw (by omega) (by omega) (by omega) hb (by omega)
  have e1 := F.1
  have e2 := F.2.1
  have eg := F.2.2.1
  have f1 : wA w = a := Fin.ext F.2.2.2.2.1
  have f2 : BitVec.ofNat 3 (w / 128) = n := by
    apply BitVec.eq_of_toNat_eq; simp only [BitVec.toNat_ofNat]; omega
  have f3 : BitVec.ofNat 3 (w / 16) = r := by
    apply BitVec.eq_of_toNat_eq; simp only [BitVec.toNat_ofNat]; omega
  have ez : bitsOf w 16 6 = 0 := by
    simp only [bitsOf, Nat.reducePow]
    exact F.2.2.2.1
  rw [raw_54 e1]
  simp only [e2, f1, f2, f3, eg, decodeServe, ez]

theorem srvnw (g : Guard) (p : PReg) (a : Reg) (n : BitVec 3) (r : BitVec 3) : Statement (.srvnw g p a n r) := by
  intro h
  have h_p := p.isLt
  have h_a := a.isLt
  have h_n := n.isLt
  have h_r := r.isLt
  have hb : (n.toNat * 8 + r.toNat) < 64 := by omega
  have hl : p.val * 65536 + a.val * 1024 + (n.toNat * 8 + r.toNat) * 16 + 1 < 4194304 := by omega
  refine decode_ok (g := g) (maj := 54) (low := p.val * 65536 + a.val * 1024 + (n.toNat * 8 + r.toNat) * 16 + 1) (by omega) hl rfl rfl rfl h ?_
  intro w hw
  have hc := g.code_lt
  have F := fieldsR g hw (by omega) (by omega) (by omega) hb (by omega)
  have e1 := F.1
  have e2 := F.2.1
  have eg := F.2.2.1
  have f1 : wPd w = p := Fin.ext (by simp only [wPd, Fin.ofNat]; omega)
  have f2 : wA w = a := Fin.ext F.2.2.2.2.1
  have f3 : BitVec.ofNat 3 (w / 128) = n := by
    apply BitVec.eq_of_toNat_eq; simp only [BitVec.toNat_ofNat]; omega
  have f4 : BitVec.ofNat 3 (w / 16) = r := by
    apply BitVec.eq_of_toNat_eq; simp only [BitVec.toNat_ofNat]; omega
  have ez : bitsOf w 19 3 = 0 := by
    simp only [bitsOf, Nat.reducePow]
    omega
  rw [raw_54 e1]
  simp only [e2, f1, f2, f3, f4, eg, decodeServe, ez]

theorem srvq (g : Guard) (d : Reg) (a : Reg) : Statement (.srvq g d a) := by
  intro h
  have h_d := d.isLt
  have h_a := a.isLt
  have hb : 0 < 64 := by decide
  have hl : d.val * 65536 + a.val * 1024 + 0 * 16 + 2 < 4194304 := by omega
  refine decode_ok (g := g) (maj := 54) (low := d.val * 65536 + a.val * 1024 + 0 * 16 + 2) (by omega) hl rfl rfl rfl h ?_
  intro w hw
  have hc := g.code_lt
  have F := fieldsR g hw (by omega) (by omega) (by omega) hb (by omega)
  have e1 := F.1
  have e2 := F.2.1
  have eg := F.2.2.1
  have f1 : wD w = d := Fin.ext F.2.2.2.1
  have f2 : wA w = a := Fin.ext F.2.2.2.2.1
  have ez : bitsOf w 4 6 = 0 := by
    simp only [bitsOf, Nat.reducePow]
    omega
  rw [raw_54 e1]
  simp only [e2, f1, f2, eg, decodeServe, ez]

theorem cfgld (g : Guard) (d : Reg) (a : Reg) : Statement (.cfgld g d a) := by
  intro h
  have h_d := d.isLt
  have h_a := a.isLt
  have hb : 0 < 64 := by decide
  have hl : d.val * 65536 + a.val * 1024 + 0 * 16 + 3 < 4194304 := by omega
  refine decode_ok (g := g) (maj := 54) (low := d.val * 65536 + a.val * 1024 + 0 * 16 + 3) (by omega) hl rfl rfl rfl h ?_
  intro w hw
  have hc := g.code_lt
  have F := fieldsR g hw (by omega) (by omega) (by omega) hb (by omega)
  have e1 := F.1
  have e2 := F.2.1
  have eg := F.2.2.1
  have f1 : wD w = d := Fin.ext F.2.2.2.1
  have f2 : wA w = a := Fin.ext F.2.2.2.2.1
  have ez : bitsOf w 4 6 = 0 := by
    simp only [bitsOf, Nat.reducePow]
    omega
  rw [raw_54 e1]
  simp only [e2, f1, f2, eg, decodeServe, ez]

theorem cfgpin (g : Guard) (d : Reg) (a : Reg) : Statement (.cfgpin g d a) := by
  intro h
  have h_d := d.isLt
  have h_a := a.isLt
  have hb : 0 < 64 := by decide
  have hl : d.val * 65536 + a.val * 1024 + 0 * 16 + 4 < 4194304 := by omega
  refine decode_ok (g := g) (maj := 54) (low := d.val * 65536 + a.val * 1024 + 0 * 16 + 4) (by omega) hl rfl rfl rfl h ?_
  intro w hw
  have hc := g.code_lt
  have F := fieldsR g hw (by omega) (by omega) (by omega) hb (by omega)
  have e1 := F.1
  have e2 := F.2.1
  have eg := F.2.2.1
  have f1 : wD w = d := Fin.ext F.2.2.2.1
  have f2 : wA w = a := Fin.ext F.2.2.2.2.1
  have ez : bitsOf w 4 6 = 0 := by
    simp only [bitsOf, Nat.reducePow]
    omega
  rw [raw_54 e1]
  simp only [e2, f1, f2, eg, decodeServe, ez]

theorem cfgunpin (g : Guard) (d : Reg) (a : Reg) : Statement (.cfgunpin g d a) := by
  intro h
  have h_d := d.isLt
  have h_a := a.isLt
  have hb : 0 < 64 := by decide
  have hl : d.val * 65536 + a.val * 1024 + 0 * 16 + 5 < 4194304 := by omega
  refine decode_ok (g := g) (maj := 54) (low := d.val * 65536 + a.val * 1024 + 0 * 16 + 5) (by omega) hl rfl rfl rfl h ?_
  intro w hw
  have hc := g.code_lt
  have F := fieldsR g hw (by omega) (by omega) (by omega) hb (by omega)
  have e1 := F.1
  have e2 := F.2.1
  have eg := F.2.2.1
  have f1 : wD w = d := Fin.ext F.2.2.2.1
  have f2 : wA w = a := Fin.ext F.2.2.2.2.1
  have ez : bitsOf w 4 6 = 0 := by
    simp only [bitsOf, Nat.reducePow]
    omega
  rw [raw_54 e1]
  simp only [e2, f1, f2, eg, decodeServe, ez]

theorem cfgev (g : Guard) (d : Reg) (a : Reg) : Statement (.cfgev g d a) := by
  intro h
  have h_d := d.isLt
  have h_a := a.isLt
  have hb : 0 < 64 := by decide
  have hl : d.val * 65536 + a.val * 1024 + 0 * 16 + 6 < 4194304 := by omega
  refine decode_ok (g := g) (maj := 54) (low := d.val * 65536 + a.val * 1024 + 0 * 16 + 6) (by omega) hl rfl rfl rfl h ?_
  intro w hw
  have hc := g.code_lt
  have F := fieldsR g hw (by omega) (by omega) (by omega) hb (by omega)
  have e1 := F.1
  have e2 := F.2.1
  have eg := F.2.2.1
  have f1 : wD w = d := Fin.ext F.2.2.2.1
  have f2 : wA w = a := Fin.ext F.2.2.2.2.1
  have ez : bitsOf w 4 6 = 0 := by
    simp only [bitsOf, Nat.reducePow]
    omega
  rw [raw_54 e1]
  simp only [e2, f1, f2, eg, decodeServe, ez]

theorem mxw (g : Guard) (d : Reg) (a : Reg) (n : BitVec 6) : Statement (.mxw g d a n) := by
  intro h
  have h_d := d.isLt
  have h_a := a.isLt
  have h_n := n.isLt
  have hb : n.toNat < 64 := by omega
  have hl : d.val * 65536 + a.val * 1024 + n.toNat * 16 + 0 < 4194304 := by omega
  refine decode_ok (g := g) (maj := 55) (low := d.val * 65536 + a.val * 1024 + n.toNat * 16 + 0) (by omega) hl rfl rfl rfl h ?_
  intro w hw
  have hc := g.code_lt
  have F := fieldsR g hw (by omega) (by omega) (by omega) hb (by omega)
  have e1 := F.1
  have e2 := F.2.1
  have eg := F.2.2.1
  have f1 : wD w = d := Fin.ext F.2.2.2.1
  have f2 : wA w = a := Fin.ext F.2.2.2.2.1
  have f3 : BitVec.ofNat 6 (w / 16) = n := by
    apply BitVec.eq_of_toNat_eq; simp only [BitVec.toNat_ofNat]; omega
  rw [raw_55 e1]
  simp only [e2, f1, f2, f3, eg, decodeMatrix]

theorem mxa (g : Guard) (d : Reg) (a : Reg) (n : BitVec 6) : Statement (.mxa g d a n) := by
  intro h
  have h_d := d.isLt
  have h_a := a.isLt
  have h_n := n.isLt
  have hb : n.toNat < 64 := by omega
  have hl : d.val * 65536 + a.val * 1024 + n.toNat * 16 + 1 < 4194304 := by omega
  refine decode_ok (g := g) (maj := 55) (low := d.val * 65536 + a.val * 1024 + n.toNat * 16 + 1) (by omega) hl rfl rfl rfl h ?_
  intro w hw
  have hc := g.code_lt
  have F := fieldsR g hw (by omega) (by omega) (by omega) hb (by omega)
  have e1 := F.1
  have e2 := F.2.1
  have eg := F.2.2.1
  have f1 : wD w = d := Fin.ext F.2.2.2.1
  have f2 : wA w = a := Fin.ext F.2.2.2.2.1
  have f3 : BitVec.ofNat 6 (w / 16) = n := by
    apply BitVec.eq_of_toNat_eq; simp only [BitVec.toNat_ofNat]; omega
  rw [raw_55 e1]
  simp only [e2, f1, f2, f3, eg, decodeMatrix]

theorem mxc (g : Guard) (d : Reg) (a : Reg) (n : BitVec 6) : Statement (.mxc g d a n) := by
  intro h
  have h_d := d.isLt
  have h_a := a.isLt
  have h_n := n.isLt
  have hb : n.toNat < 64 := by omega
  have hl : d.val * 65536 + a.val * 1024 + n.toNat * 16 + 2 < 4194304 := by omega
  refine decode_ok (g := g) (maj := 55) (low := d.val * 65536 + a.val * 1024 + n.toNat * 16 + 2) (by omega) hl rfl rfl rfl h ?_
  intro w hw
  have hc := g.code_lt
  have F := fieldsR g hw (by omega) (by omega) (by omega) hb (by omega)
  have e1 := F.1
  have e2 := F.2.1
  have eg := F.2.2.1
  have f1 : wD w = d := Fin.ext F.2.2.2.1
  have f2 : wA w = a := Fin.ext F.2.2.2.2.1
  have f3 : BitVec.ofNat 6 (w / 16) = n := by
    apply BitVec.eq_of_toNat_eq; simp only [BitVec.toNat_ofNat]; omega
  rw [raw_55 e1]
  simp only [e2, f1, f2, f3, eg, decodeMatrix]

theorem mxd (g : Guard) (d : Reg) (a : Reg) (n : BitVec 6) : Statement (.mxd g d a n) := by
  intro h
  have h_d := d.isLt
  have h_a := a.isLt
  have h_n := n.isLt
  have hb : n.toNat < 64 := by omega
  have hl : d.val * 65536 + a.val * 1024 + n.toNat * 16 + 3 < 4194304 := by omega
  refine decode_ok (g := g) (maj := 55) (low := d.val * 65536 + a.val * 1024 + n.toNat * 16 + 3) (by omega) hl rfl rfl rfl h ?_
  intro w hw
  have hc := g.code_lt
  have F := fieldsR g hw (by omega) (by omega) (by omega) hb (by omega)
  have e1 := F.1
  have e2 := F.2.1
  have eg := F.2.2.1
  have f1 : wD w = d := Fin.ext F.2.2.2.1
  have f2 : wA w = a := Fin.ext F.2.2.2.2.1
  have f3 : BitVec.ofNat 6 (w / 16) = n := by
    apply BitVec.eq_of_toNat_eq; simp only [BitVec.toNat_ofNat]; omega
  rw [raw_55 e1]
  simp only [e2, f1, f2, f3, eg, decodeMatrix]

theorem mxmd (g : Guard) (d : Reg) (a : Reg) (n : BitVec 6) : Statement (.mxmd g d a n) := by
  intro h
  have h_d := d.isLt
  have h_a := a.isLt
  have h_n := n.isLt
  have hb : n.toNat < 64 := by omega
  have hl : d.val * 65536 + a.val * 1024 + n.toNat * 16 + 4 < 4194304 := by omega
  refine decode_ok (g := g) (maj := 55) (low := d.val * 65536 + a.val * 1024 + n.toNat * 16 + 4) (by omega) hl rfl rfl rfl h ?_
  intro w hw
  have hc := g.code_lt
  have F := fieldsR g hw (by omega) (by omega) (by omega) hb (by omega)
  have e1 := F.1
  have e2 := F.2.1
  have eg := F.2.2.1
  have f1 : wD w = d := Fin.ext F.2.2.2.1
  have f2 : wA w = a := Fin.ext F.2.2.2.2.1
  have f3 : BitVec.ofNat 6 (w / 16) = n := by
    apply BitVec.eq_of_toNat_eq; simp only [BitVec.toNat_ofNat]; omega
  rw [raw_55 e1]
  simp only [e2, f1, f2, f3, eg, decodeMatrix]

theorem mxst (g : Guard) (d : Reg) (a : Reg) (n : BitVec 6) : Statement (.mxst g d a n) := by
  intro h
  have h_d := d.isLt
  have h_a := a.isLt
  have h_n := n.isLt
  have hb : n.toNat < 64 := by omega
  have hl : d.val * 65536 + a.val * 1024 + n.toNat * 16 + 5 < 4194304 := by omega
  refine decode_ok (g := g) (maj := 55) (low := d.val * 65536 + a.val * 1024 + n.toNat * 16 + 5) (by omega) hl rfl rfl rfl h ?_
  intro w hw
  have hc := g.code_lt
  have F := fieldsR g hw (by omega) (by omega) (by omega) hb (by omega)
  have e1 := F.1
  have e2 := F.2.1
  have eg := F.2.2.1
  have f1 : wD w = d := Fin.ext F.2.2.2.1
  have f2 : wA w = a := Fin.ext F.2.2.2.2.1
  have f3 : BitVec.ofNat 6 (w / 16) = n := by
    apply BitVec.eq_of_toNat_eq; simp only [BitVec.toNat_ofNat]; omega
  rw [raw_55 e1]
  simp only [e2, f1, f2, f3, eg, decodeMatrix]

theorem cpy (g : Guard) (d : Reg) (a : Reg) (p : BitVec 1) (c : BitVec 4) : Statement (.cpy g d a p c) := by
  intro h
  have h_d := d.isLt
  have h_a := a.isLt
  have h_p := p.isLt
  have h_c := c.isLt
  have hb : (p.toNat * 16 + c.toNat) < 64 := by omega
  have hl : d.val * 65536 + a.val * 1024 + (p.toNat * 16 + c.toNat) * 16 + 0 < 4194304 := by omega
  refine decode_ok (g := g) (maj := 56) (low := d.val * 65536 + a.val * 1024 + (p.toNat * 16 + c.toNat) * 16 + 0) (by omega) hl rfl rfl rfl h ?_
  intro w hw
  have hc := g.code_lt
  have F := fieldsR g hw (by omega) (by omega) (by omega) hb (by omega)
  have e1 := F.1
  have e2 := F.2.1
  have eg := F.2.2.1
  have f1 : wD w = d := Fin.ext F.2.2.2.1
  have f2 : wA w = a := Fin.ext F.2.2.2.2.1
  have f3 : BitVec.ofNat 1 (w / 256) = p := by
    apply BitVec.eq_of_toNat_eq; simp only [BitVec.toNat_ofNat]; omega
  have f4 : BitVec.ofNat 4 (w / 16) = c := by
    apply BitVec.eq_of_toNat_eq; simp only [BitVec.toNat_ofNat]; omega
  have ez : bitsOf w 9 1 = 0 := by
    simp only [bitsOf, Nat.reducePow]
    omega
  rw [raw_56 e1]
  simp only [e2, f1, f2, f3, f4, eg, decodeCopy, ez]

theorem cshp (g : Guard) (d : Reg) (a : Reg) (c : BitVec 4) : Statement (.cshp g d a c) := by
  intro h
  have h_d := d.isLt
  have h_a := a.isLt
  have h_c := c.isLt
  have hb : c.toNat < 64 := by omega
  have hl : d.val * 65536 + a.val * 1024 + c.toNat * 16 + 1 < 4194304 := by omega
  refine decode_ok (g := g) (maj := 56) (low := d.val * 65536 + a.val * 1024 + c.toNat * 16 + 1) (by omega) hl rfl rfl rfl h ?_
  intro w hw
  have hc := g.code_lt
  have F := fieldsR g hw (by omega) (by omega) (by omega) hb (by omega)
  have e1 := F.1
  have e2 := F.2.1
  have eg := F.2.2.1
  have f1 : wD w = d := Fin.ext F.2.2.2.1
  have f2 : wA w = a := Fin.ext F.2.2.2.2.1
  have f3 : BitVec.ofNat 4 (w / 16) = c := by
    apply BitVec.eq_of_toNat_eq; simp only [BitVec.toNat_ofNat]; omega
  have ez : bitsOf w 8 2 = 0 := by
    simp only [bitsOf, Nat.reducePow]
    omega
  rw [raw_56 e1]
  simp only [e2, f1, f2, f3, eg, decodeCopy, ez]

theorem cpyq (g : Guard) (d : Reg) (a : Reg) (c : BitVec 4) : Statement (.cpyq g d a c) := by
  intro h
  have h_d := d.isLt
  have h_a := a.isLt
  have h_c := c.isLt
  have hb : c.toNat < 64 := by omega
  have hl : d.val * 65536 + a.val * 1024 + c.toNat * 16 + 2 < 4194304 := by omega
  refine decode_ok (g := g) (maj := 56) (low := d.val * 65536 + a.val * 1024 + c.toNat * 16 + 2) (by omega) hl rfl rfl rfl h ?_
  intro w hw
  have hc := g.code_lt
  have F := fieldsR g hw (by omega) (by omega) (by omega) hb (by omega)
  have e1 := F.1
  have e2 := F.2.1
  have eg := F.2.2.1
  have f1 : wD w = d := Fin.ext F.2.2.2.1
  have f2 : wA w = a := Fin.ext F.2.2.2.2.1
  have f3 : BitVec.ofNat 4 (w / 16) = c := by
    apply BitVec.eq_of_toNat_eq; simp only [BitVec.toNat_ofNat]; omega
  have ez : bitsOf w 8 2 = 0 := by
    simp only [bitsOf, Nat.reducePow]
    omega
  rw [raw_56 e1]
  simp only [e2, f1, f2, f3, eg, decodeCopy, ez]

theorem cpyres (g : Guard) (d : Reg) (a : Reg) (c : BitVec 4) : Statement (.cpyres g d a c) := by
  intro h
  have h_d := d.isLt
  have h_a := a.isLt
  have h_c := c.isLt
  have hb : c.toNat < 64 := by omega
  have hl : d.val * 65536 + a.val * 1024 + c.toNat * 16 + 3 < 4194304 := by omega
  refine decode_ok (g := g) (maj := 56) (low := d.val * 65536 + a.val * 1024 + c.toNat * 16 + 3) (by omega) hl rfl rfl rfl h ?_
  intro w hw
  have hc := g.code_lt
  have F := fieldsR g hw (by omega) (by omega) (by omega) hb (by omega)
  have e1 := F.1
  have e2 := F.2.1
  have eg := F.2.2.1
  have f1 : wD w = d := Fin.ext F.2.2.2.1
  have f2 : wA w = a := Fin.ext F.2.2.2.2.1
  have f3 : BitVec.ofNat 4 (w / 16) = c := by
    apply BitVec.eq_of_toNat_eq; simp only [BitVec.toNat_ofNat]; omega
  have ez : bitsOf w 8 2 = 0 := by
    simp only [bitsOf, Nat.reducePow]
    omega
  rw [raw_56 e1]
  simp only [e2, f1, f2, f3, eg, decodeCopy, ez]

theorem cpyabt (g : Guard) (d : Reg) (l : BitVec 1) (c : BitVec 4) : Statement (.cpyabt g d l c) := by
  intro h
  have h_d := d.isLt
  have h_l := l.isLt
  have h_c := c.isLt
  have hb : (l.toNat * 16 + c.toNat) < 64 := by omega
  have hl : d.val * 65536 + 0 * 1024 + (l.toNat * 16 + c.toNat) * 16 + 4 < 4194304 := by omega
  refine decode_ok (g := g) (maj := 56) (low := d.val * 65536 + 0 * 1024 + (l.toNat * 16 + c.toNat) * 16 + 4) (by omega) hl rfl rfl rfl h ?_
  intro w hw
  have hc := g.code_lt
  have F := fieldsR g hw (by omega) (by omega) (by omega) hb (by omega)
  have e1 := F.1
  have e2 := F.2.1
  have eg := F.2.2.1
  have f1 : wD w = d := Fin.ext F.2.2.2.1
  have f2 : BitVec.ofNat 1 (w / 256) = l := by
    apply BitVec.eq_of_toNat_eq; simp only [BitVec.toNat_ofNat]; omega
  have f3 : BitVec.ofNat 4 (w / 16) = c := by
    apply BitVec.eq_of_toNat_eq; simp only [BitVec.toNat_ofNat]; omega
  have ez : bitsOf w 9 7 = 0 := by
    simp only [bitsOf, Nat.reducePow]
    omega
  rw [raw_56 e1]
  simp only [e2, f1, f2, f3, eg, decodeCopy, ez]

theorem wmrd (g : Guard) (d : Reg) (c : BitVec 4) : Statement (.wmrd g d c) := by
  intro h
  have h_d := d.isLt
  have h_c := c.isLt
  have hb : c.toNat < 64 := by omega
  have hl : d.val * 65536 + 0 * 1024 + c.toNat * 16 + 5 < 4194304 := by omega
  refine decode_ok (g := g) (maj := 56) (low := d.val * 65536 + 0 * 1024 + c.toNat * 16 + 5) (by omega) hl rfl rfl rfl h ?_
  intro w hw
  have hc := g.code_lt
  have F := fieldsR g hw (by omega) (by omega) (by omega) hb (by omega)
  have e1 := F.1
  have e2 := F.2.1
  have eg := F.2.2.1
  have f1 : wD w = d := Fin.ext F.2.2.2.1
  have f2 : BitVec.ofNat 4 (w / 16) = c := by
    apply BitVec.eq_of_toNat_eq; simp only [BitVec.toNat_ofNat]; omega
  have ez : bitsOf w 8 8 = 0 := by
    simp only [bitsOf, Nat.reducePow]
    omega
  rw [raw_56 e1]
  simp only [e2, f1, f2, eg, decodeCopy, ez]

theorem wmwait (g : Guard) (d : Reg) (a : Reg) (c : BitVec 4) : Statement (.wmwait g d a c) := by
  intro h
  have h_d := d.isLt
  have h_a := a.isLt
  have h_c := c.isLt
  have hb : c.toNat < 64 := by omega
  have hl : d.val * 65536 + a.val * 1024 + c.toNat * 16 + 6 < 4194304 := by omega
  refine decode_ok (g := g) (maj := 56) (low := d.val * 65536 + a.val * 1024 + c.toNat * 16 + 6) (by omega) hl rfl rfl rfl h ?_
  intro w hw
  have hc := g.code_lt
  have F := fieldsR g hw (by omega) (by omega) (by omega) hb (by omega)
  have e1 := F.1
  have e2 := F.2.1
  have eg := F.2.2.1
  have f1 : wD w = d := Fin.ext F.2.2.2.1
  have f2 : wA w = a := Fin.ext F.2.2.2.2.1
  have f3 : BitVec.ofNat 4 (w / 16) = c := by
    apply BitVec.eq_of_toNat_eq; simp only [BitVec.toNat_ofNat]; omega
  have ez : bitsOf w 8 2 = 0 := by
    simp only [bitsOf, Nat.reducePow]
    omega
  rw [raw_56 e1]
  simp only [e2, f1, f2, f3, eg, decodeCopy, ez]

theorem mstart (g : Guard) (d : Reg) (a : Reg) (c : BitVec 1) : Statement (.mstart g d a c) := by
  intro h
  have h_d := d.isLt
  have h_a := a.isLt
  have h_c := c.isLt
  have hb : (c.toNat * 32) < 64 := by omega
  have hl : d.val * 65536 + a.val * 1024 + (c.toNat * 32) * 16 + 0 < 4194304 := by omega
  refine decode_ok (g := g) (maj := 57) (low := d.val * 65536 + a.val * 1024 + (c.toNat * 32) * 16 + 0) (by omega) hl rfl rfl rfl h ?_
  intro w hw
  have hc := g.code_lt
  have F := fieldsR g hw (by omega) (by omega) (by omega) hb (by omega)
  have e1 := F.1
  have e2 := F.2.1
  have eg := F.2.2.1
  have f1 : wD w = d := Fin.ext F.2.2.2.1
  have f2 : wA w = a := Fin.ext F.2.2.2.2.1
  have f3 : BitVec.ofNat 1 (w / 512) = c := by
    apply BitVec.eq_of_toNat_eq; simp only [BitVec.toNat_ofNat]; omega
  have ez : bitsOf w 4 5 = 0 := by
    simp only [bitsOf, Nat.reducePow]
    omega
  rw [raw_57 e1]
  simp only [e2, f1, f2, f3, eg, decodeMerge, ez]

theorem mstrm (g : Guard) (d : Reg) (a : Reg) (c : BitVec 1) (u : BitVec 1) (s : BitVec 4) : Statement (.mstrm g d a c u s) := by
  intro h
  have h_d := d.isLt
  have h_a := a.isLt
  have h_c := c.isLt
  have h_u := u.isLt
  have h_s := s.isLt
  have hb : (c.toNat * 32 + u.toNat * 16 + s.toNat) < 64 := by omega
  have hl : d.val * 65536 + a.val * 1024 + (c.toNat * 32 + u.toNat * 16 + s.toNat) * 16 + 1 < 4194304 := by omega
  refine decode_ok (g := g) (maj := 57) (low := d.val * 65536 + a.val * 1024 + (c.toNat * 32 + u.toNat * 16 + s.toNat) * 16 + 1) (by omega) hl rfl rfl rfl h ?_
  intro w hw
  have hc := g.code_lt
  have F := fieldsR g hw (by omega) (by omega) (by omega) hb (by omega)
  have e1 := F.1
  have e2 := F.2.1
  have eg := F.2.2.1
  have f1 : wD w = d := Fin.ext F.2.2.2.1
  have f2 : wA w = a := Fin.ext F.2.2.2.2.1
  have f3 : BitVec.ofNat 1 (w / 512) = c := by
    apply BitVec.eq_of_toNat_eq; simp only [BitVec.toNat_ofNat]; omega
  have f4 : BitVec.ofNat 1 (w / 256) = u := by
    apply BitVec.eq_of_toNat_eq; simp only [BitVec.toNat_ofNat]; omega
  have f5 : BitVec.ofNat 4 (w / 16) = s := by
    apply BitVec.eq_of_toNat_eq; simp only [BitVec.toNat_ofNat]; omega
  rw [raw_57 e1]
  simp only [e2, f1, f2, f3, f4, f5, eg, decodeMerge]

theorem mpush (g : Guard) (d : Reg) (a : Reg) (c : BitVec 1) (s : BitVec 4) : Statement (.mpush g d a c s) := by
  intro h
  have h_d := d.isLt
  have h_a := a.isLt
  have h_c := c.isLt
  have h_s := s.isLt
  have hb : (c.toNat * 32 + s.toNat) < 64 := by omega
  have hl : d.val * 65536 + a.val * 1024 + (c.toNat * 32 + s.toNat) * 16 + 2 < 4194304 := by omega
  refine decode_ok (g := g) (maj := 57) (low := d.val * 65536 + a.val * 1024 + (c.toNat * 32 + s.toNat) * 16 + 2) (by omega) hl rfl rfl rfl h ?_
  intro w hw
  have hc := g.code_lt
  have F := fieldsR g hw (by omega) (by omega) (by omega) hb (by omega)
  have e1 := F.1
  have e2 := F.2.1
  have eg := F.2.2.1
  have f1 : wD w = d := Fin.ext F.2.2.2.1
  have f2 : wA w = a := Fin.ext F.2.2.2.2.1
  have f3 : BitVec.ofNat 1 (w / 512) = c := by
    apply BitVec.eq_of_toNat_eq; simp only [BitVec.toNat_ofNat]; omega
  have f4 : BitVec.ofNat 4 (w / 16) = s := by
    apply BitVec.eq_of_toNat_eq; simp only [BitVec.toNat_ofNat]; omega
  have ez : bitsOf w 8 1 = 0 := by
    simp only [bitsOf, Nat.reducePow]
    omega
  rw [raw_57 e1]
  simp only [e2, f1, f2, f3, f4, eg, decodeMerge, ez]

theorem mfin (g : Guard) (d : Reg) (a : Reg) (c : BitVec 1) : Statement (.mfin g d a c) := by
  intro h
  have h_d := d.isLt
  have h_a := a.isLt
  have h_c := c.isLt
  have hb : (c.toNat * 32) < 64 := by omega
  have hl : d.val * 65536 + a.val * 1024 + (c.toNat * 32) * 16 + 3 < 4194304 := by omega
  refine decode_ok (g := g) (maj := 57) (low := d.val * 65536 + a.val * 1024 + (c.toNat * 32) * 16 + 3) (by omega) hl rfl rfl rfl h ?_
  intro w hw
  have hc := g.code_lt
  have F := fieldsR g hw (by omega) (by omega) (by omega) hb (by omega)
  have e1 := F.1
  have e2 := F.2.1
  have eg := F.2.2.1
  have f1 : wD w = d := Fin.ext F.2.2.2.1
  have f2 : wA w = a := Fin.ext F.2.2.2.2.1
  have f3 : BitVec.ofNat 1 (w / 512) = c := by
    apply BitVec.eq_of_toNat_eq; simp only [BitVec.toNat_ofNat]; omega
  have ez : bitsOf w 4 5 = 0 := by
    simp only [bitsOf, Nat.reducePow]
    omega
  rw [raw_57 e1]
  simp only [e2, f1, f2, f3, eg, decodeMerge, ez]

theorem mspill (g : Guard) (d : Reg) (a : Reg) (c : BitVec 1) : Statement (.mspill g d a c) := by
  intro h
  have h_d := d.isLt
  have h_a := a.isLt
  have h_c := c.isLt
  have hb : (c.toNat * 32) < 64 := by omega
  have hl : d.val * 65536 + a.val * 1024 + (c.toNat * 32) * 16 + 4 < 4194304 := by omega
  refine decode_ok (g := g) (maj := 57) (low := d.val * 65536 + a.val * 1024 + (c.toNat * 32) * 16 + 4) (by omega) hl rfl rfl rfl h ?_
  intro w hw
  have hc := g.code_lt
  have F := fieldsR g hw (by omega) (by omega) (by omega) hb (by omega)
  have e1 := F.1
  have e2 := F.2.1
  have eg := F.2.2.1
  have f1 : wD w = d := Fin.ext F.2.2.2.1
  have f2 : wA w = a := Fin.ext F.2.2.2.2.1
  have f3 : BitVec.ofNat 1 (w / 512) = c := by
    apply BitVec.eq_of_toNat_eq; simp only [BitVec.toNat_ofNat]; omega
  have ez : bitsOf w 4 5 = 0 := by
    simp only [bitsOf, Nat.reducePow]
    omega
  rw [raw_57 e1]
  simp only [e2, f1, f2, f3, eg, decodeMerge, ez]

theorem mstat (g : Guard) (d : Reg) (a : Reg) (c : BitVec 1) : Statement (.mstat g d a c) := by
  intro h
  have h_d := d.isLt
  have h_a := a.isLt
  have h_c := c.isLt
  have hb : (c.toNat * 32) < 64 := by omega
  have hl : d.val * 65536 + a.val * 1024 + (c.toNat * 32) * 16 + 5 < 4194304 := by omega
  refine decode_ok (g := g) (maj := 57) (low := d.val * 65536 + a.val * 1024 + (c.toNat * 32) * 16 + 5) (by omega) hl rfl rfl rfl h ?_
  intro w hw
  have hc := g.code_lt
  have F := fieldsR g hw (by omega) (by omega) (by omega) hb (by omega)
  have e1 := F.1
  have e2 := F.2.1
  have eg := F.2.2.1
  have f1 : wD w = d := Fin.ext F.2.2.2.1
  have f2 : wA w = a := Fin.ext F.2.2.2.2.1
  have f3 : BitVec.ofNat 1 (w / 512) = c := by
    apply BitVec.eq_of_toNat_eq; simp only [BitVec.toNat_ofNat]; omega
  have ez : bitsOf w 4 5 = 0 := by
    simp only [bitsOf, Nat.reducePow]
    omega
  rw [raw_57 e1]
  simp only [e2, f1, f2, f3, eg, decodeMerge, ez]

theorem xsect (g : Guard) (d : Reg) (a : Reg) (c : BitVec 1) : Statement (.xsect g d a c) := by
  intro h
  have h_d := d.isLt
  have h_a := a.isLt
  have h_c := c.isLt
  have hb : (c.toNat * 32) < 64 := by omega
  have hl : d.val * 65536 + a.val * 1024 + (c.toNat * 32) * 16 + 6 < 4194304 := by omega
  refine decode_ok (g := g) (maj := 57) (low := d.val * 65536 + a.val * 1024 + (c.toNat * 32) * 16 + 6) (by omega) hl rfl rfl rfl h ?_
  intro w hw
  have hc := g.code_lt
  have F := fieldsR g hw (by omega) (by omega) (by omega) hb (by omega)
  have e1 := F.1
  have e2 := F.2.1
  have eg := F.2.2.1
  have f1 : wD w = d := Fin.ext F.2.2.2.1
  have f2 : wA w = a := Fin.ext F.2.2.2.2.1
  have f3 : BitVec.ofNat 1 (w / 512) = c := by
    apply BitVec.eq_of_toNat_eq; simp only [BitVec.toNat_ofNat]; omega
  have ez : bitsOf w 4 5 = 0 := by
    simp only [bitsOf, Nat.reducePow]
    omega
  rw [raw_57 e1]
  simp only [e2, f1, f2, f3, eg, decodeMerge, ez]

theorem xunion (g : Guard) (d : Reg) (a : Reg) (c : BitVec 1) : Statement (.xunion g d a c) := by
  intro h
  have h_d := d.isLt
  have h_a := a.isLt
  have h_c := c.isLt
  have hb : (c.toNat * 32) < 64 := by omega
  have hl : d.val * 65536 + a.val * 1024 + (c.toNat * 32) * 16 + 7 < 4194304 := by omega
  refine decode_ok (g := g) (maj := 57) (low := d.val * 65536 + a.val * 1024 + (c.toNat * 32) * 16 + 7) (by omega) hl rfl rfl rfl h ?_
  intro w hw
  have hc := g.code_lt
  have F := fieldsR g hw (by omega) (by omega) (by omega) hb (by omega)
  have e1 := F.1
  have e2 := F.2.1
  have eg := F.2.2.1
  have f1 : wD w = d := Fin.ext F.2.2.2.1
  have f2 : wA w = a := Fin.ext F.2.2.2.2.1
  have f3 : BitVec.ofNat 1 (w / 512) = c := by
    apply BitVec.eq_of_toNat_eq; simp only [BitVec.toNat_ofNat]; omega
  have ez : bitsOf w 4 5 = 0 := by
    simp only [bitsOf, Nat.reducePow]
    omega
  rw [raw_57 e1]
  simp only [e2, f1, f2, f3, eg, decodeMerge, ez]

theorem xcnt (g : Guard) (d : Reg) (a : Reg) (c : BitVec 1) : Statement (.xcnt g d a c) := by
  intro h
  have h_d := d.isLt
  have h_a := a.isLt
  have h_c := c.isLt
  have hb : (c.toNat * 32) < 64 := by omega
  have hl : d.val * 65536 + a.val * 1024 + (c.toNat * 32) * 16 + 8 < 4194304 := by omega
  refine decode_ok (g := g) (maj := 57) (low := d.val * 65536 + a.val * 1024 + (c.toNat * 32) * 16 + 8) (by omega) hl rfl rfl rfl h ?_
  intro w hw
  have hc := g.code_lt
  have F := fieldsR g hw (by omega) (by omega) (by omega) hb (by omega)
  have e1 := F.1
  have e2 := F.2.1
  have eg := F.2.2.1
  have f1 : wD w = d := Fin.ext F.2.2.2.1
  have f2 : wA w = a := Fin.ext F.2.2.2.2.1
  have f3 : BitVec.ofNat 1 (w / 512) = c := by
    apply BitVec.eq_of_toNat_eq; simp only [BitVec.toNat_ofNat]; omega
  have ez : bitsOf w 4 5 = 0 := by
    simp only [bitsOf, Nat.reducePow]
    omega
  rw [raw_57 e1]
  simp only [e2, f1, f2, f3, eg, decodeMerge, ez]

theorem csrrw (g : Guard) (d : Reg) (a : Reg) (i : BitVec 10) : Statement (.csrrw g d a i) := by
  intro h
  have h_d := d.isLt
  have h_a := a.isLt
  have h_i := i.isLt
  have hl : d.val * 65536 + a.val * 1024 + i.toNat < 4194304 := by omega
  refine decode_ok (g := g) (maj := 58) (low := d.val * 65536 + a.val * 1024 + i.toNat) (by omega) hl rfl rfl rfl h ?_
  intro w hw
  have hc := g.code_lt
  have F := fieldsI g hw (by omega) (by omega) (by omega) (by omega)
  have e1 := F.1
  have eg := F.2.1
  have f1 : wD w = d := Fin.ext F.2.2.1
  have f2 : wA w = a := Fin.ext F.2.2.2.1
  have f3 : BitVec.ofNat 10 w = i := by
    apply BitVec.eq_of_toNat_eq; simp only [BitVec.toNat_ofNat]; omega
  rw [raw_58 e1]
  simp only [f1, f2, f3, eg]

theorem csrrs (g : Guard) (d : Reg) (a : Reg) (i : BitVec 10) : Statement (.csrrs g d a i) := by
  intro h
  have h_d := d.isLt
  have h_a := a.isLt
  have h_i := i.isLt
  have hl : d.val * 65536 + a.val * 1024 + i.toNat < 4194304 := by omega
  refine decode_ok (g := g) (maj := 59) (low := d.val * 65536 + a.val * 1024 + i.toNat) (by omega) hl rfl rfl rfl h ?_
  intro w hw
  have hc := g.code_lt
  have F := fieldsI g hw (by omega) (by omega) (by omega) (by omega)
  have e1 := F.1
  have eg := F.2.1
  have f1 : wD w = d := Fin.ext F.2.2.1
  have f2 : wA w = a := Fin.ext F.2.2.2.1
  have f3 : BitVec.ofNat 10 w = i := by
    apply BitVec.eq_of_toNat_eq; simp only [BitVec.toNat_ofNat]; omega
  rw [raw_59 e1]
  simp only [f1, f2, f3, eg]

theorem csrrc (g : Guard) (d : Reg) (a : Reg) (i : BitVec 10) : Statement (.csrrc g d a i) := by
  intro h
  have h_d := d.isLt
  have h_a := a.isLt
  have h_i := i.isLt
  have hl : d.val * 65536 + a.val * 1024 + i.toNat < 4194304 := by omega
  refine decode_ok (g := g) (maj := 60) (low := d.val * 65536 + a.val * 1024 + i.toNat) (by omega) hl rfl rfl rfl h ?_
  intro w hw
  have hc := g.code_lt
  have F := fieldsI g hw (by omega) (by omega) (by omega) (by omega)
  have e1 := F.1
  have eg := F.2.1
  have f1 : wD w = d := Fin.ext F.2.2.1
  have f2 : wA w = a := Fin.ext F.2.2.2.1
  have f3 : BitVec.ofNat 10 w = i := by
    apply BitVec.eq_of_toNat_eq; simp only [BitVec.toNat_ofNat]; omega
  rw [raw_60 e1]
  simp only [f1, f2, f3, eg]

theorem tlbi (g : Guard) (d : Reg) (a : Reg) (b : Reg) : Statement (.tlbi g d a b) := by
  intro h
  have h_d := d.isLt
  have h_a := a.isLt
  have h_b := b.isLt
  have hb : b.val < 64 := by omega
  have hl : d.val * 65536 + a.val * 1024 + b.val * 16 + 0 < 4194304 := by omega
  refine decode_ok (g := g) (maj := 61) (low := d.val * 65536 + a.val * 1024 + b.val * 16 + 0) (by omega) hl rfl rfl rfl h ?_
  intro w hw
  have hc := g.code_lt
  have F := fieldsR g hw (by omega) (by omega) (by omega) hb (by omega)
  have e1 := F.1
  have e2 := F.2.1
  have eg := F.2.2.1
  have f1 : wD w = d := Fin.ext F.2.2.2.1
  have f2 : wA w = a := Fin.ext F.2.2.2.2.1
  have f3 : wB w = b := Fin.ext F.2.2.2.2.2
  rw [raw_61 e1]
  simp only [e2, f1, f2, f3, eg, decodeKern]

theorem slotsave (g : Guard) (d : Reg) (a : Reg) (b : Reg) : Statement (.slotsave g d a b) := by
  intro h
  have h_d := d.isLt
  have h_a := a.isLt
  have h_b := b.isLt
  have hb : b.val < 64 := by omega
  have hl : d.val * 65536 + a.val * 1024 + b.val * 16 + 1 < 4194304 := by omega
  refine decode_ok (g := g) (maj := 61) (low := d.val * 65536 + a.val * 1024 + b.val * 16 + 1) (by omega) hl rfl rfl rfl h ?_
  intro w hw
  have hc := g.code_lt
  have F := fieldsR g hw (by omega) (by omega) (by omega) hb (by omega)
  have e1 := F.1
  have e2 := F.2.1
  have eg := F.2.2.1
  have f1 : wD w = d := Fin.ext F.2.2.2.1
  have f2 : wA w = a := Fin.ext F.2.2.2.2.1
  have f3 : wB w = b := Fin.ext F.2.2.2.2.2
  rw [raw_61 e1]
  simp only [e2, f1, f2, f3, eg, decodeKern]

theorem slotload (g : Guard) (d : Reg) (a : Reg) : Statement (.slotload g d a) := by
  intro h
  have h_d := d.isLt
  have h_a := a.isLt
  have hb : 0 < 64 := by decide
  have hl : d.val * 65536 + a.val * 1024 + 0 * 16 + 2 < 4194304 := by omega
  refine decode_ok (g := g) (maj := 61) (low := d.val * 65536 + a.val * 1024 + 0 * 16 + 2) (by omega) hl rfl rfl rfl h ?_
  intro w hw
  have hc := g.code_lt
  have F := fieldsR g hw (by omega) (by omega) (by omega) hb (by omega)
  have e1 := F.1
  have e2 := F.2.1
  have eg := F.2.2.1
  have f1 : wD w = d := Fin.ext F.2.2.2.1
  have f2 : wA w = a := Fin.ext F.2.2.2.2.1
  have ez : bitsOf w 4 6 = 0 := by
    simp only [bitsOf, Nat.reducePow]
    omega
  rw [raw_61 e1]
  simp only [e2, f1, f2, eg, decodeKern, ez]

theorem slotctl (g : Guard) (d : Reg) (a : Reg) (b : Reg) : Statement (.slotctl g d a b) := by
  intro h
  have h_d := d.isLt
  have h_a := a.isLt
  have h_b := b.isLt
  have hb : b.val < 64 := by omega
  have hl : d.val * 65536 + a.val * 1024 + b.val * 16 + 3 < 4194304 := by omega
  refine decode_ok (g := g) (maj := 61) (low := d.val * 65536 + a.val * 1024 + b.val * 16 + 3) (by omega) hl rfl rfl rfl h ?_
  intro w hw
  have hc := g.code_lt
  have F := fieldsR g hw (by omega) (by omega) (by omega) hb (by omega)
  have e1 := F.1
  have e2 := F.2.1
  have eg := F.2.2.1
  have f1 : wD w = d := Fin.ext F.2.2.2.1
  have f2 : wA w = a := Fin.ext F.2.2.2.2.1
  have f3 : wB w = b := Fin.ext F.2.2.2.2.2
  rw [raw_61 e1]
  simp only [e2, f1, f2, f3, eg, decodeKern]

theorem rgnset (g : Guard) (d : Reg) (a : Reg) (b : Reg) : Statement (.rgnset g d a b) := by
  intro h
  have h_d := d.isLt
  have h_a := a.isLt
  have h_b := b.isLt
  have hb : b.val < 64 := by omega
  have hl : d.val * 65536 + a.val * 1024 + b.val * 16 + 4 < 4194304 := by omega
  refine decode_ok (g := g) (maj := 61) (low := d.val * 65536 + a.val * 1024 + b.val * 16 + 4) (by omega) hl rfl rfl rfl h ?_
  intro w hw
  have hc := g.code_lt
  have F := fieldsR g hw (by omega) (by omega) (by omega) hb (by omega)
  have e1 := F.1
  have e2 := F.2.1
  have eg := F.2.2.1
  have f1 : wD w = d := Fin.ext F.2.2.2.1
  have f2 : wA w = a := Fin.ext F.2.2.2.2.1
  have f3 : wB w = b := Fin.ext F.2.2.2.2.2
  rw [raw_61 e1]
  simp only [e2, f1, f2, f3, eg, decodeKern]

theorem trace (g : Guard) (a : Reg) (b : Reg) : Statement (.trace g a b) := by
  intro h
  have h_a := a.isLt
  have h_b := b.isLt
  have hb : b.val < 64 := by omega
  have hl : 0 * 65536 + a.val * 1024 + b.val * 16 + 0 < 4194304 := by simp only [Nat.zero_mul, Nat.zero_add]; omega
  refine decode_ok (g := g) (maj := 62) (low := 0 * 65536 + a.val * 1024 + b.val * 16 + 0) (by omega) hl rfl rfl rfl h ?_
  intro w hw
  have hc := g.code_lt
  have F := fieldsR g hw (by omega) (by omega) (by omega) hb (by omega)
  have e1 := F.1
  have e2 := F.2.1
  have eg := F.2.2.1
  have f1 : wA w = a := Fin.ext F.2.2.2.2.1
  have f2 : wB w = b := Fin.ext F.2.2.2.2.2
  have ez : bitsOf w 16 6 = 0 := by
    simp only [bitsOf, Nat.reducePow]
    exact F.2.2.2.1
  rw [raw_62 e1]
  simp only [e2, f1, f2, eg, decodeTrace, ez]

theorem mark (g : Guard) (d : Reg) (a : Reg) : Statement (.mark g d a) := by
  intro h
  have h_d := d.isLt
  have h_a := a.isLt
  have hb : 0 < 64 := by decide
  have hl : d.val * 65536 + a.val * 1024 + 0 * 16 + 1 < 4194304 := by omega
  refine decode_ok (g := g) (maj := 62) (low := d.val * 65536 + a.val * 1024 + 0 * 16 + 1) (by omega) hl rfl rfl rfl h ?_
  intro w hw
  have hc := g.code_lt
  have F := fieldsR g hw (by omega) (by omega) (by omega) hb (by omega)
  have e1 := F.1
  have e2 := F.2.1
  have eg := F.2.2.1
  have f1 : wD w = d := Fin.ext F.2.2.2.1
  have f2 : wA w = a := Fin.ext F.2.2.2.2.1
  have ez : bitsOf w 4 6 = 0 := by
    simp only [bitsOf, Nat.reducePow]
    omega
  rw [raw_62 e1]
  simp only [e2, f1, f2, eg, decodeTrace, ez]

theorem snap (g : Guard) (d : Reg) : Statement (.snap g d) := by
  intro h
  have h_d := d.isLt
  have hb : 0 < 64 := by decide
  have hl : d.val * 65536 + 0 * 1024 + 0 * 16 + 2 < 4194304 := by omega
  refine decode_ok (g := g) (maj := 62) (low := d.val * 65536 + 0 * 1024 + 0 * 16 + 2) (by omega) hl rfl rfl rfl h ?_
  intro w hw
  have hc := g.code_lt
  have F := fieldsR g hw (by omega) (by omega) (by omega) hb (by omega)
  have e1 := F.1
  have e2 := F.2.1
  have eg := F.2.2.1
  have f1 : wD w = d := Fin.ext F.2.2.2.1
  have ez : bitsOf w 4 12 = 0 := by
    simp only [bitsOf, Nat.reducePow]
    omega
  rw [raw_62 e1]
  simp only [e2, f1, eg, decodeTrace, ez]

set_option Elab.async false in
theorem nIadd (a : BitVec 9) (b : BitVec 9) (m : BitVec 6) : Statement (.nIadd a b m) := by
  intro _
  refine node_ok (i := .nIadd a b m) (op := 1) (a := a) (b := b) (m := m.toNat) (by omega) m.isLt rfl rfl ?_
  intro w e1 e2 e3 e4
  have e4 : BitVec.ofNat 6 w.toNat = m := e4.trans (by simp)
  unfold decodeNode
  simp only [e1, e2, e3, e4]

theorem nIsub (a : BitVec 9) (b : BitVec 9) (m : BitVec 6) : Statement (.nIsub a b m) := by
  intro _
  refine node_ok (i := .nIsub a b m) (op := 2) (a := a) (b := b) (m := m.toNat) (by omega) m.isLt rfl rfl ?_
  intro w e1 e2 e3 e4
  have e4 : BitVec.ofNat 6 w.toNat = m := e4.trans (by simp)
  unfold decodeNode
  simp only [e1, e2, e3, e4]

theorem nImul (a : BitVec 9) (b : BitVec 9) (m : BitVec 6) : Statement (.nImul a b m) := by
  intro _
  refine node_ok (i := .nImul a b m) (op := 3) (a := a) (b := b) (m := m.toNat) (by omega) m.isLt rfl rfl ?_
  intro w e1 e2 e3 e4
  have e4 : BitVec.ofNat 6 w.toNat = m := e4.trans (by simp)
  unfold decodeNode
  simp only [e1, e2, e3, e4]

theorem nIand (a : BitVec 9) (b : BitVec 9) (m : BitVec 6) : Statement (.nIand a b m) := by
  intro _
  refine node_ok (i := .nIand a b m) (op := 4) (a := a) (b := b) (m := m.toNat) (by omega) m.isLt rfl rfl ?_
  intro w e1 e2 e3 e4
  have e4 : BitVec.ofNat 6 w.toNat = m := e4.trans (by simp)
  unfold decodeNode
  simp only [e1, e2, e3, e4]

theorem nIor (a : BitVec 9) (b : BitVec 9) (m : BitVec 6) : Statement (.nIor a b m) := by
  intro _
  refine node_ok (i := .nIor a b m) (op := 5) (a := a) (b := b) (m := m.toNat) (by omega) m.isLt rfl rfl ?_
  intro w e1 e2 e3 e4
  have e4 : BitVec.ofNat 6 w.toNat = m := e4.trans (by simp)
  unfold decodeNode
  simp only [e1, e2, e3, e4]

theorem nIxor (a : BitVec 9) (b : BitVec 9) (m : BitVec 6) : Statement (.nIxor a b m) := by
  intro _
  refine node_ok (i := .nIxor a b m) (op := 6) (a := a) (b := b) (m := m.toNat) (by omega) m.isLt rfl rfl ?_
  intro w e1 e2 e3 e4
  have e4 : BitVec.ofNat 6 w.toNat = m := e4.trans (by simp)
  unfold decodeNode
  simp only [e1, e2, e3, e4]

theorem nIshl (a : BitVec 9) (b : BitVec 9) (m : BitVec 6) : Statement (.nIshl a b m) := by
  intro _
  refine node_ok (i := .nIshl a b m) (op := 7) (a := a) (b := b) (m := m.toNat) (by omega) m.isLt rfl rfl ?_
  intro w e1 e2 e3 e4
  have e4 : BitVec.ofNat 6 w.toNat = m := e4.trans (by simp)
  unfold decodeNode
  simp only [e1, e2, e3, e4]

theorem nIshr (a : BitVec 9) (b : BitVec 9) (m : BitVec 6) : Statement (.nIshr a b m) := by
  intro _
  refine node_ok (i := .nIshr a b m) (op := 8) (a := a) (b := b) (m := m.toNat) (by omega) m.isLt rfl rfl ?_
  intro w e1 e2 e3 e4
  have e4 : BitVec.ofNat 6 w.toNat = m := e4.trans (by simp)
  unfold decodeNode
  simp only [e1, e2, e3, e4]

theorem nIsra (a : BitVec 9) (b : BitVec 9) (m : BitVec 6) : Statement (.nIsra a b m) := by
  intro _
  refine node_ok (i := .nIsra a b m) (op := 9) (a := a) (b := b) (m := m.toNat) (by omega) m.isLt rfl rfl ?_
  intro w e1 e2 e3 e4
  have e4 : BitVec.ofNat 6 w.toNat = m := e4.trans (by simp)
  unfold decodeNode
  simp only [e1, e2, e3, e4]

theorem nImin (a : BitVec 9) (b : BitVec 9) (m : BitVec 6) : Statement (.nImin a b m) := by
  intro _
  refine node_ok (i := .nImin a b m) (op := 10) (a := a) (b := b) (m := m.toNat) (by omega) m.isLt rfl rfl ?_
  intro w e1 e2 e3 e4
  have e4 : BitVec.ofNat 6 w.toNat = m := e4.trans (by simp)
  unfold decodeNode
  simp only [e1, e2, e3, e4]

theorem nImax (a : BitVec 9) (b : BitVec 9) (m : BitVec 6) : Statement (.nImax a b m) := by
  intro _
  refine node_ok (i := .nImax a b m) (op := 11) (a := a) (b := b) (m := m.toNat) (by omega) m.isLt rfl rfl ?_
  intro w e1 e2 e3 e4
  have e4 : BitVec.ofNat 6 w.toNat = m := e4.trans (by simp)
  unfold decodeNode
  simp only [e1, e2, e3, e4]

theorem nIcmp (a : BitVec 9) (b : BitVec 9) (m : BitVec 6) : Statement (.nIcmp a b m) := by
  intro _
  refine node_ok (i := .nIcmp a b m) (op := 12) (a := a) (b := b) (m := m.toNat) (by omega) m.isLt rfl rfl ?_
  intro w e1 e2 e3 e4
  have e4 : BitVec.ofNat 6 w.toNat = m := e4.trans (by simp)
  unfold decodeNode
  simp only [e1, e2, e3, e4]

theorem nFadd (a : BitVec 9) (b : BitVec 9) (m : BitVec 6) : Statement (.nFadd a b m) := by
  intro _
  refine node_ok (i := .nFadd a b m) (op := 16) (a := a) (b := b) (m := m.toNat) (by omega) m.isLt rfl rfl ?_
  intro w e1 e2 e3 e4
  have e4 : BitVec.ofNat 6 w.toNat = m := e4.trans (by simp)
  unfold decodeNode
  simp only [e1, e2, e3, e4]

theorem nFmul (a : BitVec 9) (b : BitVec 9) (m : BitVec 6) : Statement (.nFmul a b m) := by
  intro _
  refine node_ok (i := .nFmul a b m) (op := 17) (a := a) (b := b) (m := m.toNat) (by omega) m.isLt rfl rfl ?_
  intro w e1 e2 e3 e4
  have e4 : BitVec.ofNat 6 w.toNat = m := e4.trans (by simp)
  unfold decodeNode
  simp only [e1, e2, e3, e4]

theorem nFma (a : BitVec 9) (b : BitVec 9) (m : BitVec 6) : Statement (.nFma a b m) := by
  intro _
  refine node_ok (i := .nFma a b m) (op := 18) (a := a) (b := b) (m := m.toNat) (by omega) m.isLt rfl rfl ?_
  intro w e1 e2 e3 e4
  have e4 : BitVec.ofNat 6 w.toNat = m := e4.trans (by simp)
  unfold decodeNode
  simp only [e1, e2, e3, e4]

theorem nFmax (a : BitVec 9) (b : BitVec 9) (m : BitVec 6) : Statement (.nFmax a b m) := by
  intro _
  refine node_ok (i := .nFmax a b m) (op := 19) (a := a) (b := b) (m := m.toNat) (by omega) m.isLt rfl rfl ?_
  intro w e1 e2 e3 e4
  have e4 : BitVec.ofNat 6 w.toNat = m := e4.trans (by simp)
  unfold decodeNode
  simp only [e1, e2, e3, e4]

theorem nFmin (a : BitVec 9) (b : BitVec 9) (m : BitVec 6) : Statement (.nFmin a b m) := by
  intro _
  refine node_ok (i := .nFmin a b m) (op := 20) (a := a) (b := b) (m := m.toNat) (by omega) m.isLt rfl rfl ?_
  intro w e1 e2 e3 e4
  have e4 : BitVec.ofNat 6 w.toNat = m := e4.trans (by simp)
  unfold decodeNode
  simp only [e1, e2, e3, e4]

theorem nExp2 (a : BitVec 9) (b : BitVec 9) (m : BitVec 6) : Statement (.nExp2 a b m) := by
  intro _
  refine node_ok (i := .nExp2 a b m) (op := 24) (a := a) (b := b) (m := m.toNat) (by omega) m.isLt rfl rfl ?_
  intro w e1 e2 e3 e4
  have e4 : BitVec.ofNat 6 w.toNat = m := e4.trans (by simp)
  unfold decodeNode
  simp only [e1, e2, e3, e4]

theorem nLog2 (a : BitVec 9) (b : BitVec 9) (m : BitVec 6) : Statement (.nLog2 a b m) := by
  intro _
  refine node_ok (i := .nLog2 a b m) (op := 25) (a := a) (b := b) (m := m.toNat) (by omega) m.isLt rfl rfl ?_
  intro w e1 e2 e3 e4
  have e4 : BitVec.ofNat 6 w.toNat = m := e4.trans (by simp)
  unfold decodeNode
  simp only [e1, e2, e3, e4]

theorem nRcp (a : BitVec 9) (b : BitVec 9) (m : BitVec 6) : Statement (.nRcp a b m) := by
  intro _
  refine node_ok (i := .nRcp a b m) (op := 26) (a := a) (b := b) (m := m.toNat) (by omega) m.isLt rfl rfl ?_
  intro w e1 e2 e3 e4
  have e4 : BitVec.ofNat 6 w.toNat = m := e4.trans (by simp)
  unfold decodeNode
  simp only [e1, e2, e3, e4]

theorem nRsq (a : BitVec 9) (b : BitVec 9) (m : BitVec 6) : Statement (.nRsq a b m) := by
  intro _
  refine node_ok (i := .nRsq a b m) (op := 27) (a := a) (b := b) (m := m.toNat) (by omega) m.isLt rfl rfl ?_
  intro w e1 e2 e3 e4
  have e4 : BitVec.ofNat 6 w.toNat = m := e4.trans (by simp)
  unfold decodeNode
  simp only [e1, e2, e3, e4]

theorem nCvt (a : BitVec 9) (b : BitVec 9) (m : BitVec 6) : Statement (.nCvt a b m) := by
  intro _
  refine node_ok (i := .nCvt a b m) (op := 28) (a := a) (b := b) (m := m.toNat) (by omega) m.isLt rfl rfl ?_
  intro w e1 e2 e3 e4
  have e4 : BitVec.ofNat 6 w.toNat = m := e4.trans (by simp)
  unfold decodeNode
  simp only [e1, e2, e3, e4]

theorem nSteer (a : BitVec 9) (b : BitVec 9) (m : BitVec 6) : Statement (.nSteer a b m) := by
  intro _
  refine node_ok (i := .nSteer a b m) (op := 32) (a := a) (b := b) (m := m.toNat) (by omega) m.isLt rfl rfl ?_
  intro w e1 e2 e3 e4
  have e4 : BitVec.ofNat 6 w.toNat = m := e4.trans (by simp)
  unfold decodeNode
  simp only [e1, e2, e3, e4]

theorem nJoin (a : BitVec 9) (b : BitVec 9) (m : BitVec 6) : Statement (.nJoin a b m) := by
  intro _
  refine node_ok (i := .nJoin a b m) (op := 33) (a := a) (b := b) (m := m.toNat) (by omega) m.isLt rfl rfl ?_
  intro w e1 e2 e3 e4
  have e4 : BitVec.ofNat 6 w.toNat = m := e4.trans (by simp)
  unfold decodeNode
  simp only [e1, e2, e3, e4]

theorem nMux (a : BitVec 9) (b : BitVec 9) (m : BitVec 6) : Statement (.nMux a b m) := by
  intro _
  refine node_ok (i := .nMux a b m) (op := 34) (a := a) (b := b) (m := m.toNat) (by omega) m.isLt rfl rfl ?_
  intro w e1 e2 e3 e4
  have e4 : BitVec.ofNat 6 w.toNat = m := e4.trans (by simp)
  unfold decodeNode
  simp only [e1, e2, e3, e4]

set_option Elab.async false in
theorem nRecirc (a : BitVec 9) (b : BitVec 9) : Statement (.nRecirc a b) := by
  intro _
  refine node_ok (i := .nRecirc a b) (op := 35) (a := a) (b := b) (m := 0) (by omega) (by omega) rfl rfl ?_
  intro w e1 e2 e3 e4
  unfold decodeNode
  simp only [e1, e2, e3, e4, ite_true, BitVec.ofNat_eq_ofNat]

theorem nEosx (a : BitVec 9) (b : BitVec 9) (m : BitVec 6) : Statement (.nEosx a b m) := by
  intro _
  refine node_ok (i := .nEosx a b m) (op := 36) (a := a) (b := b) (m := m.toNat) (by omega) m.isLt rfl rfl ?_
  intro w e1 e2 e3 e4
  have e4 : BitVec.ofNat 6 w.toNat = m := e4.trans (by simp)
  unfold decodeNode
  simp only [e1, e2, e3, e4]

theorem nDup (a : BitVec 9) (b : BitVec 9) : Statement (.nDup a b) := by
  intro _
  refine node_ok (i := .nDup a b) (op := 37) (a := a) (b := b) (m := 0) (by omega) (by omega) rfl rfl ?_
  intro w e1 e2 e3 e4
  unfold decodeNode
  simp only [e1, e2, e3, e4, ite_true, BitVec.ofNat_eq_ofNat]

theorem nDelay (a : BitVec 9) (b : BitVec 9) : Statement (.nDelay a b) := by
  intro _
  refine node_ok (i := .nDelay a b) (op := 38) (a := a) (b := b) (m := 0) (by omega) (by omega) rfl rfl ?_
  intro w e1 e2 e3 e4
  unfold decodeNode
  simp only [e1, e2, e3, e4, ite_true, BitVec.ofNat_eq_ofNat]

theorem nConst (a : BitVec 9) (b : BitVec 9) : Statement (.nConst a b) := by
  intro _
  refine node_ok (i := .nConst a b) (op := 39) (a := a) (b := b) (m := 0) (by omega) (by omega) rfl rfl ?_
  intro w e1 e2 e3 e4
  unfold decodeNode
  simp only [e1, e2, e3, e4, ite_true, BitVec.ofNat_eq_ofNat]

theorem nTagchk (a : BitVec 9) (b : BitVec 9) (m : BitVec 6) : Statement (.nTagchk a b m) := by
  intro _
  refine node_ok (i := .nTagchk a b m) (op := 40) (a := a) (b := b) (m := m.toNat) (by omega) m.isLt rfl rfl ?_
  intro w e1 e2 e3 e4
  have e4 : BitVec.ofNat 6 w.toNat = m := e4.trans (by simp)
  unfold decodeNode
  simp only [e1, e2, e3, e4]

theorem nFilter (a : BitVec 9) (b : BitVec 9) (m : BitVec 6) : Statement (.nFilter a b m) := by
  intro _
  refine node_ok (i := .nFilter a b m) (op := 41) (a := a) (b := b) (m := m.toNat) (by omega) m.isLt rfl rfl ?_
  intro w e1 e2 e3 e4
  have e4 : BitVec.ofNat 6 w.toNat = m := e4.trans (by simp)
  unfold decodeNode
  simp only [e1, e2, e3, e4]

theorem nCoalesce (a : BitVec 9) (b : BitVec 9) (m : BitVec 6) : Statement (.nCoalesce a b m) := by
  intro _
  refine node_ok (i := .nCoalesce a b m) (op := 42) (a := a) (b := b) (m := m.toNat) (by omega) m.isLt rfl rfl ?_
  intro w e1 e2 e3 e4
  have e4 : BitVec.ofNat 6 w.toNat = m := e4.trans (by simp)
  unfold decodeNode
  simp only [e1, e2, e3, e4]

theorem nCmpx (a : BitVec 9) (b : BitVec 9) (m : BitVec 6) : Statement (.nCmpx a b m) := by
  intro _
  refine node_ok (i := .nCmpx a b m) (op := 43) (a := a) (b := b) (m := m.toNat) (by omega) m.isLt rfl rfl ?_
  intro w e1 e2 e3 e4
  have e4 : BitVec.ofNat 6 w.toNat = m := e4.trans (by simp)
  unfold decodeNode
  simp only [e1, e2, e3, e4]

theorem nLoopgen (a : BitVec 9) (b : BitVec 9) (m : BitVec 6) : Statement (.nLoopgen a b m) := by
  intro _
  refine node_ok (i := .nLoopgen a b m) (op := 48) (a := a) (b := b) (m := m.toNat) (by omega) m.isLt rfl rfl ?_
  intro w e1 e2 e3 e4
  have e4 : BitVec.ofNat 6 w.toNat = m := e4.trans (by simp)
  unfold decodeNode
  simp only [e1, e2, e3, e4]

theorem nAddrgen (a : BitVec 9) (b : BitVec 9) (m : BitVec 6) : Statement (.nAddrgen a b m) := by
  intro _
  refine node_ok (i := .nAddrgen a b m) (op := 49) (a := a) (b := b) (m := m.toNat) (by omega) m.isLt rfl rfl ?_
  intro w e1 e2 e3 e4
  have e4 : BitVec.ofNat 6 w.toNat = m := e4.trans (by simp)
  unfold decodeNode
  simp only [e1, e2, e3, e4]

theorem nLdn (a : BitVec 9) (b : BitVec 9) (m : BitVec 6) : Statement (.nLdn a b m) := by
  intro _
  refine node_ok (i := .nLdn a b m) (op := 56) (a := a) (b := b) (m := m.toNat) (by omega) m.isLt rfl rfl ?_
  intro w e1 e2 e3 e4
  have e4 : BitVec.ofNat 6 w.toNat = m := e4.trans (by simp)
  unfold decodeNode
  simp only [e1, e2, e3, e4]

theorem nStn (a : BitVec 9) (b : BitVec 9) (m : BitVec 6) : Statement (.nStn a b m) := by
  intro _
  refine node_ok (i := .nStn a b m) (op := 57) (a := a) (b := b) (m := m.toNat) (by omega) m.isLt rfl rfl ?_
  intro w e1 e2 e3 e4
  have e4 : BitVec.ofNat 6 w.toNat = m := e4.trans (by simp)
  unfold decodeNode
  simp only [e1, e2, e3, e4]

theorem nEntry (a : BitVec 9) (b : BitVec 9) : Statement (.nEntry a b) := by
  intro _
  refine node_ok (i := .nEntry a b) (op := 62) (a := a) (b := b) (m := 0) (by omega) (by omega) rfl rfl ?_
  intro w e1 e2 e3 e4
  unfold decodeNode
  simp only [e1, e2, e3, e4, ite_true, BitVec.ofNat_eq_ofNat]

theorem nReturn (a : BitVec 9) (b : BitVec 9) : Statement (.nReturn a b) := by
  intro _
  refine node_ok (i := .nReturn a b) (op := 63) (a := a) (b := b) (m := 0) (by omega) (by omega) rfl rfl ?_
  intro w e1 e2 e3 e4
  unfold decodeNode
  simp only [e1, e2, e3, e4, ite_true, BitVec.ofNat_eq_ofNat]

theorem evEventTaken (tid : Nat) : Statement (.evEventTaken tid) := fun _ => rfl

theorem evThreadResume (tid : Nat) : Statement (.evThreadResume tid) := fun _ => rfl

theorem evLoadResponse (tid : Nat) (k : Nat) : Statement (.evLoadResponse tid k) := fun _ => rfl

theorem evStorePerformed (tid : Nat) (q : Nat) (k : Nat) : Statement (.evStorePerformed tid q k) := fun _ => rfl

theorem evAtomicAtHome (tid : Nat) (q : Nat) : Statement (.evAtomicAtHome tid q) := fun _ => rfl

theorem evSyncWordAtHome (tid : Nat) : Statement (.evSyncWordAtHome tid) := fun _ => rfl

theorem evWaitlistRetry (list : Nat) : Statement (.evWaitlistRetry list) := fun _ => rfl

theorem evIcacheFill (tid : Nat) : Statement (.evIcacheFill tid) := fun _ => rfl

theorem evPageWalk (tid : Nat) : Statement (.evPageWalk tid) := fun _ => rfl

theorem evSleepTimeout (tid : Nat) : Statement (.evSleepTimeout tid) := fun _ => rfl

theorem evLongPark (tid : Nat) : Statement (.evLongPark tid) := fun _ => rfl

theorem evMessageArrival (n : Nat) : Statement (.evMessageArrival n) := fun _ => rfl

theorem evAnswerArrival (tid : Nat) : Statement (.evAnswerArrival tid) := fun _ => rfl

theorem evKillArrival (tid : Nat) : Statement (.evKillArrival tid) := fun _ => rfl

theorem evDrainComplete (tid : Nat) : Statement (.evDrainComplete tid) := fun _ => rfl

theorem evHeldRedelivery (die : Nat) (n : Nat) : Statement (.evHeldRedelivery die n) := fun _ => rfl

theorem evCollectiveComplete (spire : Nat) (n : Nat) : Statement (.evCollectiveComplete spire n) := fun _ => rfl

theorem evRecordEntry (spire : Nat) (region : Nat) (tid : Nat) : Statement (.evRecordEntry spire region tid) := fun _ => rfl

theorem evReturnDelivery (spire : Nat) (region : Nat) (tid : Nat) : Statement (.evReturnDelivery spire region tid) := fun _ => rfl

theorem evHearthPlace (spire : Nat) (region : Nat) : Statement (.evHearthPlace spire region) := fun _ => rfl

theorem evRegionClosed (spire : Nat) (region : Nat) : Statement (.evRegionClosed spire region) := fun _ => rfl

theorem evShadowWrite (spire : Nat) (region : Nat) (i : Nat) (j : Nat) : Statement (.evShadowWrite spire region i j) := fun _ => rfl

theorem evCellSwap (spire : Nat) (region : Nat) (i : Nat) (j : Nat) (u : Nat) : Statement (.evCellSwap spire region i j u) := fun _ => rfl

theorem evMatrixOpStart (spire : Nat) (region : Nat) : Statement (.evMatrixOpStart spire region) := fun _ => rfl

theorem evRowDrain (spire : Nat) (region : Nat) : Statement (.evRowDrain spire region) := fun _ => rfl

theorem evMatrixHalt (spire : Nat) (region : Nat) : Statement (.evMatrixHalt spire region) := fun _ => rfl

theorem evElementLand (spire : Nat) (ch : Nat) : Statement (.evElementLand spire ch) := fun _ => rfl

theorem evCopySignal (spire : Nat) (ch : Nat) : Statement (.evCopySignal spire ch) := fun _ => rfl

theorem evStreamRead (spire : Nat) (ctx : Nat) (k : Nat) : Statement (.evStreamRead spire ctx k) := fun _ => rfl

theorem evSpill (spire : Nat) (ctx : Nat) : Statement (.evSpill spire ctx) := fun _ => rfl

theorem evMergeFinish (spire : Nat) (ctx : Nat) : Statement (.evMergeFinish spire ctx) := fun _ => rfl

theorem evSetOperation (spire : Nat) (ctx : Nat) : Statement (.evSetOperation spire ctx) := fun _ => rfl

theorem evRegionQuiet (spire : Nat) (region : Nat) : Statement (.evRegionQuiet spire region) := fun _ => rfl

theorem evCutDone (spire : Nat) (region : Nat) : Statement (.evCutDone spire region) := fun _ => rfl

theorem evDbgtrig : Statement (.evDbgtrig) := fun _ => rfl

theorem evSnapshotLatch (spire : Nat) : Statement (.evSnapshotLatch spire) := fun _ => rfl

theorem evTraceWrite (spire : Nat) : Statement (.evTraceWrite spire) := fun _ => rfl

theorem evWidxWrite (q : Nat) (v : Nat) : Statement (.evWidxWrite q v) := fun _ => rfl

theorem evQstatErr (q : Nat) : Statement (.evQstatErr q) := fun _ => rfl

theorem evQstatFault (q : Nat) : Statement (.evQstatFault q) := fun _ => rfl

theorem evQstatAbort (q : Nat) : Statement (.evQstatAbort q) := fun _ => rfl

theorem evEvrWrite (q : Nat) (v : Nat) : Statement (.evEvrWrite q v) := fun _ => rfl

theorem evRefusedWrite (spire : Nat) (region : Nat) (v : Nat) : Statement (.evRefusedWrite spire region v) := fun _ => rfl

theorem evNodeStateWrite (spire : Nat) (region : Nat) (o : Nat) : Statement (.evNodeStateWrite spire region o) := fun _ => rfl

theorem evRctlWrite (spire : Nat) (region : Nat) (v : Nat) : Statement (.evRctlWrite spire region v) := fun _ => rfl

theorem evBkcfgWrite (spire : Nat) (region : Nat) (k : Nat) (v : Nat) : Statement (.evBkcfgWrite spire region k v) := fun _ => rfl

theorem evRegisterWrite (o : Nat) (v : Nat) : Statement (.evRegisterWrite o v) := fun _ => rfl

theorem evLaunch (q : Nat) : Statement (.evLaunch q) := fun _ => rfl

theorem evLaunchPlace (die : Nat) : Statement (.evLaunchPlace die) := fun _ => rfl

theorem evBind (q : Nat) : Statement (.evBind q) := fun _ => rfl

theorem evBindInbound (spire : Nat) (region : Nat) (k : Nat) : Statement (.evBindInbound spire region k) := fun _ => rfl

theorem evBindOutbound (spire : Nat) (region : Nat) (k : Nat) : Statement (.evBindOutbound spire region k) := fun _ => rfl

theorem evWait (q : Nat) : Statement (.evWait q) := fun _ => rfl

theorem evSignalStf (q : Nat) : Statement (.evSignalStf q) := fun _ => rfl

theorem evSignalArrive (q : Nat) : Statement (.evSignalArrive q) := fun _ => rfl

theorem evSignalAadd (q : Nat) : Statement (.evSignalAadd q) := fun _ => rfl

theorem evConfigLoad (q : Nat) : Statement (.evConfigLoad q) := fun _ => rfl

theorem evConfigUnload (q : Nat) : Statement (.evConfigUnload q) := fun _ => rfl

theorem evConfigForce (q : Nat) : Statement (.evConfigForce q) := fun _ => rfl

theorem evRegion (q : Nat) : Statement (.evRegion q) := fun _ => rfl

theorem evCopy (q : Nat) : Statement (.evCopy q) := fun _ => rfl

theorem evFence (q : Nat) : Statement (.evFence q) := fun _ => rfl

theorem evCommandComplete (q : Nat) (k : Nat) : Statement (.evCommandComplete q k) := fun _ => rfl

theorem evSeqEnd (q : Nat) (k : Nat) : Statement (.evSeqEnd q k) := fun _ => rfl

theorem evSeqLoad (q : Nat) (k : Nat) : Statement (.evSeqLoad q k) := fun _ => rfl

theorem evSeqSwap (q : Nat) (k : Nat) : Statement (.evSeqSwap q k) := fun _ => rfl

theorem evSeqWaiteos (q : Nat) (k : Nat) : Statement (.evSeqWaiteos q k) := fun _ => rfl

theorem evSeqWaitc (q : Nat) (k : Nat) : Statement (.evSeqWaitc q k) := fun _ => rfl

theorem evSeqSkipc (q : Nat) (k : Nat) : Statement (.evSeqSkipc q k) := fun _ => rfl

theorem evSeqPin (q : Nat) (k : Nat) : Statement (.evSeqPin q k) := fun _ => rfl

theorem evSeqUnpin (q : Nat) (k : Nat) : Statement (.evSeqUnpin q k) := fun _ => rfl

theorem evPeerAccess (p : Nat) : Statement (.evPeerAccess p) := fun _ => rfl

theorem evPeerLinkDown (p : Nat) : Statement (.evPeerLinkDown p) := fun _ => rfl

theorem evIslctlWrite (i : Nat) (v : Nat) : Statement (.evIslctlWrite i v) := fun _ => rfl

theorem evIslandPowerUp (i : Nat) : Statement (.evIslandPowerUp i) := fun _ => rfl

theorem evIslandGate (i : Nat) : Statement (.evIslandGate i) := fun _ => rfl

theorem evVfChange (i : Nat) : Statement (.evVfChange i) := fun _ => rfl

theorem evThermalThrottle (i : Nat) : Statement (.evThermalThrottle i) := fun _ => rfl

theorem evForcedGate (i : Nat) : Statement (.evForcedGate i) := fun _ => rfl

theorem evEccWindow (k : Nat) (i : Nat) : Statement (.evEccWindow k i) := fun _ => rfl

theorem evUncorrectableError (o : Nat) : Statement (.evUncorrectableError o) := fun _ => rfl

theorem evPackageReset (die : Nat) : Statement (.evPackageReset die) := fun _ => rfl

theorem evAttctlWrite (die : Nat) (v : Nat) : Statement (.evAttctlWrite die v) := fun _ => rfl

theorem evAttestationDone (die : Nat) : Statement (.evAttestationDone die) := fun _ => rfl

theorem evMatrixStreamRead (spire : Nat) (region : Nat) : Statement (.evMatrixStreamRead spire region) := fun _ => rfl

theorem evMemoryNodeAccessDone (spire : Nat) (region : Nat) (k : Nat) : Statement (.evMemoryNodeAccessDone spire region k) := fun _ => rfl

theorem evPeerLinkUp (p : Nat) : Statement (.evPeerLinkUp p) := fun _ => rfl

end Sys2Proof.Laws.Codec
end

