-- ==== Sys2Proof/Tests/Slice0.lean ====
section
/-! SUPPORT. Small tests: ill-formed terms that the check refuses, words written out from the encodings of the spec, single steps on
small states, and for every statement with hypotheses a state and operands that meet them (witness_…). Expected values are the
spec's tables or hand calculation from them. -/

namespace Sys2Proof.Tests

open Sys2Proof Sys2Proof.Machine

set_option Elab.async false

/-- p0, which is always true, and p1, which is false after reset. -/
def always : Guard := ⟨false, 0⟩
def never : Guard := ⟨false, 1⟩

/-- The reset state with thread 0 running and some registers written. -/
def regs (l : List (Reg × Word)) : State :=
  State.reset.setThr (l.foldl (fun t e => t.setX e.1 e.2) { State.reset.thr with st := .run })

/-- The state after an instruction that answers a next state. -/
def after (i : Instr) (s : State) : State :=
  match exec i s with
  | .next t => t
  | _ => s

/-- An instruction on some registers leaves a value in X[d]. -/
abbrev Leaves (i : Instr) (l : List (Reg × Word)) (d : Reg) (v : Word) : Prop := (after i (regs l)).getX d = v

/-- An instruction on some registers leaves a truth value in P[p]. -/
abbrev LeavesP (i : Instr) (l : List (Reg × Word)) (p : PReg) (v : Bool) : Prop := (after i (regs l)).getP p = v

/-! ## Ill-formed terms -/

/-- R38, R45: !p0 is no guard. -/
theorem test_illFormed_guard : wellFormed (.nop ⟨true, 0⟩) = false ∧ wellFormed (.nop ⟨true, 1⟩) = true := by decide
/-- R42: a pair begins at an even register. -/
theorem test_illFormed_pair : wellFormed (.lq always 7 20 0) = false ∧ wellFormed (.lq always 6 20 0) = true := by decide
/-- R45, R48, R360: a CSR number that names nothing; a read-only CSR is written by CSRRW, and not by CSRRS with x0. -/
theorem test_illFormed_csr : wellFormed (.csrrw always 5 9 0x3FF) = false ∧ wellFormed (.csrrw always 5 9 0x080) = false
    ∧ wellFormed (.csrrs always 5 0 0x080) = true := by decide
/-- R5, R13, R385: a step of the machine names a slot, a spire and a queue that exist. -/
theorem test_illFormed_event : wellFormed (.evThreadResume 65536) = false ∧ wellFormed (.evThreadResume 65535) = true
    ∧ wellFormed (.evSpill 160 0) = false ∧ wellFormed (.evSpill 159 1) = true
    ∧ wellFormed (.evLaunch 64) = false ∧ wellFormed (.evLaunch 63) = true := by decide

/-! ## Words written out from the spec's encodings (R37 to R45, R245) -/

/-- 0000 001000 000101 000110 111111 0010: SHIFTI (0x08), D = 5, A = 6, n = 63, F = 2 (R99, the example of R98). -/
theorem test_word_srai :
    decode 0b00000010000001010001101111110010 = .ok (.srai always 5 6 63) := rfl
/-- The words of the example of R39. -/
theorem test_word_firstExample :
    decode 0x01090000 = .ok (.addi always 9 0 0)
    ∧ decode 0x03410800 = .ok (.ceqi always 1 2 0)
    ∧ decode 0x15400007 = .ok (.br ⟨false, 1⟩ 7)
    ∧ decode 0x098A0400 = .ok (.ld always 10 1 0)
    ∧ decode 0x004924A0 = .ok (.add always 9 9 10)
    ∧ decode 0x01020BFF = .ok (.addi always 2 2 (-1))
    ∧ decode 0x03490800 = .ok (.cnei always 1 2 0)
    ∧ decode 0x157FFFFB = .ok (.br ⟨false, 1⟩ (-5))
    ∧ decode 0x05C0FC00 = .ok (.jalr always 0 63 0) := by
  refine ⟨?_, ?_, ?_, ?_, ?_, ?_, ?_, ?_, ?_⟩ <;> rfl
/-- A guard by a complemented predicate, a negative offset, a scope and size (R39 to R41). -/
theorem test_word_fields :
    decode 0xB0451870 = .ok (.add ⟨true, 3⟩ 5 6 7)
    ∧ decode 0x0989FBFD = .ok (.ld always 9 62 (-3))
    ∧ decode 0x0B4328B0 = .ok (.lacq always 3 10 .spire .d)
    ∧ decode 0x0B472531 = .ok (.srel always 7 9 .die .d) := by
  refine ⟨?_, ?_, ?_, ?_⟩ <;> rfl
/-- Written from the majors of R43: MULH 0x01/3, MULW 0x02/2, CLZ 0x03/5, LUI 0x09, CLTUI 0x0D/3, PANDN 0x0E/3. -/
theorem test_word_integer :
    decode 0b00000000010000110000010000100011 = .ok (.mulh always 3 1 2)
    ∧ decode 0b00000000100000110000010000100010 = .ok (.mulw always 3 1 2)
    ∧ decode 0b00000000110000110000010000000101 = .ok (.clz always 3 1)
    ∧ decode 0x02478000 = .ok (.lui always 7 0x8000)
    ∧ decode 0x035A13FF = .ok (.cltui always 2 4 (-1))
    ∧ decode 0x03830423 = .ok (.pandn always 3 1 2) := by
  refine ⟨?_, ?_, ?_, ?_, ?_, ?_⟩ <;> rfl
/-- The words of the examples of R122 and R123. -/
theorem test_word_float :
    decode 0x040C28A2 = .ok (.fmulS always 12 10 10)
    ∧ decode 0x040C30B0 = .ok (.faddS always 12 12 11)
    ∧ decode 0x048B28A0 = .ok (.fmacS always 11 10 10)
    ∧ decode 0x05051807 = .ok (.cvtE4S always 5 6) := by
  refine ⟨?_, ?_, ?_, ?_⟩ <;> rfl
/-- The words of R140, R141, R145 to R149 and R155. -/
theorem test_word_threads :
    decode 0x00000000 = .ok (.nop always)
    ∧ decode 0x00050004 = .ok (.rdcyc always 5)
    ∧ decode 0x00050005 = .ok (.rdtime always 5)
    ∧ decode 0x00050006 = .ok (.tid always 5)
    ∧ decode 0x00050007 = .ok (.gtid always 5)
    ∧ decode 0x06000000 = .ok (.exit always)
    ∧ decode 0x06090012 = .ok (.sleep always 9 0 1)
    ∧ decode 0x060528B1 = .ok (.spawn always 5 10 11)
    ∧ decode 0x064328B1 = .ok (.sendw always 3 10 11) := by
  refine ⟨?_, ?_, ?_, ?_, ?_, ?_, ?_, ?_, ?_⟩ <;> rfl
/-- The words of R167. -/
theorem test_word_loads :
    decode 0x08051800 = .ok (.lb always 5 6 0)
    ∧ decode 0x08451800 = .ok (.lbu always 5 6 0)
    ∧ decode 0x08851800 = .ok (.lh always 5 6 0)
    ∧ decode 0x08C51800 = .ok (.lhu always 5 6 0)
    ∧ decode 0x09051800 = .ok (.lw always 5 6 0)
    ∧ decode 0x09451800 = .ok (.lwu always 5 6 0)
    ∧ decode 0x09851800 = .ok (.ld always 5 6 0)
    ∧ decode 0x09C41800 = .ok (.lq always 4 6 0) := by
  refine ⟨?_, ?_, ?_, ?_, ?_, ?_, ?_, ?_⟩ <;> rfl
/-- The words of R167, and offsets in units of the size (R40). -/
theorem test_word_stores :
    decode 0x0A051800 = .ok (.sb always 5 6 0)
    ∧ decode 0x0A451800 = .ok (.sh always 5 6 0)
    ∧ decode 0x0A851800 = .ok (.sw always 5 6 0)
    ∧ decode 0x0AC51800 = .ok (.sd always 5 6 0)
    ∧ decode 0x0B041800 = .ok (.sq always 4 6 0)
    ∧ decode 0x0AC15022 = .ok (.sd always 1 20 34)
    ∧ decode 0x09095001 = .ok (.lw always 9 20 1)
    ∧ decode 0x0C802400 = .ok (.cflush always 9) := by
  refine ⟨?_, ?_, ?_, ?_, ?_, ?_, ?_, ?_⟩ <;> rfl
/-- The words of R189 and R201. -/
theorem test_word_groups :
    decode 0x0CC70050 = .ok (.gjoin always 7 5)
    ∧ decode 0x0CC00052 = .ok (.gsync always 5)
    ∧ decode 0x0CC51833 = .ok (.gshfl always 5 6 3)
    ∧ decode 0x0CC5183A = .ok (.gredAdd always 5 6 3)
    ∧ decode 0x0D0A5150 = .ok (.ldxtB always 10 20 21) := by
  refine ⟨?_, ?_, ?_, ?_, ?_⟩ <;> rfl
/-- The words of R210 and of the lookup program: B holds N − 1 and R − 1. -/
theorem test_word_serve :
    decode 0x0D802880 = .ok (.srv always 10 1 0)
    ∧ decode 0x0D822881 = .ok (.srvnw always 2 10 1 0)
    ∧ decode 0x0D852802 = .ok (.srvq always 5 10)
    ∧ decode 0x0D852806 = .ok (.cfgev always 5 10) := by
  refine ⟨?_, ?_, ?_, ?_⟩ <;> rfl
/-- The words of R303. -/
theorem test_word_matrix :
    decode 0x0DC53810 = .ok (.mxw always 5 14 1)
    ∧ decode 0x0DC54011 = .ok (.mxa always 5 16 1)
    ∧ decode 0x0DC52812 = .ok (.mxc always 5 10 1)
    ∧ decode 0x0DC53013 = .ok (.mxd always 5 12 1)
    ∧ decode 0x0DC55014 = .ok (.mxmd always 5 20 1)
    ∧ decode 0x0DC54815 = .ok (.mxst always 5 18 1) := by
  refine ⟨?_, ?_, ?_, ?_, ?_, ?_⟩ <;> rfl
/-- The words of R322. -/
theorem test_word_copy :
    decode 0x0E035020 = .ok (.cpy always 3 20 0 2)
    ∧ decode 0x0E052821 = .ok (.cshp always 5 10 2)
    ∧ decode 0x0E052822 = .ok (.cpyq always 5 10 2)
    ∧ decode 0x0E052823 = .ok (.cpyres always 5 10 2)
    ∧ decode 0x0E050124 = .ok (.cpyabt always 5 1 2)
    ∧ decode 0x0E050025 = .ok (.wmrd always 5 2)
    ∧ decode 0x0E061C26 = .ok (.wmwait always 6 7 2) := by
  refine ⟨?_, ?_, ?_, ?_, ?_, ?_, ?_⟩ <;> rfl
/-- The words of R340. -/
theorem test_word_merge :
    decode 0x0E452A00 = .ok (.mstart always 5 10 1)
    ∧ decode 0x0E455131 = .ok (.mstrm always 5 20 0 1 3)
    ∧ decode 0x0E455A22 = .ok (.mpush always 5 22 1 2)
    ∧ decode 0x0E466003 = .ok (.mfin always 6 24 0)
    ∧ decode 0x0E456804 = .ok (.mspill always 5 26 0)
    ∧ decode 0x0E452805 = .ok (.mstat always 5 10 0)
    ∧ decode 0x0E452806 = .ok (.xsect always 5 10 0)
    ∧ decode 0x0E452807 = .ok (.xunion always 5 10 0)
    ∧ decode 0x0E452808 = .ok (.xcnt always 5 10 0) := by
  refine ⟨?_, ?_, ?_, ?_, ?_, ?_, ?_, ?_, ?_⟩ <;> rfl
/-- The words of R360 to R378 and R292. -/
theorem test_word_system :
    decode 0x0EC50080 = .ok (.csrrs always 5 0 0x080)
    ∧ decode 0x0E802507 = .ok (.csrrw always 0 9 0x107)
    ∧ decode 0x0ECA0105 = .ok (.csrrs always 10 0 0x105)
    ∧ decode 0x00000001 = .ok (.ebrk always)
    ∧ decode 0x00000002 = .ok (.ecall always)
    ∧ decode 0x00000003 = .ok (.tret always)
    ∧ decode 0x0F4024A0 = .ok (.tlbi always 0 9 10)
    ∧ decode 0x0F4528B1 = .ok (.slotsave always 5 10 11)
    ∧ decode 0x0F452802 = .ok (.slotload always 5 10)
    ∧ decode 0x0F4528B3 = .ok (.slotctl always 5 10 11)
    ∧ decode 0x0F4528B4 = .ok (.rgnset always 5 10 11) := by
  refine ⟨?_, ?_, ?_, ?_, ?_, ?_, ?_, ?_, ?_, ?_, ?_⟩ <;> rfl
/-- The words of R412. -/
theorem test_word_trace :
    decode 0x0F8024A0 = .ok (.trace always 9 10)
    ∧ decode 0x0F852801 = .ok (.mark always 5 10)
    ∧ decode 0x0F850002 = .ok (.snap always 5) := by
  refine ⟨?_, ?_, ?_⟩ <;> rfl
/-- R45: what the checks refuse, each with its own code. -/
theorem test_word_refused :
    decode 0xFFFFFFFF = .error 7
    ∧ decode 0x03C00000 = .error 1
    ∧ decode 0x0000000F = .error 2
    ∧ decode 0x80000000 = .error 3
    ∧ decode 0x00050000 = .error 4
    ∧ decode 0x09C51800 = .error 6
    ∧ decode 0x0EC503FF = .error 5 := by
  refine ⟨?_, ?_, ?_, ?_, ?_, ?_, ?_⟩ <;> rfl
/-- The words of the example of R274, and opcodes of R245: ENTRY, FMUL, FADD with IMMB, RETURN, IADD, STEER, LDN. -/
theorem test_word_nodes :
    decodeNode 0x3E824140 = some (.nEntry 0x104 0x105)
    ∧ decodeNode 0x11840000 = some (.nFmul 0x108 0 0)
    ∧ decodeNode 0x10860008 = some (.nFadd 0x10C 0 8)
    ∧ decodeNode 0x3F000000 = some (.nReturn 0 0)
    ∧ decodeNode 0x00000000 = none
    ∧ decodeNode 0x0D000000 = none := by
  refine ⟨?_, ?_, ?_, ?_, ?_, ?_⟩ <;> rfl

/-! ## Integer instructions -/

theorem witness_IntegerArithmetic : (regs [(1, -1), (2, 2)]).guardOk always = true := by decide
/-- R94, R96: by hand: −1 + 2, −1 × 2, the high half of (2^64 − 1) × 2, a rotation by 1. -/
theorem test_alu : Leaves (.add always 3 1 2) [(1, -1), (2, 2)] 3 1 ∧ Leaves (.sub always 3 1 2) [(1, -1), (2, 2)] 3 (-3)
    ∧ Leaves (.mul always 3 1 2) [(1, -1), (2, 2)] 3 (-2) ∧ Leaves (.mulh always 3 1 2) [(1, -1), (2, 2)] 3 (-1)
    ∧ Leaves (.mulhu always 3 1 2) [(1, -1), (2, 2)] 3 1 ∧ Leaves (.rot always 3 1 2) [(1, 3), (2, 65)] 3 0x8000000000000001 := by decide
theorem test_logic_shift : Leaves (.and always 3 1 2) [(1, 12), (2, 10)] 3 8 ∧ Leaves (.or always 3 1 2) [(1, 12), (2, 10)] 3 14
    ∧ Leaves (.xor always 3 1 2) [(1, 12), (2, 10)] 3 6 ∧ Leaves (.shl always 3 1 2) [(1, 3), (2, 63)] 3 0x8000000000000000
    ∧ Leaves (.shr always 3 1 2) [(1, -1), (2, 60)] 3 15 ∧ Leaves (.sra always 3 1 2) [(1, -16), (2, 66)] 3 (-4) := by decide
/-- R96: bit 31 of the 32-bit result fills bits 63:32, and bits 63:32 of a source are ignored. -/
theorem test_alu_w : Leaves (.addw always 3 1 2) [(1, 0x7FFFFFFF), (2, 1)] 3 0xFFFFFFFF80000000
    ∧ Leaves (.subw always 3 1 2) [(1, 0x100000000), (2, 1)] 3 (-1) ∧ Leaves (.mulw always 3 1 2) [(1, 0x10000), (2, 0x8000)] 3 0xFFFFFFFF80000000
    ∧ Leaves (.shlw always 3 1 2) [(1, 1), (2, 33)] 3 2 ∧ Leaves (.shrw always 3 1 2) [(1, -1), (2, 31)] 3 1
    ∧ Leaves (.sraw always 3 1 2) [(1, 0x80000000), (2, 31)] 3 (-1) := by decide
/-- x0 as a destination takes nothing, and a source may be the destination (R46). -/
theorem test_alu_x0 : Leaves (.add always 0 1 1) [(1, 7)] 0 0 ∧ Leaves (.add always 1 1 1) [(1, 7)] 1 14 := by decide

/-- R95: the divisor zero. -/
theorem witness_DivisionCorners_zero : (regs [(1, 7), (2, 0)]).guardOk always = true ∧ ((regs [(1, 7), (2, 0)]).getX 2).toNat = 0
    ∧ Leaves (.div always 3 1 2) [(1, 7), (2, 0)] 3 (-1) ∧ Leaves (.divu always 3 1 2) [(1, 7), (2, 0)] 3 (-1)
    ∧ Leaves (.rem always 3 1 2) [(1, 7), (2, 0)] 3 7 ∧ Leaves (.remu always 3 1 2) [(1, 7), (2, 0)] 3 7 := by decide
/-- R95: the overflow of −2^63 by −1. -/
theorem witness_DivisionCorners_overflow : ((regs [(1, 0x8000000000000000), (2, -1)]).getX 1).toInt = -2 ^ 63
    ∧ Leaves (.div always 3 1 2) [(1, 0x8000000000000000), (2, -1)] 3 0x8000000000000000
    ∧ Leaves (.rem always 3 1 2) [(1, 0x8000000000000000), (2, -1)] 3 0
    ∧ Leaves (.divu always 3 1 2) [(1, 0x8000000000000000), (2, -1)] 3 0
    ∧ Leaves (.remu always 3 1 2) [(1, 0x8000000000000000), (2, -1)] 3 0x8000000000000000 := by decide
/-- R95: truncation towards zero; the remainder has the dividend's sign. -/
theorem witness_DivisionCorners_truncation : Leaves (.div always 3 1 2) [(1, -7), (2, 2)] 3 (-3)
    ∧ Leaves (.rem always 3 1 2) [(1, -7), (2, 2)] 3 (-1) ∧ Leaves (.rem always 3 1 2) [(1, 7), (2, -2)] 3 1 := by decide
/-- R95: amount 64 counts as 0. -/
theorem witness_DivisionCorners_amount : ((regs [(1, 9), (2, 64)]).getX 2).toNat % 64 = 0 ∧ Leaves (.shl always 3 1 2) [(1, 9), (2, 64)] 3 9
    ∧ Leaves (.rot always 3 1 2) [(1, 9), (2, 64)] 3 9 := by decide

theorem witness_BitAndImmediateResults : (regs [(1, -5), (2, 3)]).guardOk always = true := by decide
/-- R97. -/
theorem test_bit_choice : Leaves (.min always 3 1 2) [(1, -5), (2, 3)] 3 (-5) ∧ Leaves (.max always 3 1 2) [(1, -5), (2, 3)] 3 3
    ∧ Leaves (.minu always 3 1 2) [(1, -5), (2, 3)] 3 3 ∧ Leaves (.maxu always 3 1 2) [(1, -5), (2, 3)] 3 (-5)
    ∧ Leaves (.abs always 3 1) [(1, -5)] 3 5 ∧ Leaves (.abs always 3 1) [(1, 0x8000000000000000)] 3 0x8000000000000000 := by decide
theorem test_bit_counts : Leaves (.clz always 3 1) [(1, 1)] 3 63 ∧ Leaves (.clz always 3 1) [(1, 0)] 3 64
    ∧ Leaves (.ctz always 3 1) [(1, 8)] 3 3 ∧ Leaves (.ctz always 3 1) [(1, 0)] 3 64 ∧ Leaves (.popc always 3 1) [(1, -1)] 3 64
    ∧ Leaves (.brev always 3 1) [(1, 1)] 3 0x8000000000000000 ∧ Leaves (.bswap always 3 1) [(1, 0x0102030405060708)] 3 0x0807060504030201 := by
  decide +kernel
theorem test_bit_extensions : Leaves (.sextb always 3 1) [(1, 0x180)] 3 0xFFFFFFFFFFFFFF80 ∧ Leaves (.sexth always 3 1) [(1, 0x18000)] 3 0xFFFFFFFFFFFF8000
    ∧ Leaves (.sextw always 3 1) [(1, 0x180000000)] 3 0xFFFFFFFF80000000 ∧ Leaves (.zextb always 3 1) [(1, -1)] 3 0xFF
    ∧ Leaves (.zexth always 3 1) [(1, -1)] 3 0xFFFF ∧ Leaves (.zextw always 3 1) [(1, -1)] 3 0xFFFFFFFF := by decide
/-- R98 to R101. -/
theorem test_immediates : Leaves (.addi always 3 1 (-1)) [(1, 0)] 3 (-1) ∧ Leaves (.andi always 3 1 0x200) [(1, -1)] 3 0xFFFFFFFFFFFFFE00
    ∧ Leaves (.ori always 3 1 1) [(1, 6)] 3 7 ∧ Leaves (.xori always 3 1 (-1)) [(1, 0)] 3 (-1)
    ∧ Leaves (.shli always 3 1 63) [(1, 1)] 3 0x8000000000000000 ∧ Leaves (.shri always 3 1 63) [(1, -1)] 3 1
    ∧ Leaves (.srai always 3 1 63) [(1, -2)] 3 (-1) ∧ Leaves (.roti always 3 1 4) [(1, 0x1F)] 3 0xF000000000000001 := by decide
theorem test_constants : Leaves (.lui always 3 0x8000) [] 3 0xFFFFFFFF80000000 ∧ Leaves (.lix always 3 0x1234) [(3, 0xFFFF000000000001)] 3 0x11234
    ∧ Leaves (.shadd1 always 3 1 2) [(1, 1), (2, 5)] 3 11 ∧ Leaves (.shadd2 always 3 1 2) [(1, 1), (2, 5)] 3 21
    ∧ Leaves (.shadd3 always 3 1 2) [(1, 1), (2, 5)] 3 41 ∧ Leaves (.shadd4 always 3 1 2) [(1, 1), (2, 5)] 3 81 := by decide

theorem witness_ComparesAndPredicates : (regs [(1, -1), (2, 1)]).guardOk always = true := by decide
/-- R102, R103: −1 is less than 1 as a signed number and not as an unsigned one. -/
theorem test_compares : LeavesP (.ceq always 2 1 1) [(1, -1)] 2 true ∧ LeavesP (.cne always 2 1 2) [(1, -1), (2, 1)] 2 true
    ∧ LeavesP (.clt always 2 1 2) [(1, -1), (2, 1)] 2 true ∧ LeavesP (.cltu always 2 1 2) [(1, -1), (2, 1)] 2 false
    ∧ LeavesP (.cle always 2 1 1) [(1, -1)] 2 true ∧ LeavesP (.cleu always 2 1 2) [(1, -1), (2, 1)] 2 false
    ∧ LeavesP (.ctst always 2 1 2) [(1, 12), (2, 3)] 2 false := by decide
theorem test_compares_i : LeavesP (.ceqi always 2 1 (-1)) [(1, -1)] 2 true ∧ LeavesP (.cnei always 2 1 0) [(1, -1)] 2 true
    ∧ LeavesP (.clti always 2 1 0) [(1, -1)] 2 true ∧ LeavesP (.cltui always 2 1 (-1)) [(1, 5)] 2 true
    ∧ LeavesP (.clei always 2 1 (-1)) [(1, -1)] 2 true ∧ LeavesP (.cleui always 2 1 (-2)) [(1, -1)] 2 false
    ∧ LeavesP (.ctsti always 2 1 4) [(1, 12)] 2 true ∧ LeavesP (.ceq always 0 1 2) [(1, 1)] 0 true := by decide
/-- R105: PSET 0xFF sets p1 to p7, and PGET reads p0 as bit 0. -/
theorem test_predicates : LeavesP (.pand always 3 0 1) [] 3 false ∧ LeavesP (.por always 3 0 1) [] 3 true
    ∧ LeavesP (.pxor always 3 0 0) [] 3 false ∧ LeavesP (.pandn always 3 0 1) [] 3 true ∧ LeavesP (.pnot always 3 1) [] 3 true
    ∧ LeavesP (.pmov always 3 0) [] 3 true ∧ LeavesP (.pset always 1) [(1, 0xF8)] 3 true ∧ LeavesP (.pset always 1) [(1, 0xF8)] 2 false
    ∧ (after (.pget always 4) (after (.pset always 1) (regs [(1, 0xF8)]))).getX 4 = 0xF9 := by decide

/-! ## Floating point -/

/-- The flags after an instruction on some registers. -/
abbrev Raises (i : Instr) (l : List (Reg × Word)) (f : Flags) : Prop := (after i (regs l)).thr.fl = f

theorem witness_FloatArithmetic : (regs [(1, 0x3F800001), (2, 0x3F800001)]).guardOk always = true := by decide
/-- The example of R123: a = 1 + 2^−23 and c = −(1 + 2^−22). -/
theorem test_fma_example : Leaves (.fmulS always 12 10 10) [(10, 0x3F800001)] 12 0x3F800002
    ∧ Raises (.fmulS always 12 10 10) [(10, 0x3F800001)] flagNX
    ∧ Leaves (.faddS always 12 12 11) [(12, 0x3F800002), (11, 0xBF800002)] 12 0
    ∧ Leaves (.fmacS always 11 10 10) [(10, 0x3F800001), (11, 0xBF800002)] 11 0x28800000
    ∧ Raises (.fmacS always 11 10 10) [(10, 0x3F800001), (11, 0xBF800002)] 0 := by decide
/-- R112: 1.5 and 2.0 in FP64 and FP32; 1 ÷ 3 is inexact. -/
theorem test_float_d : Leaves (.faddD always 3 1 2) [(1, 0x3FF8000000000000), (2, 0x4000000000000000)] 3 0x400C000000000000
    ∧ Leaves (.fsubD always 3 1 2) [(1, 0x3FF8000000000000), (2, 0x4000000000000000)] 3 0xBFE0000000000000
    ∧ Leaves (.fmulD always 3 1 2) [(1, 0x3FF8000000000000), (2, 0x4000000000000000)] 3 0x4008000000000000
    ∧ Leaves (.fdivD always 3 1 2) [(1, 0x3FF8000000000000), (2, 0x4000000000000000)] 3 0x3FE8000000000000
    ∧ Leaves (.fsqrtD always 3 1) [(1, 0x4002000000000000)] 3 0x3FF8000000000000
    ∧ Leaves (.fdivS always 3 1 2) [(1, 0x3F800000), (2, 0x40400000)] 3 0x3EAAAAAB
    ∧ Raises (.fdivS always 3 1 2) [(1, 0x3F800000), (2, 0x40400000)] flagNX := by decide
theorem test_float_fused_d : Leaves (.fmscD always 3 1 2) [(1, 0x4000000000000000), (2, 0x4008000000000000), (3, 0x3FF0000000000000)] 3 0x4014000000000000
    ∧ Leaves (.fnmacD always 3 1 2) [(1, 0x4000000000000000), (2, 0x4008000000000000), (3, 0x3FF0000000000000)] 3 0xC014000000000000
    ∧ LeavesP (.fceqD always 2 1 1) [(1, 0x3FF0000000000000)] 2 true ∧ LeavesP (.fcltD always 2 1 1) [(1, 0x3FF0000000000000)] 2 false
    ∧ LeavesP (.fcleS always 2 1 2) [(1, 0xBF800000), (2, 0)] 2 true ∧ LeavesP (.fcunD always 2 1 1) [(1, 0x7FF8000000000000)] 2 true := by decide
theorem test_float_fused : Leaves (.fmscS always 3 1 2) [(1, 0x40000000), (2, 0x40400000), (3, 0x3F800000)] 3 0x40A00000
    ∧ Leaves (.fnmacS always 3 1 2) [(1, 0x40000000), (2, 0x40400000), (3, 0x3F800000)] 3 0xC0A00000
    ∧ Leaves (.fmacD always 3 1 2) [(1, 0x4000000000000000), (2, 0x4008000000000000), (3, 0x3FF0000000000000)] 3 0x401C000000000000
    ∧ Leaves (.fsqrtS always 3 1) [(1, 0x40100000)] 3 0x3FC00000 ∧ Leaves (.fsubS always 3 1 2) [(1, 0x3F800000), (2, 0x3F800000)] 3 0 := by
  decide

/-- R113, each row at an operand that meets it: a signalling NaN, infinities, zeros. -/
theorem witness_FloatSpecialOperands_nan : (fp32.decode 0x7F800001).isNaN = true ∧ (fp32.decode 0x7F800001).isSig = true
    ∧ Leaves (.faddS always 3 1 2) [(1, 0x7F800001), (2, 0x3F800000)] 3 0x7FC00000
    ∧ Raises (.faddS always 3 1 2) [(1, 0x7F800001), (2, 0x3F800000)] flagNV
    ∧ Raises (.faddS always 3 1 2) [(1, 0x7FC00000), (2, 0x3F800000)] 0 ∧ Leaves (.fsqrtS always 3 1) [(1, 0x7F800001)] 3 0x7FC00000 := by decide
theorem witness_FloatSpecialOperands_inf : fp32.decode 0x7F800000 = .inf false ∧ fp32.decode 0xFF800000 = .inf true
    ∧ Leaves (.faddS always 3 1 2) [(1, 0x7F800000), (2, 0xFF800000)] 3 0x7FC00000
    ∧ Leaves (.fsubS always 3 1 2) [(1, 0x7F800000), (2, 0x7F800000)] 3 0x7FC00000
    ∧ Leaves (.fdivS always 3 1 2) [(1, 0x7F800000), (2, 0xFF800000)] 3 0x7FC00000
    ∧ Leaves (.fmulS always 3 1 2) [(1, 0x7F800000), (2, 0x80000000)] 3 0x7FC00000
    ∧ Leaves (.fmulS always 3 1 2) [(1, 0x7F800000), (2, 0xBF800000)] 3 0xFF800000
    ∧ Leaves (.fdivS always 3 1 2) [(1, 0x7F800000), (2, 0)] 3 0x7F800000
    ∧ Leaves (.fsqrtS always 3 1) [(1, 0xFF800000)] 3 0x7FC00000 := by decide
theorem witness_FloatSpecialOperands_second : Leaves (.fsubS always 3 1 2) [(1, 0x3F800000), (2, 0x7F800000)] 3 0xFF800000
    ∧ Leaves (.fdivS always 3 1 2) [(1, 0xBF800000), (2, 0x7F800000)] 3 0x80000000
    ∧ Leaves (.fmulS always 3 1 2) [(1, 0), (2, 0x7F800000)] 3 0x7FC00000 := by decide
theorem witness_FloatSpecialOperands_zero : (fp32.decode 0x80000000).isZero = true ∧ (fp32.decode 0x80000000).sign = true
    ∧ Leaves (.fdivS always 3 1 2) [(1, 0), (2, 0)] 3 0x7FC00000
    ∧ Leaves (.fdivS always 3 1 2) [(1, 0x3F800000), (2, 0x80000000)] 3 0xFF800000
    ∧ Raises (.fdivS always 3 1 2) [(1, 0x3F800000), (2, 0x80000000)] flagDZ
    ∧ Leaves (.fdivD always 3 1 2) [(1, 0x8000000000000000), (2, 0x3FF0000000000000)] 3 0x8000000000000000
    ∧ Leaves (.fsqrtD always 3 1) [(1, 0x8000000000000000)] 3 0x8000000000000000
    ∧ Leaves (.fsqrtD always 3 1) [(1, 0xBFF0000000000000)] 3 0x7FF8000000000000 := by decide

/-- An enabled flag traps FPE; the flag is recorded and the destination keeps its value (R84, R110). -/
theorem test_fpe_trap : let s := (regs [(1, 0x7F800001), (3, 9)]).setThr { (regs [(1, 0x7F800001), (3, 9)]).thr with en := flagNV }
    let t := after (.faddS always 3 1 1) s
    t.thr.tcause.toNat = Cause.fpe.code ∧ t.thr.fl = flagNV ∧ t.getX 3 = 9 ∧ t.thr.nest = true := by decide

/-- R114 to R116, R120 at the operands of their clauses: two NaNs, one, equal zeros, and ordered values. -/
theorem witness_FloatSelectionsAndCompares : Leaves (.fminS always 3 1 2) [(1, 0x7FC00000), (2, 0x7FC00001)] 3 0x7FC00000
    ∧ Leaves (.fminS always 3 1 2) [(1, 0x7FC00000), (2, 0x3F800000)] 3 0x3F800000
    ∧ Leaves (.fmaxS always 3 1 2) [(1, 0x3F800000), (2, 0x7FC00000)] 3 0x3F800000
    ∧ Leaves (.fminS always 3 1 2) [(1, 0), (2, 0x80000000)] 3 0x80000000 ∧ Leaves (.fmaxS always 3 1 2) [(1, 0), (2, 0x80000000)] 3 0
    ∧ Leaves (.fmaxD always 3 1 2) [(1, 0x3FF0000000000000), (2, 0xC000000000000000)] 3 0x3FF0000000000000
    ∧ Leaves (.fminD always 3 1 2) [(1, 0x3FF0000000000000), (2, 0xC000000000000000)] 3 0xC000000000000000 := by decide
theorem test_float_signs : Leaves (.fabsS always 3 1) [(1, 0xBF800000)] 3 0x3F800000 ∧ Leaves (.fnegD always 3 1) [(1, 0)] 3 0x8000000000000000
    ∧ Leaves (.fcpysS always 3 1 2) [(1, 0x3F800000), (2, 0x80000000)] 3 0xBF800000
    ∧ Leaves (.fabsD always 3 1) [(1, 0x8000000000000000)] 3 0 ∧ Leaves (.fnegS always 3 1) [(1, 0x3F800000)] 3 0xBF800000
    ∧ Leaves (.fcpysD always 3 1 2) [(1, 0x3FF0000000000000), (2, 0xBFF0000000000000)] 3 0xBFF0000000000000 := by decide
/-- R116: the codes of R116's example: the canonical NaN gives 0x08, the signalling NaN 0x0A. -/
theorem test_fclass : Leaves (.fclassS always 3 1) [(1, 0x7FC00000)] 3 0x08 ∧ Leaves (.fclassS always 3 1) [(1, 0x7F800001)] 3 0x0A
    ∧ Leaves (.fclassD always 3 1) [(1, 0xC000000000000000)] 3 0x15 := by decide
theorem witness_FloatSelectionsAndCompares_compares : LeavesP (.fceqS always 2 1 2) [(1, 0), (2, 0x80000000)] 2 true ∧ LeavesP (.fcltS always 2 1 2) [(1, 0xBF800000), (2, 0)] 2 true
    ∧ LeavesP (.fcleD always 2 1 1) [(1, 0x3FF0000000000000)] 2 true ∧ LeavesP (.fcunS always 2 1 2) [(1, 0x7FC00000)] 2 true
    ∧ Raises (.fcltS always 2 1 2) [(1, 0x7FC00000)] flagNV ∧ Raises (.fceqS always 2 1 2) [(1, 0x7FC00000)] 0 := by decide

/-- R118, row by row; the rest of R117 by exact values: 1 ÷ 2, 2 ^ 1, log2 4. -/
theorem witness_FloatApproximationsAndConversions_special : Leaves (.frcpS always 3 1) [(1, 0x80000000)] 3 0xFF800000 ∧ Raises (.frsqS always 3 1) [(1, 0)] flagDZ
    ∧ Leaves (.flog2S always 3 1) [(1, 0)] 3 0xFF800000 ∧ Leaves (.fexp2S always 3 1) [(1, 0)] 3 0x3F800000
    ∧ Leaves (.ftanhS always 3 1) [(1, 0xFF800000)] 3 0xBF800000 ∧ Leaves (.fexp2S always 3 1) [(1, 0xFF800000)] 3 0
    ∧ Leaves (.frsqS always 3 1) [(1, 0x7F800000)] 3 0 ∧ Leaves (.flog2S always 3 1) [(1, 0xBF800000)] 3 0x7FC00000
    ∧ Leaves (.frcpS always 3 1) [(1, 0x7FC00000)] 3 0x7FC00000 := by decide
theorem witness_FloatApproximationsAndConversions_range : fp32.decode 0x43000000 = .fin false (2 ^ 23) (-16)
    ∧ Leaves (.fexp2S always 3 1) [(1, 0x43000000)] 3 0x7F800000 ∧ Leaves (.fexp2S always 3 1) [(1, 0xC3160000)] 3 0
    ∧ Leaves (.ftanhS always 3 1) [(1, 0x41800000)] 3 0x3F800000 := by decide +kernel
theorem test_approximations_exact : Leaves (.frcpS always 3 1) [(1, 0x40000000)] 3 0x3F000000
    ∧ Leaves (.fexp2S always 3 1) [(1, 0x3F800000)] 3 0x40000000 := by decide +kernel
theorem test_logarithms_exact : Leaves (.flog2S always 3 1) [(1, 0x40800000)] 3 0x40000000
    ∧ Leaves (.frsqS always 3 1) [(1, 0x40800000)] 3 0x3F000000 := by decide +kernel
/-- R121, R122: 480.0 saturates in E4M3 (0x7E, 448) with OV and NX; 1.0 in every format; −1 as each integer. -/
theorem witness_FloatApproximationsAndConversions_narrow : Raises (.cvtE4S always 5 6) [(6, 0x43F00000)] (flagOV ||| flagNX) ∧ Leaves (.cvtE4S always 5 6) [(6, 0x43F00000)] 5 0x7E
    ∧ Leaves (.cvtSD always 3 1) [(1, 0x3FF0000000000000)] 3 0x3F800000 ∧ Leaves (.cvtDS always 3 1) [(1, 0x3F800000)] 3 0x3FF0000000000000
    ∧ Leaves (.cvtSH always 3 1) [(1, 0x3C00)] 3 0x3F800000 ∧ Leaves (.cvtHS always 3 1) [(1, 0x3F800000)] 3 0x3C00
    ∧ Leaves (.cvtSBf always 3 1) [(1, 0x3F80)] 3 0x3F800000 ∧ Leaves (.cvtBfS always 3 1) [(1, 0x3F800000)] 3 0x3F80
    ∧ Leaves (.cvtSE4 always 3 1) [(1, 0x38)] 3 0x3F800000 ∧ Leaves (.cvtSE5 always 3 1) [(1, 0x3C)] 3 0x3F800000
    ∧ Leaves (.cvtE5S always 3 1) [(1, 0x3F800000)] 3 0x3C := by decide
theorem test_float_integers : Leaves (.cvtWS always 3 1) [(1, 0xBF800000)] 3 (-1) ∧ Leaves (.cvtWuS always 3 1) [(1, 0xBF800000)] 3 0
    ∧ Leaves (.cvtLD always 3 1) [(1, 0xBFF0000000000000)] 3 (-1) ∧ Leaves (.cvtSW always 3 1) [(1, 0xFFFFFFFF)] 3 0xBF800000
    ∧ Leaves (.cvtSWu always 3 1) [(1, 0xFFFFFFFF)] 3 0x4F800000 ∧ Leaves (.cvtDL always 3 1) [(1, -1)] 3 0xBFF0000000000000 := by decide

/-- R77 at a tie (3 halves), above it and at an exact multiple; a code of each format. -/
theorem witness_RoundingAndCodes : (roundAt .rne false 3 (-1) 0).1 = 2 ∧ (roundAt .rna false 5 (-1) 0).1 = 3 ∧ (roundAt .rne false 5 (-1) 0).1 = 2
    ∧ (roundAt .rup true 3 (-1) 0).1 = 1 ∧ (roundAt .rdn true 3 (-1) 0).1 = 2 ∧ (roundAt .rtz false 3 (-1) 0).1 = 1
    ∧ (fp16.decode 0x3C00).isNaN = false ∧ (0x3C00 : Nat) < 2 ^ fp16.width ∧ (e4m3.decode 0x7E).isInf = false := by decide

/-! ## Guards, traps and control transfer -/

/-- Thread 0 running with some of its registers changed. -/
def one (f : Slot → Slot) : State := State.reset.setThr (f { Slot.reset with st := .run })

/-- R38, with R45's privilege: a false guard, of an instruction that needs privilege and of one that does not. -/
theorem witness_FalseGuard : (one (fun v => { v with prv := .kernel })).guardOk never = false ∧ privileged (.tret never) = true
    ∧ after (.tret never) (one (fun v => { v with prv := .kernel })) = one (fun v => { v with prv := .kernel, pc := 4 })
    ∧ after (.div never 3 1 2) (one id) = one (fun v => { v with pc := 4 }) := by decide

/-- R45, R358: TLBI at user privilege traps PRIV, whatever its guard. -/
theorem witness_DecodingTraps_privileged : decode 0x0F4024A0 = .ok (.tlbi always 0 9 10) ∧ privileged (.tlbi always 0 9 10) = true
    ∧ (one id).thr.prv = .user ∧ (one id).thr.nest = false
    ∧ (after (.tlbi never 0 9 10) (one id)).thr.tcause.toNat = Cause.priv.code := by
  refine ⟨rfl, ?_⟩; decide
/-- R45: one word for each code, run as a thread's word. -/
theorem witness_DecodingTraps_words : decode 0xFFFFFFFF = .error 7 ∧ majorReserved 15 = true ∧ decode 0x03C00000 = .error 1
    ∧ decode 0x80000000 = .error 3 ∧ majorReserved 0 = false ∧ decode 0x0000000F = .error 2 := by
  refine ⟨rfl, rfl, rfl, rfl, rfl, rfl⟩

/-- R140, R141, R125, R126 at turn 2 of slot 3: the counts and identities. -/
theorem witness_CountersAndControlTransfer : let s : State := { State.reset with tid := 0x139, now := 40 }
    s.guardOk always = true ∧ s.tid < 65536 ∧ (after (.rdtime always 5) s).getX 5 = 32
    ∧ (after (.tid always 5) s).getX 5 = 0x139 ∧ (after (.nop always) s).thr.pc = 4 := by decide
/-- R142: BR and CALL by −2 words; JALR to an aligned and to a misaligned target. -/
theorem witness_CountersAndControlTransfer_jump : (after (.br always (-2)) (one (fun v => { v with pc := 16 }))).thr.pc = 8
    ∧ (after (.call always 3) (one (fun v => { v with pc := 16 }))).getX 63 = 20
    ∧ (after (.jalr always 5 1 (-1)) (regs [(1, 0x104)])).thr.pc = 0x100 ∧ (after (.jalr always 5 1 (-1)) (regs [(1, 0x104)])).getX 5 = 4
    ∧ (after (.jalr always 5 1 0) (regs [(1, 0x102)])).thr.tcause.toNat = Cause.align.code
    ∧ (after (.jalr always 5 1 0) (regs [(1, 0x102)])).thr.tval = 0x102 := by decide

/-- R364, R365: EBRK at user privilege enters the handler at kernel privilege; TRET goes back. -/
theorem witness_TrapAndReturn : let s := one (fun v => { v with pc := 0x40, tvec := 0x800 })
    let t := after (.ebrk always) s
    s.guardOk always = true ∧ s.thr.nest = false ∧ t.thr.pc = 0x800 ∧ t.thr.tepc = 0x40 ∧ t.thr.prv = .kernel ∧ t.thr.pprv = .user
    ∧ t.thr.nest = true ∧ (after (.tret always) t).thr.pc = 0x40 ∧ (after (.tret always) t).thr.prv = .user
    ∧ (after (.tret always) t).thr.nest = false := by decide
/-- R362: a trap with NEST set holds the thread. -/
theorem witness_TrapAndReturn_double : let s := one (fun v => { v with nest := true, tepc := 0x40 })
    s.thr.nest = true ∧ s.thr.held = false ∧ (after (.ecall always) s).thr.held = true ∧ (after (.ecall always) s).thr.tepc = 0x40 := by decide
/-- R378: a thread in HOLD keeps its trap for its release. -/
theorem witness_TrapAndReturn_held : let s := one (fun v => { v with held := true, tvec := 0x800 })
    s.guardOk always = true ∧ s.thr.held = true ∧ (after (.ebrk always) s).thr.pc = 0
    ∧ (after (.ebrk always) s).thr.trapDue = some (.ebrk, 0, 0, 0) := by decide

/-! ## Threads and messages -/

/-- R145, R150: EXIT, and KILL of the thread itself, with a LAUNCH to count towards. -/
theorem witness_ThreadsBeginAndEnd_end : let s := one (fun v => { v with gen := 7, launch := some (3, 0) })
    let q : Queue := { Queue.reset with cmds := [⟨0, Vector.replicate 8 0, .launch 1 0 [], none, false, false⟩] }
    let u := s.setQueue 3 q
    u.guardOk always = true ∧ u.tid < 65536 ∧ (u.core (tidCoreKey u.tid)).waiting = [] ∧ (u.spire 0).groups = [] ∧ u.thr.queue = []
    ∧ ((u.wx 1 (u.thr.handle 0 |>.setWidth 64)).getX 1 = (u.thr.handle 0).setWidth 64) ∧ tidValid 0 = true
    ∧ (after (.exit always) u).thr.st = .ended ∧ (after (.exit always) u).thr.gen = 7
    ∧ ((after (.exit always) u).queue 3).cmds.map Cmd.work = [.launch 1 1 []] := by decide
theorem witness_ThreadsBeginAndEnd_drained : let s := one (fun v => { v with st := .drain })
    s.thr.st = .drain ∧ s.thr.park = none ∧ s.thr.queue = [] ∧ (after (.evDrainComplete 0) s).thr.st = .free := by decide
/-- R147: the misaligned entry, the bad control words, no FREE slot, and the lowest FREE slot of the core. -/
theorem witness_ThreadsBeginAndEnd_spawn : let s := regs [(1, 0x1000), (2, 0x500000000), (3, 6)]
    s.guardOk always = true ∧ s.thr.queue = [] ∧ s.thr.st ≠ .free ∧ tidValid s.tid = true
    ∧ (after (.spawn always 4 3 2) s).thr.tcause.toNat = Cause.align.code
    ∧ Leaves (.spawn always 4 1 2) [(1, 0x1000), (2, 0x30)] 4 (-2) ∧ Leaves (.spawn always 4 1 2) [(1, 0x1000), (2, 0x40)] 4 (-2)
    ∧ (s.slot 1).st = .free
    ∧ ((after (.spawn always 4 1 2) s).slot 1).pc = 0x1000 ∧ ((after (.spawn always 4 1 2) s).slot 1).work = 5
    ∧ (after (.spawn always 4 1 2) s).getX 4 = 0x10001 ∧ ((after (.spawn always 4 1 2) s).slot 1).getX 1 = 0x1000
    ∧ ((after (.spawn always 4 1 2) s).slot 1).wake = 16 := by decide
/-- R138: all sixteen slots of core 0 taken. -/
def fullCore : State := (List.range 16).foldl (fun s u => s.setSlot u { Slot.reset with st := .run }) State.reset
theorem witness_ThreadsBeginAndEnd_noSlot : (List.range 16).find? (fun u => decide ((fullCore.slot u).st = .free)) = none
    ∧ (after (.spawn always 4 1 2) fullCore).getX 4 = -1 := by decide

/-- R148: an empty inbox parks with its limit, a full one is taken at once; the limit ends the park. -/
theorem witness_SleepAndEvents_sleep : let s := regs [(1, 5)]
    s.guardOk always = true ∧ s.thr.inbox = none ∧ (after (.sleep always 9 1 2) s).thr.st = .park
    ∧ (let u := one (fun v => { v with inbox := some 77 })
      u.thr.st = .run ∧ u.thr.park = none ∧ (u.core (tidCoreKey u.tid)).waiting = []
        ∧ (after (.sleep always 9 0 2) u).getX 9 = 77 ∧ (after (.sleep always 9 0 2) u).getP 2 = true
        ∧ (after (.sleep always 9 0 2) u).thr.inbox = none) := by decide
theorem witness_SleepAndEvents_timeout : let s := { one (fun v => { v with st := .park, park := some ⟨.sleep, .sleep 9 2 (some 5), 0, false, 0⟩ }) with now := 80 }
    (s.slot 0).inbox = none ∧ 5 ≤ s.turnOf (tidSpire 0) ∧ (after (.evSleepTimeout 0) s).thr.pc = 4
    ∧ (after (.evSleepTimeout 0) s).thr.st = .run := by decide
theorem witness_SleepAndEvents_event : let s := one (fun v => { v with events := [⟨.cpyFrozen, 0, 5⟩], tvec := 0x800 })
    (s.slot 0).st = .run ∧ (s.slot 0).held = false ∧ (s.slot 0).trapDue = none ∧ (s.slot 0).poison = none ∧ (s.slot 0).nest = false
    ∧ (after (.evEventTaken 0) s).thr.pc = 0x800 ∧ (after (.evEventTaken 0) s).thr.tval = 5 := by decide
theorem witness_SleepAndEvents_resume : let s := one (fun v => { v with st := .park, park := some ⟨.mem, .finish .now 5 9, 0, false, 0⟩ })
    let u := one (fun v => { v with st := .park, park := some ⟨.mem, .wait .drained, 0, false, 0⟩, queue := [.store 0 []] })
    (after (.evThreadResume 0) s).getX 5 = 9 ∧ (after (.evThreadResume 0) s).thr.pc = 4
    ∧ (u.slot 0).queue ≠ [] ∧ after (.evThreadResume 0) u = u := by decide
/-- R153: a SEND of one word to slot 3 of its spire, parked for a full queue that has room by now. -/
theorem witness_SleepAndEvents_send : let s := (regs [(1, 3), (2, 1)]).setThr { (regs [(1, 3), (2, 1)]).thr with
      st := .park, park := some ⟨.send, .wait .outRoom, 0, false, 0⟩, ins := some (.send always 1 2) }
    (s.slot 0).getP 0 = true ∧ (s.slot 0).queue = [] ∧ s.outbound (tidCoreKey 0) < 8 ∧ ((s.slot 0).getX 1).toNat < 2 ^ 24
    ∧ tidValid 3 = true ∧ tidSpire 3 = tidSpire 0 ∧ ((s.slot 0).getX 2).toNat = 1
    ∧ (after (.evThreadResume 0) s).net = [⟨0, 0, 3, [3], false⟩] ∧ (after (.evThreadResume 0) s).thr.pc = 4
    ∧ (after (.evThreadResume 0) s).thr.st = .run := by decide
/-- R135 at the limit itself. -/
theorem witness_SleepAndEvents_watchdog : let s := { one (fun v => { v with st := .park, wLimit := 3, park := some ⟨.mem, .wait .drained, 2, false, 0⟩ }) with now := 80 }
    2 + (s.slot 0).wLimit.toNat ≤ s.turnOf (tidSpire 0) ∧ (s.slot 0).wLimit.toNat ≠ 0 ∧ Reason.mem ≠ Reason.sleep
    ∧ (after (.evLongPark 0) s).thr.wFired = true ∧ (after (.evLongPark 0) s).thr.st = .park := by decide

/-- R153: a message with 9 words is bad; one to a thread and one to a port are good; a full outbound queue. -/
theorem witness_MessagesSentAndReceived_send : let s := regs [(1, 3), (2, 1), (4, 9), (5, 0x4000000000000002)]
    s.guardOk always = true ∧ s.thr.queue = [] ∧ (after (.sendw always 3 1 4) s).getX 3 = 3 ∧ (after (.send always 1 4) s).thr.sBad = true
    ∧ tidValid 3 = true ∧ s.outbound 0 < 8 ∧ (after (.send always 1 2) s).net.length = 1 ∧ (after (.send always 5 2) s).net.length = 1
    ∧ (after (.sendw always 3 1 2) s).thr.st = .park := by decide
theorem witness_MessagesSentAndReceived_full : let s := { regs [(1, 3), (2, 1)] with net := List.replicate 8 ⟨0, 0, 3, [0], false⟩ }
    8 ≤ s.outbound (tidCoreKey s.tid) ∧ (after (.send always 1 2) s).thr.st = .park ∧ (after (.send always 1 2) s).net.length = 8 := by decide
/-- R154: a thread whose inbox is empty, a stale handle, an unbound port. -/
theorem witness_MessagesSentAndReceived_inbox : let s := { one id with net := [⟨0x010022, 0, 0, [77], true⟩] }
    (s.core (tidCoreKey 0)).waiting = [] ∧ s.isAbsent 0 = false ∧ (s.slot 0).st = .run ∧ (s.die 0).holding = [] ∧ (s.slot 0).gen = handleGen 0
    ∧ (s.slot 0).inbox = none ∧ ((after (.evMessageArrival 0) s).slot 0).inbox = some 77
    ∧ (after (.evMessageArrival 0) s).answers = [⟨0x22, 1, 0⟩] := by decide
theorem witness_MessagesSentAndReceived_stale : let s := { one id with net := [⟨0x010022, 0, 0x050000, [77], true⟩] }
    (s.slot 0).gen ≠ handleGen 0x050000 ∧ s.isAbsent 0x050000 = false ∧ (after (.evMessageArrival 0) s).answers = [⟨0x22, 1, 1⟩] := by decide
/-- R157, R158: a bound port starts its handler in the lowest FREE slot. -/
def boundPort : State :=
  (one id).setCore 0 { (one id).core 0 with ports := (Vector.replicate 4 none).set 2 (some ⟨0x900, 0, 0, Vector.replicate 5 0, 0x800, .kernel⟩) }
theorem witness_MessagesSentAndReceived_port : let m : Msg := ⟨0x010022, 0, 0x4000000000000002, [7, 8], true⟩
    let s := { one id with net := [m] }
    let u : State := { boundPort with net := [m] }
    m.dst.toNat / 2 ^ 62 = 1 ∧ m.dst.toNat % 2 ^ 62 < 65536 ∧ tidValid 2 = true ∧ (after (.evMessageArrival 0) s).answers = [⟨0x22, 1, 2⟩]
    ∧ (List.range 16).find? (fun v : Nat => decide ((u.slot v).st = .free)) = some 1 ∧ ((after (.evMessageArrival 0) u).slot 1).pc = 0x900
    ∧ ((after (.evMessageArrival 0) u).slot 1).getX 2 = 8 ∧ ((after (.evMessageArrival 0) u).slot 1).prv = .kernel := by decide

/-- R150: KILL of no handle, and of another thread's. -/
theorem witness_AnswersKillsAndPorts_kill : let s := regs [(1, 0x1000000), (2, 1)]
    s.guardOk always = true ∧ (after (.kill always 5 1) s).getX 5 = 3 ∧ tidValid 1 = true ∧ (s.getX 2).setWidth 24 ≠ s.thr.handle s.tid
    ∧ (after (.kill always 5 2) s).kills = [⟨0, 0, 0, .user, 1⟩] ∧ (after (.kill always 5 2) s).thr.st = .park := by decide
theorem witness_AnswersKillsAndPorts_answer : let s := { one (fun v => { v with gen := 2, st := .park, park := some ⟨.send, .answer 5, 0, false, 0⟩ }) with answers := [⟨0, 2, 4⟩] }
    (s.slot 0).gen = 2 ∧ (s.slot 0).st = .park ∧ (after (.evAnswerArrival 0) s).getX 5 = 4 ∧ (after (.evAnswerArrival 0) s).thr.pc = 4 := by decide
/-- R150: a kill from another address space at user privilege, one that finds no thread, and one that is allowed. -/
theorem witness_AnswersKillsAndPorts_arrival : let s := one id
    let k (asid : BitVec 12) (h : BitVec 24) : State := { s with kills := [⟨0x22, 1, asid, .user, h⟩] }
    (s.slot 0).asid = 0 ∧ s.isAbsent 1 = false ∧ (s.slot 1).st = .free
    ∧ (after (.evKillArrival 0x22) (k 1 0)).answers = [⟨0x22, 1, 2⟩] ∧ (after (.evKillArrival 0x22) (k 0 1)).answers = [⟨0x22, 1, 1⟩]
    ∧ (after (.evKillArrival 0x22) (k 0 0)).answers = [⟨0x22, 1, 0⟩] ∧ ((after (.evKillArrival 0x22) (k 0 0)).slot 0).st = .drain := by decide
/-- R150, R376: a kill of a thread that has been captured. -/
theorem witness_AnswersKillsAndPorts_absent : let s := (State.reset.setDie 0 { Die.reset with absent := [⟨1, none, [], none⟩] })
    let u : State := { s with kills := [⟨0x22, 1, 0, .user, 1⟩] }
    u.isAbsent 1 = true ∧ (u.slot 1).st = .free ∧ (after (.evKillArrival 0x22) u).answers = [⟨0x22, 1, 4⟩] := by decide
theorem witness_AnswersKillsAndPorts_held : let s := (one id).setDie 0 { Die.reset with holding := [.msg 0 77] }
    s.lives 0 = true ∧ s.isAbsent 0 = false ∧ (s.slot 0).inbox = none ∧ ((after (.evHeldRedelivery 0 0) s).slot 0).inbox = some 77 := by decide
/-- R157: each row of the tables of HBIND and HUNBIND. -/
theorem witness_AnswersKillsAndPorts_ports : let s := regs [(1, 0x900), (2, 2), (3, 4)]
    let foreign := boundPort.setThr { (regs [(1, 0x900), (2, 2)]).thr with asid := 9 }
    s.guardOk always = true ∧ (s.core 0).waiting = [] ∧ (after (.hbind always 5 1 3) s).getX 5 = 3 ∧ (after (.hbind always 5 1 2) foreign).getX 5 = 2
    ∧ ((after (.hbind always 5 1 2) s).core 0).ports[2] = some ⟨0x900, 0, 0, Vector.replicate 5 0, 0, .user⟩
    ∧ (after (.hunbind always 5 3) s).getX 5 = 3 ∧ (after (.hunbind always 5 2) s).getX 5 = 1
    ∧ (after (.hunbind always 5 2) foreign).getX 5 = 2
    ∧ ((after (.hunbind always 5 2) (boundPort.setThr s.thr)).core 0).ports[2] = none := by decide

/-! ## Memory access -/

/-- Thread 0 running at kernel privilege with some registers written and some bytes of memory from a key on. -/
def ker (l : List (Reg × Word)) (k : Nat) (bytes : List Byte) : State :=
  { State.reset.setThr (l.foldl (fun t e => t.setX e.1 e.2) { Slot.reset with st := .run, prv := .kernel }) with
    mem := memWrite k bytes [] }

/-- No copy has a window in a spire that is at its reset. -/
theorem noWindow (s : State) (h : s.spires = []) (g : Nat) : ∀ ch, ((s.spire g).channel ch).queue = [] := by
  intro ch
  simp [State.spire, h, Spire.channel, tget, Spire.reset, Channel.reset]

/-- No byte holds an uncorrectable error where none is listed. -/
theorem noError {s : State} (h : s.bad = []) (k n : Nat) : NoError s k n := by
  intro j hj; rw [h] at hj; cases hj

/-- Bytes of the own-keep window, in a state whose spires are at their reset. -/
theorem ownKeep_of {s : State} {va : Word} {n o : Nat} (h : s.spires = [])
    (hd : va.toNat = 0x7F1000000000 + o ∧ 0 < n ∧ o + n ≤ 0x300000 ∧ tidSpire s.tid < 160
      ∧ s.ctx.keepRight (tidSpire s.tid) .readWrite = true) (hb : s.bad = [] := by rfl) : OwnKeep s va n o :=
  ⟨hd.1, hd.2.1, hd.2.2.1, hd.2.2.2.1, hd.2.2.2.2, noWindow s h _, noError hb _ _⟩

/-- R167, R200: 16 bytes at offset 8 and the last near byte, 0x2_FFFF. -/
def near : State := ker [(1, 0x7F1000000008), (2, 0x7F100002FFFF), (3, 4)] (2 ^ 48 + 8) [0x80, 1, 2, 3]
theorem witness_LoadsAtOnce : near.guardOk always = true ∧ near.thr.queue = [] ∧ OwnKeep near 0x7F1000000008 16 8
    ∧ NearBanks near 16 8 ∧ OwnKeep near 0x7F100002FFFF 1 196607 ∧ NearBanks near 1 196607 :=
  ⟨by decide +kernel, by decide +kernel, ownKeep_of rfl (by decide +kernel), ⟨by decide +kernel, by decide +kernel⟩, ownKeep_of rfl (by decide +kernel), ⟨by decide +kernel, by decide +kernel⟩⟩
theorem test_loads : (after (.lb always 5 1 0) near).getX 5 = 0xFFFFFFFFFFFFFF80 ∧ (after (.lbu always 5 1 0) near).getX 5 = 0x80
    ∧ (after (.lh always 5 1 0) near).getX 5 = 0x180 ∧ (after (.lhu always 5 1 1) near).getX 5 = 0x302
    ∧ (after (.lw always 5 1 0) near).getX 5 = 0x3020180 ∧ (after (.lwu always 5 1 0) near).getX 5 = 0x3020180
    ∧ (after (.ld always 5 1 0) near).getX 5 = 0x3020180 ∧ (after (.lq always 6 1 0) near).getX 6 = 0x3020180
    ∧ (after (.lbu always 5 2 0) near).getX 5 = 0 ∧ (after (.lbu always 5 2 0) near).thr.st = .run := by decide +kernel
/-- R201: sixteen bytes, 4 apart, lie in sixteen banks; element 0 is 0x80 and every other 0. -/
theorem witness_LoadsAtOnce_fragment : (∀ i, i < 16 → OwnKeep near (near.getX 1 + BitVec.ofNat 64 i * near.getX 3) 1 (8 + 4 * i))
    ∧ (∀ i, i < 16 → NearBanks near 1 (8 + 4 * i)) ∧ ((List.range 16).map (fun i => keepBank (8 + 4 * i))).Nodup
    ∧ (after (.ldxtB always 6 1 3) near).getX 6 = 0x80 ∧ (after (.ldxtH always 6 1 3) near).getX 6 = 0x180 := by
  refine ⟨fun i hi => ownKeep_of rfl ?_, fun i hi => ⟨?_, ?_⟩, by decide +kernel, by decide +kernel, by decide +kernel⟩ <;> (revert i; decide +kernel)

/-- R167, R168, R173 at the first byte of core 1's banks: offset 0x3_0000. -/
def far : State := ker [(1, 0x7F1000030000), (2, 0x7F1000030001)] (2 ^ 48 + 0x30000) [0x80, 1, 2, 3, 4, 5, 6, 7]
theorem witness_LoadsOnTheWay : far.guardOk always = true ∧ OwnKeep far 0x7F1000030000 16 0x30000 ∧ 0x30000 % 16 = 0
    ∧ 0x30000 / 196608 ≠ far.tid / 16 % 16 ∧ (far.getX 2).toNat % 2 ≠ 0 ∧ far.thr.nest = false :=
  ⟨by decide +kernel, ownKeep_of rfl (by decide +kernel), by decide +kernel, by decide +kernel, by decide +kernel, by decide +kernel⟩
theorem test_far_loads : (after (.lw always 5 1 0) far).thr.st = .park ∧ (after (.lacq always 5 1 .die .h) far).thr.st = .park
    ∧ (after (.lacq always 5 2 .die .h) far).thr.tcause.toNat = Cause.align.code
    ∧ (after (.evLoadResponse 0 0) (after (.lb always 5 1 0) far)).getX 5 = 0xFFFFFFFFFFFFFF80
    ∧ (after (.evLoadResponse 0 0) (after (.lh always 5 1 0) far)).getX 5 = 0x180
    ∧ (after (.evLoadResponse 0 0) (after (.lacq always 5 1 .die .d) far)).getX 5 = 0x0706050403020180
    ∧ (after (.evLoadResponse 0 0) (after (.lq always 6 1 0) far)).getX 6 = 0x0706050403020180
    ∧ (after (.evLoadResponse 0 0) (after (.lw always 5 1 0) far)).thr.pc = 4 := by decide +kernel
/-- A parked load whose one piece reads a keep, of each extension, and an atomic's reply. -/
theorem witness_LoadsOnTheWay_response : let s := after (.lb always 5 1 0) far
    let u := one (fun v => { v with st := .park, park := some ⟨.mem, .reply 5 9, 0, false, 0⟩ })
    (s.slot 0).st ≠ .drain ∧ (s.slot 0).queue = [] ∧ s.bad = [] ∧ s.home (2 ^ 48 + 0x30000) = .keep 0 0x30000
    ∧ (s.slot 0).park.map Park.op = some (.load ⟨[⟨0, 2 ^ 48 + 0x30000, 1, 0x7F1000030000⟩], [], 1, .sext, 5, none⟩)
    ∧ (after (.evLoadResponse 0 0) u).getX 5 = 9 := by decide +kernel

/-- R203's own example: with a pitch of 1,536 from offset 0x1_0000 each bank holds two elements, and the value waits for turn 2. -/
theorem witness_LoadsOnTheWay_fragment : let piece (i : Nat) : Piece := ⟨i, 2 ^ 48 + 0x10000 + 1536 * i, 1, 0⟩
    let ps := (List.range 16).map piece
    let at_ (turn : Nat) : State := { one (fun v => { v with
      st := .park, park := some ⟨.mem, .load ⟨ps, [], 16, .pair, 6, none⟩, 0, false, 0⟩ }) with now := 16 * turn }
    (∀ q ∈ ps, 2 ^ 48 ≤ q.key ∧ q.key - 2 ^ 48 < 0x300000 ∧ (q.key - 2 ^ 48) / 196608 = 0 ∧ q.len = 1)
    ∧ (ps.filter (fun q => decide (keepBank (q.key - 2 ^ 48) = keepBank 0x10000))).length = 2 ∧ piece 0 ∈ ps
    ∧ (at_ 1).turnOf 0 = 1 ∧ (after (.evLoadResponse 0 0) (at_ 1)).slots = (at_ 1).slots
    ∧ (after (.evLoadResponse 0 0) (at_ 2)).slots ≠ (at_ 2).slots := by decide +kernel

/-- R164, R167: a store joins the queue and is performed at its home. -/
def storing : State := ker [(1, 0x7F1000000010), (5, 0x1122334455667788), (7, 0xFFFF)] 0 []
theorem witness_StoresQueuedAndPerformed : storing.guardOk always = true ∧ OwnKeep storing 0x7F1000000010 16 16
    ∧ storing.thr.queue.length < 8 ∧ OwnKeep storing (0x7F1000000010 - 0x10) 256 0 ∧ risingFrom 0 (storing.spire 0).cache = true :=
  ⟨by decide +kernel, ownKeep_of rfl (by decide +kernel), by decide +kernel, ownKeep_of rfl (by decide +kernel), by decide +kernel⟩
theorem test_stores : let done (i : Instr) : State := after (.evStorePerformed 0 0 0) (after i storing)
    (after (.sd always 5 1 0) storing).mem = [] ∧ bytesAt (done (.sd always 5 1 0)) (2 ^ 48 + 16) 8 = 0x1122334455667788
    ∧ bytesAt (done (.sw always 5 1 0)) (2 ^ 48 + 16) 8 = 0x55667788 ∧ bytesAt (done (.sh always 5 1 1)) (2 ^ 48 + 18) 4 = 0x7788
    ∧ bytesAt (done (.sb always 5 1 (-1))) (2 ^ 48 + 15) 2 = 0x88 ∧ bytesAt (done (.sq always 6 1 0)) (2 ^ 48 + 24) 8 = 0xFFFF
    ∧ bytesAt (done (.srel always 5 1 .core .w)) (2 ^ 48 + 16) 8 = 0x55667788 ∧ (done (.sd always 5 1 0)).thr.queue = [] := by decide +kernel
/-- The same with an access on its way to a peer (R181). -/
def unacked : State := { storing with peerOut := [⟨0, 2 ^ 47, [], none, none, true⟩] }
/-- Eight entries queued; an SREL behind a queue that is not empty, and one for SYSTEM behind a peer. -/
def stored8 : State := (List.range 8).foldl (fun s _ => after (.sd always 5 1 0) s) storing
theorem witness_StoresQueuedAndPerformed_full : stored8.thr.queue.length = 8 ∧ (after (.sd always 5 1 0) stored8).thr.st = .park
    ∧ stored8.thr.queue ≠ [] ∧ (after (.srel always 5 1 .die .d) stored8).thr.st = .park ∧ storing.peersAcked = true
    ∧ unacked.thr.queue = [] ∧ unacked.peersAcked = false ∧ (after (.srel always 5 1 .system .d) unacked).thr.park.map Park.op = some (.wait .acked)
    ∧ (after (.czero always 1) storing).thr.queue.length = 1 := by decide +kernel
/-- The first entry performed, and a store to a ONCE page that its thread parks on. -/
theorem witness_StoresQueuedAndPerformed_performed : stored8.home (2 ^ 48 + 16) = .keep 0 16
    ∧ (stored8.slot 0).queue[0]? = some (.store 0 [⟨2 ^ 48 + 16, leBytes 8 0x1122334455667788, false, 0x7F1000000010⟩])
    ∧ (let u := one (fun v => { v with st := .park, park := some ⟨.mem, .once [⟨2 ^ 48 + 16, leBytes 8 7, true, 16⟩], 0, false, 0⟩ })
      natIn ((2 ^ 48 + 16) / 8) u.full = false ∧ (leBytes 8 7).length = 8
      ∧ natIn ((2 ^ 48 + 16) / 8) (after (.evStorePerformed 0 8 0) u).full = true
      ∧ bytesAt (after (.evStorePerformed 0 8 0) u) (2 ^ 48 + 16) 8 = 7) := by decide +kernel

/-! ## Sync words, atomics and fences -/

theorem witness_SyncWordsIssuedAndRetried : storing.guardOk always = true ∧ (far.getX 2).toNat % 8 ≠ 0 ∧ OwnKeep storing 0x7F1000000010 8 16
    ∧ (after (.ldf always 5 1 .spire) storing).thr.st = .park ∧ (after (.ldf always 5 2 .spire) far).thr.tcause.toNat = Cause.align.code
    ∧ (after (.stf always 5 1 .spire) stored8).thr.st = .park ∧ storing.thr.queue = [] ∧ stored8.thr.queue ≠ []
    ∧ storing.peersAcked = true ∧ unacked.peersAcked = false ∧ (after (.stf always 5 1 .system) unacked).thr.park.map Park.op = some (.wait .acked) :=
  ⟨by decide +kernel, by decide +kernel, ownKeep_of rfl (by decide +kernel), by decide +kernel, by decide +kernel, by decide +kernel, by decide +kernel, by decide +kernel, by decide +kernel, by decide +kernel, by decide +kernel⟩
/-- A thread whose LDF waits in a list, with its word empty and full. -/
def waiting (full : List Nat) : State :=
  { one (fun v => { v with st := .park, park := some ⟨.sync, .sync ⟨.ldf, 2 ^ 48 + 16, 16, false, .spire, 5, 0, 0⟩ true true, 0, false, 0⟩ }) with
    waits := [(3, 0)], full := full, mem := memWrite (2 ^ 48 + 16) [7] [] }
theorem witness_SyncWordsIssuedAndRetried_retry : (waiting []).home (2 ^ 48 + 16) = .keep 0 16 ∧ (waiting []).bad = [] ∧ natIn ((2 ^ 48 + 16) / 8) (waiting []).full = false
    ∧ ((after (.evWaitlistRetry 3) (waiting [])).slot 0).st = .park ∧ natIn ((2 ^ 48 + 16) / 8) (waiting [(2 ^ 48 + 16) / 8]).full = true
    ∧ (after (.evWaitlistRetry 3) (waiting [(2 ^ 48 + 16) / 8])).getX 5 = 7 ∧ (after (.evWaitlistRetry 3) (waiting [(2 ^ 48 + 16) / 8])).waits = [] := by
  decide +kernel

/-- A thread whose sync-word operation reaches its word. -/
def syncing (op : SyncOp) (x : Word) (full : List Nat) (bytes : List Byte) : State :=
  { one (fun v => { v with st := .park, park := some ⟨.mem, .sync ⟨op, 2 ^ 48 + 16, 16, false, .spire, 5, 2, x⟩ false false, 0, false, 0⟩ }) with
    full := full, mem := memWrite (2 ^ 48 + 16) bytes [] }
/-- R174, R176: what each gives on a full word (7) and on an empty one. -/
theorem witness_SyncWordsAtHome_full : let f := [(2 ^ 48 + 16) / 8]
    let done (op : SyncOp) : State := after (.evSyncWordAtHome 0) (syncing op 9 f [7])
    ((syncing .ldf 9 f [7]).slot 0).st = .park ∧ ((syncing .ldf 9 f [7]).slot 0).nest = false ∧ (syncing .ldf 9 f [7]).waits = []
    ∧ (done .ldf).getX 5 = 7 ∧ (done .ldf).full = f ∧ (done .ldfe).getX 5 = 7 ∧ (done .ldfe).full = [] ∧ (done .stef).thr.st = .park
    ∧ bytesAt (done .stf) (2 ^ 48 + 16) 8 = 9 ∧ (done .sto).thr.tcause.toNat = Cause.secondWrite.code ∧ (done .sete).full = []
    ∧ (done .peekf).getP 2 = true := by decide +kernel
theorem witness_SyncWordsAtHome_empty : let done (op : SyncOp) : State := after (.evSyncWordAtHome 0) (syncing op 9 [] [7])
    (done .ldf).thr.st = .park ∧ (done .ldf).waits.length = 1 ∧ (done .ldfe).thr.st = .park ∧ (done .stef).full = [(2 ^ 48 + 16) / 8]
    ∧ bytesAt (done .sto) (2 ^ 48 + 16) 8 = 9 ∧ (done .peekf).getP 2 = false ∧ (done .sto).full = [(2 ^ 48 + 16) / 8] := by decide +kernel
/-- R132: a word that becomes full has its waiters retried before anything else. -/
theorem witness_SyncWordsAtHome_waiters : let s : State := { syncing .stf 9 [] [7] with waits := [(waitList (2 ^ 48 + 16), 5)] }
    (after (.evSyncWordAtHome 0) s).agenda = [.retryList (waitList (2 ^ 48 + 16))] ∧ s.bad = [] := by decide +kernel
/-- R175: two arrivals at a barrier that expects two; the bounds of 24 bits. -/
theorem witness_SyncWordsAtHome_barrier : let ev (s : State) : State := after (.evSyncWordAtHome 0) s
    bytesAt (ev (syncing .expect 2 [] [])) (2 ^ 48 + 16) 8 = 2
    ∧ bytesAt (ev (syncing .arrive 0 [] [2])) (2 ^ 48 + 16) 8 = 2 ^ 24 + 2
    ∧ bytesAt (ev (syncing .arrive 0 [] [2, 0, 0, 1])) (2 ^ 48 + 16) 8 = 2 ^ 48 ∧ (ev (syncing .arrive 0 [] [2, 0, 0, 1])).full ≠ []
    ∧ (ev (syncing .expect 0x1000000 [] [])).thr.tcause.toNat = Cause.expectOvf.code
    ∧ (ev (syncing .arrive 0 [] [0, 0, 0, 0xFF, 0xFF, 0xFF])).thr.tsub = 1 := by decide +kernel

/-- R177: an atomic that parks, performed at its home; one naming x0 is posted. -/
def amo : State := ker [(1, 0x7F1000000010), (2, 3), (4, 0x7F1000000012)] (2 ^ 48 + 16) [0xFE, 0xFF, 0xFF, 0xFF]
theorem witness_AtomicsIssued : amo.guardOk always = true ∧ (amo.getX 4).toNat % 4 ≠ 0 ∧ OwnKeep amo 0x7F1000000010 8 16
    ∧ amo.thr.queue.length < 8 ∧ (after (.aaddD always 5 1 2) amo).thr.st = .park ∧ (after (.aaddD always 0 1 2) amo).thr.queue.length = 1
    ∧ (after (.aaddW always 5 4 2) amo).thr.tcause.toNat = Cause.align.code :=
  ⟨by decide +kernel, by decide +kernel, ownKeep_of rfl (by decide +kernel), by decide +kernel, by decide +kernel, by decide +kernel, by decide +kernel⟩
theorem witness_AtomicsIssued_full : let s := (List.range 8).foldl (fun s _ => after (.aaddD always 0 1 2) s) amo
    s.thr.queue.length = 8 ∧ (after (.aaddD always 0 1 2) s).thr.st = .park := by decide +kernel
/-- R177 by hand on the word 0xFFFF_FFFE, which is −2 in 32 bits, with X[b] = 3 and X[d] = 0. -/
theorem witness_AtomicsComputedAndPerformed : let home (i : Instr) : State := after (.evAtomicAtHome 0 8) (after i amo)
    let back (i : Instr) : Word := (after (.evLoadResponse 0 0) (home i)).getX 5
    let word (i : Instr) : Nat := bytesAt (home i) (2 ^ 48 + 16) 4
    back (.aaddW always 5 1 2) = -2 ∧ word (.aaddW always 5 1 2) = 1 ∧ back (.aaddD always 5 1 2) = 0xFFFFFFFE
    ∧ word (.aminW always 5 1 2) = 0xFFFFFFFE ∧ word (.aminuW always 5 1 2) = 3 ∧ word (.amaxW always 5 1 2) = 3
    ∧ word (.aswpW always 5 1 2) = 3 ∧ word (.acasW always 5 1 2) = 0xFFFFFFFE ∧ word (.axorD always 5 1 2) = 0xFFFFFFFD := by decide +kernel
theorem test_atomics : let word (i : Instr) : Nat := bytesAt (after (.evAtomicAtHome 0 8) (after i amo)) (2 ^ 48 + 16) 8
    word (.aaddD always 5 1 2) = 0x100000001 ∧ word (.aandD always 5 1 2) = 2 ∧ word (.aorD always 5 1 2) = 0xFFFFFFFF
    ∧ word (.aminD always 5 1 2) = 3 ∧ word (.amaxD always 5 1 2) = 0xFFFFFFFE ∧ word (.aminuD always 5 1 2) = 3
    ∧ word (.amaxuD always 5 1 2) = 0xFFFFFFFE ∧ word (.aswpD always 5 1 2) = 3 ∧ word (.acasD always 5 1 2) = 0xFFFFFFFE
    ∧ word (.afaddD always 5 1 0) = 0xFFFFFFFE := by decide +kernel
theorem test_atomics_posted : let s := after (.evAtomicAtHome 0 0) (after (.aandW always 0 1 2) amo)
    (amo.home (2 ^ 48 + 16) = .keep 0 16) ∧ amo.bad = [] ∧ s.thr.queue = [] ∧ bytesAt s (2 ^ 48 + 16) 4 = 2
    ∧ bytesAt (after (.evAtomicAtHome 0 8) (after (.aorW always 5 1 2) amo)) (2 ^ 48 + 16) 4 = 0xFFFFFFFF
    ∧ bytesAt (after (.evAtomicAtHome 0 8) (after (.axorW always 5 1 2) amo)) (2 ^ 48 + 16) 4 = 0xFFFFFFFD
    ∧ bytesAt (after (.evAtomicAtHome 0 8) (after (.amaxuW always 5 1 2) amo)) (2 ^ 48 + 16) 4 = 0xFFFFFFFE
    ∧ bytesAt (after (.evAtomicAtHome 0 8) (after (.afaddW always 5 1 0) (ker [(1, 0x7F1000000010)] (2 ^ 48 + 16) [0, 0, 0x80, 0x3F]))) (2 ^ 48 + 16) 4
      = 0x3F800000 := by decide +kernel

/-- A copy of thread 0 that has landed nothing yet, in channel 2; a record of thread 0 in region 5 (R181). -/
def copyOut : CopyEntry :=
  ⟨CopyShape.reset, 0x7F1000000000, 0x7F1000001000, 0, .thread 0, 0, 0, Vector.replicate 5 0, .kernel, none, .landing, 0, 0, 0, [], 0, false⟩
def busy : State :=
  let sp := storing.spire 0
  storing.setSpire 0 (({ sp with regions := [(5, { Region.create 0 0 4 4 1 0 0 with flights := [⟨7, 0, 0, 1, 0, 0, Vector.replicate 5 0, .kernel⟩] })] }).setChannel 2
    { sp.channel 2 with queue := [copyOut] })
theorem witness_OrderingAndCaches_fences : storing.guardOk always = true ∧ risingFrom 0 (storing.spire 0).cache = true ∧ storing.thr.queue = []
    ∧ (after (.fenceAr always .die) storing).thr.pc = 4 ∧ (after (.fenceAcq always .die) storing).thr.pc = 4
    ∧ (after (.fenceCpy always .die) storing).thr.pc = 4 ∧ (after (.fenceSrv always .die) storing).thr.pc = 4
    ∧ stored8.thr.queue ≠ [] ∧ (after (.fenceRel always .core) stored8).thr.st = .park
    ∧ (after (.fenceAcq always .core) (after (.aaddD always 0 1 2) amo)).thr.st = .park
    ∧ storing.peersAcked = true ∧ unacked.peersAcked = false ∧ (after (.fenceCpy always .system) unacked).thr.park.map Park.reason = some .engine
    ∧ (after (.fenceRel always .system) unacked).thr.park.map Park.op = some (.wait .acked) := by decide +kernel
theorem witness_OrderingAndCaches_engines : copyOut.issuer = .thread (busy.thr.handle busy.tid) ∧ copyOut.st = .landing
    ∧ ((busy.spire 0).channel 2).queue = [copyOut] ∧ (after (.fenceCpy always .die) busy).thr.park.map Park.op = some (.wait (.copiesLanded .die))
    ∧ (after (.fenceSrv always .die) busy).thr.park.map Park.op = some (.wait .recordsBack) := by decide +kernel

/-- A translated page of LPDDR, with one dirty and one clean sector of the line at 0x4000 in the spire's cache. -/
def cached : State :=
  let s := ker [(9, 0x104010)] 0x4000 [1]
  s.setSpire 0 { s.spire 0 with
    tlb := [⟨0, false, 0x100000, 16, 0x0, true, true, true, true, false, false⟩]
    cache := [(0x200, ⟨5, 0xFF, 0⟩), (0x201, ⟨6, 0xFF, 1⟩)] }
theorem witness_OrderingAndCaches_cache : cached.guardOk always = true ∧ (cached.home 0x4010).cached = true
    ∧ risingFrom 0 (cached.spire 0).cache = true ∧ cached.bad = [] ∧ (setLines 0x40 (cached.spire 0).cache).length < 16
    ∧ ((after (.cflush always 9) cached).spire 0).cache = [] ∧ memGet 0x4020 (after (.cflush always 9) cached).mem = 6
    ∧ ((after (.cinv always 9) cached).spire 0).cache.map Prod.fst = [0x201]
    ∧ ((after (.cclean always 9) cached).spire 0).cache.all (fun e => decide (e.2.dirty = 0)) = true
    ∧ ((after (.cpref always 9) cached).spire 0).cache.length = 8 ∧ (after (.cclean always 9) cached).thr.st = .park := by decide +kernel
theorem witness_OrderingAndCaches_check :
    ∃ c, cached.check cached.ctx ⟨.read, cached.getX 9, 1, false, false, false, false, false⟩ = .pass [c] ∧ c.va ≤ (cached.getX 9).toNat
      ∧ (cached.getX 9).toNat < c.va + c.len ∧ c.key + ((cached.getX 9).toNat - c.va) = 0x4010 :=
  ⟨⟨0x104010, 0x4010, 1, false, false, false⟩, by decide +kernel⟩
/-- R144, R370: an instruction line that arrives; a translation that has arrived; one that a walk finds; one that it does not. -/
theorem witness_OrderingAndCaches_fills : let parked (op : ParkOp) (s : State) : State := s.setThr { s.thr with st := .park, park := some ⟨.mem, op, 0, false, 0⟩ }
    let s := parked (.fetch 0x100) (cached.setThr { cached.thr with pc := 0x104000 })
    let u := parked (.walk 0x104010 .read 0) (cached.setThr { cached.thr with ins := some (.ld always 5 9 0) })
    tget 0x100 ((after (.evIcacheFill 0) s).core 0).icache ≠ none ∧ (after (.evIcacheFill 0) s).thr.st = .run
    ∧ (after (.evIcacheFill 0) s).fetch.isOk = true ∧ s.bad = [] ∧ (u.spire 0).misses = []
    ∧ (cached.spire 0).tlbFind 0 0x104010 ≠ none ∧ u.walkers 0 = [(0, (0, 0x104))]
    ∧ (after (.evPageWalk 0) u).thr.park.map Park.op = some (.load ⟨[⟨0, 0x4010, 8, 0x104010⟩], [], 8, .zext, 5, none⟩)
    ∧ (cached.spire 0).tlbFind 0 0x200000 = none ∧ (parked (.walk 0x200000 .read 0) cached).walkers 0 = [(0, (0, 0x200))]
    ∧ (after (.evPageWalk 0) (parked (.walk 0x200000 .read 0) cached)).thr.tcause.toNat = Cause.pageR.code := by decide +kernel
/-- R367: a 4 KiB leaf four levels down, for virtual address 0x5000. -/
def walking : State :=
  { one (fun v => { v.setX 1 0x5000 with
      ptbr := 0x10000, st := .park, park := some ⟨.mem, .walk 0x5000 .read 0, 0, false, 0⟩, ins := some (.ld always 5 1 0) }) with
    mem := memWrite 0x10000 (leBytes 8 0x11001) (memWrite 0x11000 (leBytes 8 0x12001) (memWrite 0x12000 (leBytes 8 0x13001)
      (memWrite 0x13028 (leBytes 8 0x902F) []))) }
theorem witness_OrderingAndCaches_walk : (walking.spire 0).tlbFind 0 0x5000 = none
    ∧ (match (State.walk ((walking.slot 0).ctx 0) 0x5000 walking).2 with
      | .found e => decide (e.pa = 0x9000) && e.w && e.u && !e.x
      | .fails _ => false) = true
    ∧ walking.walkers 0 = [(0, (0, 5))] ∧ (after (.evPageWalk 0) walking).thr.st = .park
    ∧ (after (.evPageWalk 0) walking).thr.park.map Park.op = some (.load ⟨[⟨0, 0x9000, 8, 0x5000⟩], [], 8, .zext, 5, none⟩)
    ∧ ((after (.evPageWalk 0) walking).spire 0).tlb.length = 1 ∧ (walking.spire 0).misses = [] := by decide +kernel

/-! ## Groups -/

/-- Thread 0 (handle 0) and thread 1 (handle 1) of spire 0, with an entry of group 5. -/
def grouped (e : Option Group) (f : Slot → Slot) : State :=
  let s := (one f).setSlot 1 { Slot.reset with st := .run }
  match e with
  | some e => s.setSpire 0 { s.spire 0 with groups := [(5, e)] }
  | none => s
/-- R189, R190: the rows of the tables of GJOIN and GLEAVE. -/
theorem witness_GroupsAndCollectives_join : let e : Group := ⟨0, [(1, 0)], none, []⟩
    let all : Group := ⟨0, (List.range 32).map (fun i => (BitVec.ofNat 24 (i + 1), i)), none, []⟩
    (grouped none id).guardOk always = true ∧ tget 5 ((grouped none id).spire 0).groups = none
    ∧ (after (.gjoin always 7 5) (grouped none (fun v => v.setX 7 9))).getX 7 = 0 ∧ (after (.gleave always 7 5) (grouped none id)).getX 7 = 1
    ∧ (after (.gjoin always 7 5) (grouped (some e) id)).getX 7 = 1
    ∧ (after (.gjoin always 7 5) (grouped (some { e with asid := 3 }) id)).getX 7 = -2
    ∧ (after (.gjoin always 7 5) (grouped (some all) id)).getX 7 = -1
    ∧ (after (.gjoin always 7 5) (grouped (some ⟨0, [(1, 0), (0, 4)], none, []⟩) id)).getX 7 = 4
    ∧ (after (.gleave always 7 5) (grouped (some e) id)).getX 7 = 1 := by decide +kernel
theorem witness_GroupsAndCollectives_leave : let e : Group := ⟨0, [(1, 0), (0, 4)], none, []⟩
    let s := grouped (some e) (fun v => v.setX 7 9)
    e.members.find? (fun m => decide (m.1 = s.thr.handle s.tid)) = some (s.thr.handle s.tid, 4)
    ∧ (after (.gleave always 7 5) s).getX 7 = 0 ∧ tget 5 ((after (.gleave always 7 5) s).spire 0).groups = some ⟨0, [(1, 0)], none, []⟩ := by
  decide +kernel
/-- R191: by no member; the first issue; a second of the same kind and of another; one by a thread outside the wait set. -/
theorem witness_GroupsAndCollectives_issue : let e : Group := ⟨0, [(0, 0), (1, 1)], none, []⟩
    let inst (k : Nat) (w : List (BitVec 24)) : Group := { e with inst := some ⟨k, w, [⟨1, k, 7, 0, 5⟩]⟩ }
    (after (.gredAdd always 5 6 5) (grouped none id)).thr.tcause.toNat = Cause.group.code
    ∧ (after (.gredAdd always 5 6 5) (grouped none id)).thr.tsub = 1
    ∧ (after (.gredAdd always 5 6 5) (grouped (some e) id)).thr.st = .park
    ∧ ((tget 5 ((after (.gredAdd always 5 6 5) (grouped (some (inst 10 [0, 1])) id)).spire 0).groups).bind Group.inst).map
        (fun c => c.parts.length) = some 2
    ∧ (after (.gsync always 5) (grouped (some (inst 10 [0, 1])) id)).thr.tsub = 2
    ∧ (tget 5 ((after (.gsync always 5) (grouped (some (inst 10 [1])) id)).spire 0).groups).map (fun e => e.held.length) = some 1 := by
  decide +kernel
/-- R191 to R198: threads 0 and 1 with the values 3 and −1; FP32 values 1.0 and a signalling NaN. -/
noncomputable def collected (k : Nat) (a b : Word) : State :=
  after (.evCollectiveComplete 0 5)
    (grouped (some ⟨0, [(0, 0), (1, 1)], some ⟨k, [0, 1], [⟨0, k, a, 1, 5⟩, ⟨1, k, b, 0, 5⟩]⟩, []⟩)
      (fun v => { v with st := .park, park := some ⟨.group, .group 5, 0, false, 0⟩ }))
theorem witness_CollectiveResults : let r (k : Nat) (u : Nat) : Word := ((collected k 3 (-1)).slot u).getX 5
    (r 3 0, r 3 1) = (-1, 3) ∧ (r 5 0, r 5 1) = (-1, 3) ∧ (r 6 0, r 6 1) = (1, 1) ∧ r 7 0 = 1 ∧ r 8 1 = 3 ∧ r 9 0 = 1 ∧ r 9 1 = 2
    ∧ r 10 0 = 2 ∧ r 11 0 = -1 ∧ r 12 1 = 3 ∧ (r 15 0, r 15 1) = (3, 2) ∧ (r 4 0, r 4 1) = (-1, -1)
    ∧ ((collected 2 0 0).slot 0).st = .run := by decide +kernel
theorem witness_CollectiveResults_float : ((collected 13 0x3F800000 0x40000000).slot 0).getX 5 = 0x40400000
    ∧ ((collected 14 0x3F800000 0x7F800001).slot 1).getX 5 = 0x3F800000 ∧ ((collected 14 0x3F800000 0x7F800001).slot 1).fl = flagNV := by
  decide +kernel
theorem witness_CollectiveResults_trap :
    let e : Group := ⟨0, [(0, 0), (1, 1)], some ⟨14, [0, 1], [⟨0, 14, 0x7F800001, 1, 5⟩, ⟨1, 14, 0, 0, 5⟩]⟩, []⟩
    let s := grouped (some e) (fun v => { v with en := flagNV, st := .park, park := some ⟨.group, .group 5, 0, false, 0⟩ })
    (s.slot 0).held = false ∧ (s.slot 0).nest = false ∧ flagNV &&& (s.slot 1).en = 0 ∧ flagNV &&& (s.slot 0).en ≠ 0
    ∧ ((after (.evCollectiveComplete 0 5) s).slot 0).tcause = 0x14 ∧ ((after (.evCollectiveComplete 0 5) s).slot 1).pc = 4 := by decide +kernel
/-- R191 to R198: the kind under which each member joins the pending instance: the first issue of a member of two. -/
noncomputable def joins (i : Instr) : Option Nat :=
  ((tget 5 ((after i (grouped (some ⟨0, [(0, 0), (1, 1)], none, []⟩) id)).spire 0).groups).bind Group.inst).map Collective.kind
theorem test_collective_kinds : (joins (.gsync always 5), joins (.gshflx always 5 6 5), joins (.gbcast always 5 6 5), joins (.gvoteAny always 5 6 5))
      = (some 2, some 4, some 5, some 6)
    ∧ (joins (.gvoteAll always 5 6 5), joins (.gvoteBal always 5 6 5), joins (.gmatch always 5 6 5), joins (.gredAdd always 5 6 5))
      = (some 7, some 8, some 9, some 10)
    ∧ (joins (.gredMin always 5 6 5), joins (.gredMax always 5 6 5), joins (.gredFadd always 5 6 5), joins (.gredFmax always 5 6 5),
        joins (.gscanAdd always 5 6 5)) = (some 11, some 12, some 13, some 14, some 15) := by decide +kernel

/-! ## Fabric nodes -/

/-- The places fed by outputs 0 and 1 of a cell: port a of the first and of the second memory slot of its site (R273). -/
def out0 : PortId := ⟨⟨0, 0, 1⟩, 0⟩
def out1 : PortId := ⟨⟨0, 0, 2⟩, 0⟩
def cellSite : Site := ⟨0, 0, 0⟩
def cellNode (w : BitVec 32) (exts : List (BitVec 32)) : PNode := ⟨0, 0, w, exts, cellSite, 0, 1⟩
def cellPlane (w : BitVec 32) (exts : List (BitVec 32)) : Plane :=
  ⟨4, 4, 0, 0, 1, [cellNode w exts], [⟨0, 0, 28, 32, false⟩, ⟨0, 0, 29, 35, false⟩]⟩
def cellRegion (w : BitVec 32) (exts : List (BitVec 32)) (heads : List (Nat × Token)) (v : NodeState) : Region :=
  { Region.create 0 0 4 4 1 0 0 with
    st := .placed, active := some (cellPlane w exts), queues := heads.map (fun e => (⟨cellSite, e.1⟩, [e.2]))
    nodes := [((cellSite, 0), v)] }
/-- A region of one cell at its first site, with a token at the head of some of its ports; the cell is to fire. -/
def cell (w : BitVec 32) (exts : List (BitVec 32)) (heads : List (Nat × Token)) (v : NodeState) : State :=
  { State.reset with
    site := ⟨0, 5, cellSite, 0⟩
    spires := [(0, { Spire.reset with regions := [(5, cellRegion w exts heads v)] })] }
def dt (v : Word) (dim : Nat) : Token := ⟨false, 0x39, dim, .data, 0xFF, v, 0⟩

/-- An output that has nothing on its way is paced. -/
theorem paced_of {r : Region} {p : Plane} {node : PNode} {out : Nat} (h : r.stalled = []) (h' : r.sent = []) : Paced r p node out :=
  ⟨by simp [h], by simp [h']⟩

/-- The cell above is ready to fire whatever its word, where its heads are data tokens. -/
theorem cellReady_of {w : BitVec 32} {exts : List (BitVec 32)} {heads : List (Nat × Token)} {v : NodeState} (hv : v.pend = [])
    (hq : ∀ q, q < 4 → ((cellRegion w exts heads v).head cellSite q).all (fun t => decide (t.kind = .data)) = true)
    (h0 : (queueOf out0 (cellRegion w exts heads v).queues).length < 8)
    (h1 : (queueOf out1 (cellRegion w exts heads v).queues).length < 8) :
    CellReady w (cell w exts heads v) (cellRegion w exts heads v) (cellPlane w exts) (cellNode w exts) (some out0) (some out1) where
  region := rfl
  placed := rfl
  plane := rfl
  one := rfl
  arm := ⟨rfl, rfl⟩
  word := rfl
  noCut := ⟨rfl, rfl, rfl, rfl, rfl⟩
  fresh := ⟨(by intro h; cases h), (by intro h; cases h)⟩
  data := by
    intro q h t ht
    have := hq q h
    simp [show (cell w exts heads v).site.site = cellSite from rfl] at ht
    simpa [ht] using this
  clear := hv
  noAcc := by intro a ha; simp [cellRegion, Region.create] at ha
  credit0 := .inr ⟨_, _, rfl, rfl, paced_of rfl rfl, Nat.lt_of_lt_of_le h0 (Nat.le_max_left _ _)⟩
  credit1 := .inr ⟨_, _, rfl, rfl, paced_of rfl rfl, Nat.lt_of_lt_of_le h1 (Nat.le_max_left _ _)⟩
  apart := by decide

/-- What a firing leaves: the tokens on both outputs as (payload, DIM), and the node's state. -/
def fires (i : Instr) (w : BitVec 32) (exts : List (BitVec 32)) (heads : List (Nat × Token)) (v : NodeState) :
    List (Nat × Nat) × List (Nat × Nat) × List (Nat × Nat) :=
  let s := after i (cell w exts heads v)
  match s.region 0 5 with
  | some r =>
    let sent (q : PortId) : List (Nat × Nat) := (queueOf q r.queues).map (fun t => (t.payload.toNat, t.dim))
    (sent out0, sent out1, (r.queues.filter (fun e => decide (e.1.site = cellSite))).flatMap (fun e => e.2.map (fun t => (t.payload.toNat, t.dim))))
  | none => ([], [], [])

/-- One firing of a node of opcode `op` without state: what goes out on both outputs, when every head is taken. -/
def Sends (i : Instr) (op : Nat) (m : BitVec 6) (exts : List (BitVec 32)) (heads : List Token) (o0 o1 : List (Nat × Nat)) : Bool :=
  decide (fires i (nodeWord op 0 0 m) exts (heads.zipIdx.map (fun e => (e.2, e.1))) NodeState.fresh = (o0, o1, []))

theorem witness_IntegerNodes : CellReady (nodeWord 1 0 0 0) (cell (nodeWord 1 0 0 0) [] [(0, dt 5 0), (1, dt 7 2)] NodeState.fresh)
    (cellRegion (nodeWord 1 0 0 0) [] [(0, dt 5 0), (1, dt 7 2)] NodeState.fresh) (cellPlane (nodeWord 1 0 0 0) [])
    (cellNode (nodeWord 1 0 0 0) []) (some out0) (some out1)
    ∧ NodeState.fresh.emit = none ∧ (cellRegion (nodeWord 1 0 0 0) [] [(0, dt 5 0), (1, dt 7 2)] NodeState.fresh).head cellSite 0 = some (dt 5 0)
    ∧ (cellRegion (nodeWord 1 0 0 0) [] [(0, dt 5 0), (1, dt 7 2)] NodeState.fresh).head cellSite 1 = some (dt 7 2) :=
  ⟨cellReady_of rfl (by decide +kernel) (by decide +kernel) (by decide +kernel), rfl, by decide +kernel, by decide +kernel⟩
theorem witness_IntegerNodes_immediate : CellReady (nodeWord 1 0 0 0x18) (cell (nodeWord 1 0 0 0x18) [3] [(0, dt 5 0)] NodeState.fresh)
    (cellRegion (nodeWord 1 0 0 0x18) [3] [(0, dt 5 0)] NodeState.fresh) (cellPlane (nodeWord 1 0 0 0x18) [3])
    (cellNode (nodeWord 1 0 0 0x18) [3]) (some out0) (some out1) ∧ (0x18 : BitVec 6).getLsbD 3 = true :=
  ⟨cellReady_of rfl (by decide +kernel) (by decide +kernel) (by decide +kernel), by decide⟩
/-- R246: 64-bit lanes; MARK 0 takes the greater DIM, MARK 1 gives 0; with IMMB the lane width 32 adds 3 to both lanes. -/
theorem test_integer_nodes : Sends (.nIadd 0 0 0) 1 0 [] [dt 5 0, dt 7 2] [(12, 2)] [(12, 2)]
    ∧ Sends (.nIsub 0 0 1) 2 1 [] [dt 5 0, dt 7 2] [(2 ^ 64 - 2, 0)] [(2 ^ 64 - 2, 0)] ∧ Sends (.nImul 0 0 2) 3 2 [] [dt 5 0, dt 7 2] [(35, 1)] [(35, 1)]
    ∧ Sends (.nIadd 0 0 0x18) 1 0x18 [3] [dt 0x1FFFFFFFF 0] [(0x400000002, 0)] [(0x400000002, 0)]
    ∧ Sends (.nIand 0 0 0) 4 0 [] [dt 12 0, dt 10 0] [(8, 0)] [(8, 0)] ∧ Sends (.nIor 0 0 0) 5 0 [] [dt 12 0, dt 10 0] [(14, 0)] [(14, 0)]
    ∧ Sends (.nIxor 0 0 0) 6 0 [] [dt 12 0, dt 10 0] [(6, 0)] [(6, 0)] := by decide +kernel
theorem test_integer_nodes_more : Sends (.nIshl 0 0 0) 7 0 [] [dt 3 0, dt 65 0] [(6, 0)] [(6, 0)]
    ∧ Sends (.nIshr 0 0 0) 8 0 [] [dt 6 0, dt 1 0] [(3, 0)] [(3, 0)] ∧ Sends (.nIsra 0 0 0) 9 0 [] [dt (-4) 0, dt 1 0] [(2 ^ 64 - 2, 0)] [(2 ^ 64 - 2, 0)]
    ∧ Sends (.nImin 0 0 0) 10 0 [] [dt (-4) 0, dt 1 0] [(2 ^ 64 - 4, 0)] [(2 ^ 64 - 4, 0)] ∧ Sends (.nImax 0 0 0) 11 0 [] [dt (-4) 0, dt 1 0] [(1, 0)] [(1, 0)]
    ∧ Sends (.nIcmp 0 0 2) 12 2 [] [dt (-4) 0, dt 1 0] [(2 ^ 64 - 1, 0)] [(2 ^ 64 - 1, 0)] := by decide +kernel

theorem witness_FloatNodes : CellReady (nodeWord 18 0 0 0) (cell (nodeWord 18 0 0 0) [] [(0, dt 5 0), (1, dt 7 2), (2, dt 0 0)] NodeState.fresh)
    (cellRegion (nodeWord 18 0 0 0) [] [(0, dt 5 0), (1, dt 7 2), (2, dt 0 0)] NodeState.fresh) (cellPlane (nodeWord 18 0 0 0) [])
    (cellNode (nodeWord 18 0 0 0) []) (some out0) (some out1)
    ∧ (cellRegion (nodeWord 18 0 0 0) [] [(0, dt 5 0), (1, dt 7 2), (2, dt 0 0)] NodeState.fresh).head cellSite 2 = some (dt 0 0) :=
  ⟨cellReady_of rfl (by decide +kernel) (by decide +kernel) (by decide +kernel), by decide +kernel⟩
/-- R248: FP32 pairs 2.0 and 1.5, one lane zero; IMMB replaces b; FMA adds c; BF16 lanes. R249: 2 ^ 1, log2 4, 1 ÷ 2, 1 ÷ √4. -/
theorem test_float_nodes : Sends (.nFadd 0 0 0) 16 0 [] [dt 0x40000000 0, dt 0x3FC00000 0] [(0x40600000, 0)] [(0x40600000, 0)]
    ∧ Sends (.nFmul 0 0 8) 17 8 [0x40400000] [dt 0x4000000040000000 0] [(0x40C0000040C00000, 0)] [(0x40C0000040C00000, 0)]
    ∧ Sends (.nFma 0 0 0) 18 0 [] [dt 0x40000000 0, dt 0x3FC00000 0, dt 0x3F800000 3] [(0x40800000, 3)] [(0x40800000, 3)]
    ∧ Sends (.nFmax 0 0 0) 19 0 [] [dt 0x40000000 0, dt 0x3FC00000 0] [(0x40000000, 0)] [(0x40000000, 0)]
    ∧ Sends (.nFmin 0 0 16) 20 16 [] [dt 0x4000 0, dt 0x3FC0 0] [(0x3FC0, 0)] [(0x3FC0, 0)] := by decide +kernel
theorem test_float_nodes_exp : Sends (.nExp2 0 0 0) 24 0 [] [dt 0x3F8000003F800000 0] [(0x4000000040000000, 0)] [(0x4000000040000000, 0)] := by decide +kernel
theorem test_float_nodes_log : Sends (.nLog2 0 0 0) 25 0 [] [dt 0x4080000040800000 0] [(0x4000000040000000, 0)] [(0x4000000040000000, 0)]
    ∧ Sends (.nRcp 0 0 0) 26 0 [] [dt 0x4000000040000000 0] [(0x3F0000003F000000, 0)] [(0x3F0000003F000000, 0)] := by decide +kernel
theorem test_float_nodes_rsq : Sends (.nRsq 0 0 0) 27 0 [] [dt 0x4080000040800000 0] [(0x3F0000003F000000, 0)] [(0x3F0000003F000000, 0)] := by decide +kernel

/-- A cell of an opcode with some heads and a state is ready. -/
abbrev Ready (op : Nat) (m : BitVec 6) (exts : List (BitVec 32)) (heads : List (Nat × Token)) (v : NodeState) : Prop :=
  CellReady (nodeWord op 0 0 m) (cell (nodeWord op 0 0 m) exts heads v) (cellRegion (nodeWord op 0 0 m) exts heads v)
    (cellPlane (nodeWord op 0 0 m) exts) (cellNode (nodeWord op 0 0 m) exts) (some out0) (some out1)
def Fires (i : Instr) (op : Nat) (m : BitVec 6) (exts : List (BitVec 32)) (heads : List (Nat × Token)) (v : NodeState)
    (o0 o1 left : List (Nat × Nat)) : Bool := decide (fires i (nodeWord op 0 0 m) exts heads v = (o0, o1, left))

/-- R252: a control token of 1 sends the record to output 1; POS mode by position 0; R253, R254: JOIN and MUX. -/
theorem witness_CourseNodes_steer : Ready 32 0 [] [(0, dt 5 1), (3, dt 1 0)] NodeState.fresh ∧ Ready 32 2 [] [(0, dt 5 0)] NodeState.fresh
    ∧ Ready 32 1 [] [(0, dt 5 1)] { NodeState.fresh with open_ := some (true, false) } :=
  ⟨cellReady_of rfl (by decide +kernel) (by decide +kernel) (by decide +kernel), cellReady_of rfl (by decide +kernel) (by decide +kernel) (by decide +kernel),
    cellReady_of rfl (by decide +kernel) (by decide +kernel) (by decide +kernel)⟩
theorem test_steer : Fires (.nSteer 0 0 0) 32 0 [] [(0, dt 5 1), (3, dt 1 0)] NodeState.fresh [] [(5, 1)] []
    ∧ Fires (.nSteer 0 0 0) 32 0 [] [(0, dt 5 1), (3, dt 2 0)] NodeState.fresh [(5, 1)] [] []
    ∧ Fires (.nSteer 0 0 2) 32 2 [] [(0, dt 5 0)] NodeState.fresh [] [(5, 0)] []
    ∧ Fires (.nSteer 0 0 6) 32 6 [] [(0, dt 5 0)] NodeState.fresh [(5, 0)] [] []
    ∧ Fires (.nSteer 0 0 1) 32 1 [] [(0, dt 5 1)] { NodeState.fresh with open_ := some (true, false) } [] [(5, 1)] [] := by decide +kernel
theorem witness_CourseNodes_merge : Ready 33 0 [] [(1, dt 6 0), (0, dt 5 0)] NodeState.fresh ∧ Ready 34 0 [] [(0, dt 5 0), (1, dt 6 0), (3, dt 1 0)] NodeState.fresh :=
  ⟨cellReady_of rfl (by decide +kernel) (by decide +kernel) (by decide +kernel), cellReady_of rfl (by decide +kernel) (by decide +kernel) (by decide +kernel)⟩
theorem test_join_mux : Fires (.nJoin 0 0 0) 33 0 [] [(0, dt 5 0), (1, dt 6 0)] NodeState.fresh [(5, 0)] [(5, 0)] [(6, 0)]
    ∧ Fires (.nJoin 0 0 0) 33 0 [] [(0, dt 5 0), (1, dt 6 0)] { NodeState.fresh with turn := true } [(6, 0)] [(6, 0)] [(5, 0)]
    ∧ Fires (.nMux 0 0 0) 34 0 [] [(0, dt 5 0), (1, dt 6 0), (3, dt 1 0)] NodeState.fresh [(6, 0)] [(6, 0)] [(5, 0)] := by decide +kernel
theorem witness_CourseNodes_loop : Ready 35 0 [4] [(0, dt 5 0)] NodeState.fresh ∧ Ready 35 0 [4] [(1, dt 6 0), (2, dt 0 0)] NodeState.fresh
    ∧ Ready 36 0 [] [(0, dt 5 3)] NodeState.fresh :=
  ⟨cellReady_of rfl (by decide +kernel) (by decide +kernel) (by decide +kernel), cellReady_of rfl (by decide +kernel) (by decide +kernel) (by decide +kernel),
    cellReady_of rfl (by decide +kernel) (by decide +kernel) (by decide +kernel)⟩
theorem test_recirc_eosx : Fires (.nRecirc 0 0) 35 0 [4] [(0, dt 5 0)] NodeState.fresh [(5, 0)] [(5, 0)] []
    ∧ Fires (.nRecirc 0 0) 35 0 [4] [(0, dt 5 0), (1, dt 6 0)] NodeState.fresh [(6, 0)] [(6, 0)] [(5, 0)]
    ∧ Fires (.nEosx 0 0 2) 36 2 [] [(0, dt 5 3)] NodeState.fresh [(5, 3)] [] [] := by decide +kernel
theorem witness_CourseNodes_plain : Ready 37 0 [] [(0, dt 5 3)] NodeState.fresh ∧ Ready 38 0 [2] [(0, dt 5 3)] NodeState.fresh
    ∧ Ready 39 0 [7, 1] [(0, dt 5 3)] NodeState.fresh ∧ Ready 40 1 [0xFF39] [(0, dt 5 3)] NodeState.fresh
    ∧ Ready 40 0 [] [(0, dt 5 3), (1, { dt 6 0 with tag := 0x38 })] NodeState.fresh ∧ Ready 43 0 [] [(0, dt 0x500000000 0), (1, dt 0x300000000 1)] NodeState.fresh :=
  ⟨cellReady_of rfl (by decide +kernel) (by decide +kernel) (by decide +kernel), cellReady_of rfl (by decide +kernel) (by decide +kernel) (by decide +kernel),
    cellReady_of rfl (by decide +kernel) (by decide +kernel) (by decide +kernel), cellReady_of rfl (by decide +kernel) (by decide +kernel) (by decide +kernel),
    cellReady_of rfl (by decide +kernel) (by decide +kernel) (by decide +kernel), cellReady_of rfl (by decide +kernel) (by decide +kernel) (by decide +kernel)⟩
theorem test_plain_nodes : Sends (.nDup 0 0) 37 0 [] [dt 5 3] [(5, 3)] [(5, 3)] ∧ Sends (.nDelay 0 0) 38 0 [2] [dt 5 3] [(5, 3)] [(5, 3)]
    ∧ Sends (.nConst 0 0) 39 0 [7, 1] [dt 5 3] [(0x100000007, 3)] [(0x100000007, 3)]
    ∧ Sends (.nTagchk 0 0 1) 40 1 [0xFF39] [dt 5 3] [(5, 3)] [(5, 3)] ∧ Sends (.nTagchk 0 0 0) 40 0 [] [dt 5 3, dt 6 4] [(5, 4)] [(5, 4)]
    ∧ Sends (.nCmpx 0 0 0) 43 0 [] [dt 0x500000000 0, dt 0x300000000 1] [(0x300000000, 1)] [(0x500000000, 0)]
    ∧ Sends (.nCmpx 0 0 4) 43 4 [] [dt 0x500000000 0, dt 0x300000000 1] [(0x500000000, 0)] [(0x300000000, 1)] := by decide +kernel

/-- R250: FP32 pairs to BF16 (FROM 1 to TO 0 has formats of R70), R259, R261, R262. -/
theorem witness_PackingNodes : Ready 28 0 [127] [(0, dt 5 3)] NodeState.fresh ∧ Ready 41 0 [] [(0, dt 5 0), (1, dt 1 0)] NodeState.fresh
    ∧ Ready 42 0x11 [] [(0, dt 5 0)] NodeState.fresh ∧ Ready 48 0 [2] [(0, dt 0x500000003 0)] NodeState.fresh
    ∧ Ready 49 0 [1, 8] [(0, dt 0x1000 0)] NodeState.fresh
    ∧ Ready 48 0 [2] [] { NodeState.fresh with emit := some ⟨5, 2, 1, 3, 0, 0x39, 0, false, 3, false⟩ } :=
  ⟨cellReady_of rfl (by decide +kernel) (by decide +kernel) (by decide +kernel), cellReady_of rfl (by decide +kernel) (by decide +kernel) (by decide +kernel),
    cellReady_of rfl (by decide +kernel) (by decide +kernel) (by decide +kernel), cellReady_of rfl (by decide +kernel) (by decide +kernel) (by decide +kernel),
    cellReady_of rfl (by decide +kernel) (by decide +kernel) (by decide +kernel), cellReady_of rfl (by decide +kernel) (by decide +kernel) (by decide +kernel)⟩
theorem test_packing_nodes : Fires (.nFilter 0 0 0) 41 0 [] [(0, dt 5 0), (1, dt 1 0)] NodeState.fresh [(5, 0)] [(5, 0)] []
    ∧ Fires (.nCoalesce 0 0 1) 42 1 [] [(0, dt 5 1)] NodeState.fresh [(5, 1)] [(5, 1)] []
    ∧ Fires (.nLoopgen 0 0 0) 48 0 [2] [(0, dt 0x500000003 0)] NodeState.fresh [(5, 0)] [] []
    ∧ Fires (.nLoopgen 0 0 0) 48 0 [2] [] { NodeState.fresh with emit := some ⟨5, 2, 1, 3, 0, 0x39, 0, false, 3, false⟩ } [(7, 0)] [] []
    ∧ Fires (.nLoopgen 0 0 0) 48 0 [2] [] { NodeState.fresh with emit := some ⟨5, 2, 3, 3, 0, 0x39, 0, false, 3, false⟩ } [] [(3, 0)] []
    ∧ Fires (.nAddrgen 0 0 0) 49 0 [1, 8] [(0, dt 0x1000 0)] NodeState.fresh [(0x1000, 0)] [] [] := by decide +kernel

/-! ## Server calls -/

/-- The CONFIG section of the lookup program, from its table of doublewords. -/
def lookImage : List Byte :=
  [0x0000010100080001, 0x0000000300000001, 0x0000000000000001, 0x40, 0x50, 0x68, 0x80, 0, 0x3E82000008000000, 0x3F00000038840002,
    0x0000060000700000, 0x0004000000700000, 0x0008060000700000, 0x0000000000070000, 0x00000000241A4E20, 0].flatMap (fun w => leBytes 8 w)
def lookPlane : Plane :=
  ⟨1, 8, 1, 1, 0, [⟨0, 0, 0x3E820000, [], ⟨0, 7, 13⟩, 0, 1⟩, ⟨0, 1, 0x38840002, [], ⟨0, 7, 1⟩, 0, 1⟩, ⟨0, 2, 0x3F000000, [], ⟨0, 7, 14⟩, 0, 1⟩],
    [⟨0, 7, 56, 32, false⟩, ⟨0, 7, 32, 52, false⟩]⟩
/-- R241 to R244, R272, R276, R283 on the section of the manual's example. -/
theorem test_image_lookup : parseImage lookImage = some lookPlane := by decide +kernel

def lookRegion (st : RState) : Region := { Region.create 0 0 1 8 0 0 3 with st := st }
/-- Thread 0 with an image address in x10, its first argument in x1, and region 2 of its spire. -/
def serving (r : Region) (hearth : List Image) (l : List (Reg × Word)) : State :=
  let s := regs ((10, 0x500000) :: l)
  s.setSpire 0 { s.spire 0 with regions := [(2, r)], hearth := hearth }
def look (pins : Nat) : Image := ⟨0, 0x500000, lookImage, pins⟩
def placed : Region := { lookRegion .placed with imgAddr := 0x500000, active := some lookPlane }

/-- R205, R210: a misaligned image address; an image in place, of this shape and of another; none. -/
theorem witness_ServerCalls_call : let s := serving placed [look 0] [(1, 9), (11, 0x500001)]
    let none_ := serving (lookRegion .empty) [] []
    s.guardOk always = true ∧ (after (.srv always 11 0 0) s).thr.tcause.toNat = Cause.align.code
    ∧ ((s.spire 0).placed 0 0x500000).map Prod.fst = some 2 ∧ (s.spire 0).tagBusy 0 = false
    ∧ ((after (.srv always 10 0 0) s).region 0 2).map Region.waiting = some [0] ∧ (after (.srvnw always 2 10 0 0) s).getP 2 = true
    ∧ (after (.srv always 10 1 0) s).thr.tcause = 0x0B ∧ ((none_.spire 0).placed 0 0x500000).isNone = true
    ∧ (after (.srv always 10 0 0) none_).thr.park.map Park.op = some (.hearth ⟨0x500000, 1, 1, [0], 1⟩)
    ∧ (after (.srvnw always 2 10 0 0) none_).thr.pc = 4 ∧ (after (.srvnw always 2 10 1 0) s).thr.tcause = 0x0B
    ∧ s.callSeq 0 ≤ (s.spire 0).uses + 1 ∧ placed.waiting = [] ∧ (s.spire 0).places = [] := by decide +kernel
theorem witness_ServerCalls_busy : let s := serving { placed with flights := [⟨0, 256, 0, 1, 0, 0, Vector.replicate 5 0, .user⟩] } [look 0] []
    (s.spire 0).tagBusy (tidTag s.tid) = true ∧ (after (.srv always 10 0 0) s).thr.park.map Park.op = some (.held ⟨0x500000, 1, 1, [0], 1⟩)
    ∧ (after (.srvnw always 2 10 0 0) s).thr.park.map Park.op = some (.port 2 ⟨0x500000, 1, 1, [0], 1⟩)
    ∧ (after (.srvnw always 2 10 0 0) s).thr.park.map Park.reason = some .engine ∧ (after (.srvnw always 2 10 0 0) s).getP 2 = true := by decide +kernel
/-- R216: a PLACED region 2 with nothing in flight; a LOADING one; none. -/
theorem witness_ServerCalls_query : (after (.srvq always 5 10) (serving placed [look 1] [])).getX 5 = 0x2000103
    ∧ (after (.srvq always 5 10) (serving (lookRegion .empty) [] [])).getX 5 = 0
    ∧ (after (.srvq always 5 10) (serving { lookRegion .loading with imgAddr := 0x500000, shadow := some lookPlane } [look 0] [])).getX 5 = 5 := by
  decide +kernel
/-- R223, R224: each row of the tables of CFGLD, CFGPIN, CFGUNPIN and CFGEV. -/
theorem witness_ServerCalls_pins : (after (.cfgld always 5 10) (serving placed [look 0] [])).getX 5 = 0
    ∧ (after (.cfgld always 5 10) (serving (lookRegion .empty) [] [])).getX 5 = 1
    ∧ (after (.cfgpin always 5 10) (serving placed [] [])).getX 5 = 2 ∧ (after (.cfgpin always 5 10) (serving placed [look 255] [])).getX 5 = 3
    ∧ (after (.cfgpin always 5 10) (serving placed [look 0] [])).getX 5 = 0 ∧ (after (.cfgunpin always 5 10) (serving placed [look 0] [])).getX 5 = 1
    ∧ (after (.cfgunpin always 5 10) (serving placed [look 1] [])).getX 5 = 0 ∧ ((after (.cfgpin always 5 10) (serving placed [look 0] [])).spire 0).pins 0 0x500000 = 1 := by
  decide +kernel
theorem witness_ServerCalls_evict : (after (.cfgev always 5 10) (serving placed [look 1] [])).getX 5 = 2
    ∧ (after (.cfgev always 5 10) (serving (lookRegion .empty) [] [])).getX 5 = 1
    ∧ (after (.cfgev always 5 10) (serving (lookRegion .empty) [look 0] [])).getX 5 = 0
    ∧ ((after (.cfgev always 5 10) (serving placed [look 0] [])).region 0 2).map Region.st = some .closing
    ∧ ((after (.cfgev always 5 10) (serving { lookRegion .loading with imgAddr := 0x500000, shadow := some lookPlane } [look 0] [])).region 0 2).map
        Region.st = some .empty := by decide +kernel
/-- R223: 192 pinned pages of 4 KiB and one more. -/
def pinned : List Image := (List.range 192).map (fun k => ⟨0, BitVec.ofNat 64 (0x900000 + 256 * k), [0], 1⟩)
theorem witness_ServerCalls_full :
    ((pinned.filter (fun j => decide (j.pins ≠ 0))).map (fun j => (j.bytes.length + 4095) / 4096)).sum = 192
    ∧ (after (.cfgpin always 5 10) (serving placed (look 0 :: pinned) [])).getX 5 = 2 := by decide +kernel

/-- R211 to R213: a record of one argument enters; its return of one token is delivered. -/
def entering : State :=
  (serving { placed with waiting := [0] } [look 0] []).setThr
    { (regs [(1, 9)]).thr with st := .park, park := some ⟨.srv, .port 2 ⟨0x500000, 1, 1, [9], 0⟩, 0, false, 0⟩ }
theorem witness_CallsAndReturns_entry : (entering.region 0 2).isSome = true ∧ lookPlane.entryNode.map PNode.site = some ⟨0, 7, 13⟩
    ∧ ({ placed with waiting := [0] } : Region).stitched 0 = false ∧ (entering.spire 0).tagBusy 0 = false
    ∧ (((after (.evRecordEntry 0 2 0) entering).region 0 2).map (fun r => (r.tokens ⟨⟨0, 7, 13⟩, 0⟩).map (fun t => (t.payload, t.dim)))) = some [(9, 1)]
    ∧ (after (.evRecordEntry 0 2 0) entering).thr.park.map Park.op = some (.flight 2 1) := by decide +kernel
def returning (faults : List TagFault) : State :=
  (serving { placed with flights := [⟨0, 0, 0, 1, 0, 0, Vector.replicate 5 0, .user⟩], rets := [(0, [⟨false, 0, 1, .data, 0xFF, 77, 0⟩])], faults := faults }
    [look 0] []).setThr { (regs []).thr with st := .park, tvec := 0x800, park := some ⟨.srv, .flight 2 1, 0, false, 0⟩ }
theorem witness_CallsAndReturns_return : ((returning []).region 0 2).map (fun r => r.owesAccess 0) = some false
    ∧ (after (.evReturnDelivery 0 2 0) (returning [])).getX 1 = 77 ∧ (after (.evReturnDelivery 0 2 0) (returning [])).thr.pc = 4
    ∧ (after (.evReturnDelivery 0 2 0) (returning [⟨0, .pageR, 0, 0x600000, 3⟩])).thr.tcause = 0x0B
    ∧ (after (.evReturnDelivery 0 2 0) (returning [⟨0, .pageR, 0, 0x600000, 3⟩])).thr.tval = 0x600000
    ∧ (after (.evReturnDelivery 0 2 0) (returning [⟨0, .pageR, 0, 0x600000, 3⟩])).thr.pc = 0x800 := by decide +kernel
/-- R214: an image of a waiting call into an empty region of its shape, LOADING and then PLACED. -/
noncomputable def loading : State := after (.evHearthPlace 0 2) (after (.srv always 10 0 0) (serving (lookRegion .empty) [look 0] [(1, 9)]))
theorem witness_CallsAndReturns_place : ((after (.srv always 10 0 0) (serving (lookRegion .empty) [look 0] [(1, 9)])).spire 0).places.length = 1
    ∧ parseImage (look 0).bytes = some lookPlane ∧ lookPlane.rows = (lookRegion .empty).rows ∧ lookPlane.cols = (lookRegion .empty).cols
    ∧ (loading.region 0 2).map Region.st = some .loading ∧ (loading.region 0 2).bind Region.reserved = some 0
    ∧ ((after (.evHearthPlace 0 2) loading).region 0 2).map Region.st = some .placed
    ∧ (after (.evHearthPlace 0 2) loading).thr.park.map Park.op = some (.port 2 ⟨0x500000, 1, 1, [9], 1⟩) := by decide +kernel
theorem witness_CallsAndReturns_closed : ((after (.evRegionClosed 0 2) (serving { placed with st := .closing } [look 0] [])).region 0 2).map Region.st
    = some .empty := by decide +kernel

/-! ## Port columns and regions -/

/-- The memory slot of the lookup image fires on an address in the own keep, and its access completes. -/
def ldnSite : Site := ⟨0, 7, 1⟩
def ldnRegion (accs : List MemAcc) (heads : List (PortId × List Token)) : Region :=
  { placed with
    kind := 0, queues := heads, accs := accs, flights := [⟨0x39, 0, 0, 1, 0, 0, Vector.replicate 5 0, .kernel⟩] }
def ldn (accs : List MemAcc) (heads : List (PortId × List Token)) (site : Site) : State :=
  { serving (ldnRegion accs heads) [look 0] [] with site := ⟨0, 2, site, 0⟩, mem := memWrite (2 ^ 48 + 0x100) [0x0F, 0x49, 0x40] [] }
theorem witness_PortNodes_ldn : CellReady (nodeWord 56 0x108 0 2) (ldn [] [(⟨ldnSite, 0⟩, [dt 0x7F1000000100 1])] ldnSite)
    (ldnRegion [] [(⟨ldnSite, 0⟩, [dt 0x7F1000000100 1])]) lookPlane ⟨0, 1, 0x38840002, [], ldnSite, 0, 1⟩ (some ⟨⟨0, 7, 14⟩, 0⟩) none where
  region := rfl
  placed := rfl
  plane := rfl
  one := rfl
  arm := ⟨rfl, rfl⟩
  word := by decide
  noCut := ⟨rfl, rfl, rfl, rfl, rfl⟩
  fresh := ⟨(by intro h; cases h), (by intro h; cases h)⟩
  data := by
    have h : ∀ q, q < 4 → ((ldnRegion [] [(⟨ldnSite, 0⟩, [dt 0x7F1000000100 1])]).head ldnSite q).all (fun t => decide (t.kind = .data)) = true := by
      decide +kernel
    intro q hq t ht
    have hk := h q hq
    rw [show (ldnRegion [] [(⟨ldnSite, 0⟩, [dt 0x7F1000000100 1])]).head ldnSite q = some t from ht] at hk
    simpa using hk
  clear := rfl
  noAcc := by intro a ha; simp [ldnRegion] at ha
  credit0 := .inr ⟨_, _, rfl, rfl, paced_of rfl rfl, by decide +kernel⟩
  credit1 := .inl ⟨rfl, rfl⟩
  apart := .inr (by simp)
theorem test_ldn : let s := ldn [] [(⟨ldnSite, 0⟩, [dt 0x7F1000000100 1])] ldnSite
    let t := after (.nLdn 0x108 0 2) s
    (t.region 0 2).map (fun r => r.accs.map (fun a => (a.addr, a.size, a.dim))) = some [(0x7F1000000100, 4, 1)]
    ∧ ((after (.evMemoryNodeAccessDone 0 2 0) t).region 0 2).map (fun r => ((queueOf ⟨⟨0, 7, 14⟩, 0⟩ r.queues).map Token.payload, r.accs.length))
      = some ([0x40490F], 0) := by decide +kernel
/-- R265: ENTRY passes its token to the memory slot; RETURN groups it under its tag. -/
theorem test_entry_return : ((after (.nEntry 0x104 0) (ldn [] [(⟨⟨0, 7, 13⟩, 0⟩, [dt 5 1])] ⟨0, 7, 13⟩)).region 0 2).map
      (fun r => (queueOf ⟨ldnSite, 0⟩ r.queues).map Token.payload) = some [5]
    ∧ ((after (.nReturn 0 0) (ldn [] [(⟨⟨0, 7, 14⟩, 0⟩, [dt 5 1])] ⟨0, 7, 14⟩)).region 0 2).map Region.rets = some [(0x39, [dt 5 1])] := by
  decide +kernel
/-- R275: both outputs of the lookup's memory slot are paced. -/
theorem witness_MemoryNodeAccesses_paced (a : MemAcc) : Paced (ldnRegion [a] []) lookPlane ⟨0, 1, 0x38840002, [], ldnSite, 0, 1⟩ 0
    ∧ Paced (ldnRegion [a] []) lookPlane ⟨0, 1, 0x38840002, [], ldnSite, 0, 1⟩ 1 := ⟨paced_of rfl rfl, paced_of rfl rfl⟩
/-- R263, R282: an access that completes: poisoned, without an address, a load; a store by STN. -/
def acc (store poison void : Bool) : MemAcc := ⟨ldnSite, store, 0x39, 1, 0, 0x7F1000000100, 4, false, 0x11223344, 0x0F, poison, void, 0, false⟩
theorem witness_MemoryNodeAccesses : let r := ldnRegion [acc false false false] []
    let s := ldn [acc false false false] [] ldnSite
    s.region 0 2 = some r ∧ s.bad = [] ∧ r.active = some lookPlane ∧ lookPlane.nodes.filter (fun n => decide (n.site = ldnSite)) = [⟨0, 1, 0x38840002, [], ldnSite, 0, 1⟩]
    ∧ (s.accessRights 0 r (acc false false false)).g = 0 ∧ s.home (2 ^ 48 + 0x100) = .keep 0 0x100
    ∧ (s.engineCheck (s.accessRights 0 r (acc false false false)) (.load 0x7F1000000100 4) true).2
      = .pass [⟨0x7F1000000100, 2 ^ 48 + 0x100, 4, true, true, false⟩] := by decide +kernel
theorem witness_MemoryNodeAccesses_store : let s := ldn [acc true false false] [] ldnSite
    (s.checkStore (s.accessRights 0 (ldnRegion [acc true false false] []) (acc true false false)) (acc true false false)).2
      = .pass [⟨0x7F1000000100, 2 ^ 48 + 0x100, 4, true, true, false⟩]
    ∧ bytesAt (after (.evMemoryNodeAccessDone 0 2 0) s) (2 ^ 48 + 0x100) 4 = 0x11223344
    ∧ (let q (p v : Bool) : Option (List (Word × Bool)) := ((after (.evMemoryNodeAccessDone 0 2 0) (ldn [acc false p v] [] ldnSite)).region 0 2).map
          (fun r => (queueOf ⟨⟨0, 7, 14⟩, 0⟩ r.queues).map (fun t => (t.payload, t.poison)))
      q true false = some [(0, true)] ∧ q false true = some [(0, false)]) := by decide +kernel

/-- R286 to R288: a region of two places that swaps. -/
def twoPlane (w : BitVec 32) : Plane := ⟨4, 4, 0, 0, 1, [⟨0, 0, w, [], ⟨0, 0, 0⟩, 0, 1⟩, ⟨0, 1, w, [], ⟨0, 1, 0⟩, 0, 1⟩], []⟩
def swapping (written : List (Nat × Nat)) (swapped passed : List Site) : State :=
  { State.reset with
    spires := [(0, { Spire.reset with regions := [(5, { Region.create 0 0 4 4 1 0 0 with
      st := .swapping, active := some (twoPlane (nodeWord 37 0 0 0)), shadow := some (twoPlane (nodeWord 38 0 0 0)), written := written
      swapped := swapped, passed := passed, sentEnd := passed.map (fun x => (x, 0)), clock := 9, queues := [(⟨⟨0, 0, 0⟩, 0⟩, [dt 5 0])] })] })] }
theorem witness_RegionStepsAndRegisters_swap : let all := (List.range 4).flatMap (fun i => (List.range 4).map (fun j => (i, j)))
    ((after (.evShadowWrite 0 5 0 0) (swapping [] [] [])).region 0 5).map Region.written = some [(0, 0)]
    ∧ ((after (.evCellSwap 0 5 0 0 0) (swapping all [] [⟨0, 0, 0⟩])).region 0 5).map Region.swapped = some [⟨0, 0, 0⟩]
    ∧ ((after (.evCellSwap 0 5 0 0 0) (swapping all [] [⟨0, 0, 0⟩])).region 0 5).map (fun r => queueOf ⟨⟨0, 0, 0⟩, 0⟩ r.squeues) = some [dt 5 0]
    ∧ ((after (.evCellSwap 0 5 0 1 0) (swapping all [⟨0, 0, 0⟩] [⟨0, 1, 0⟩])).region 0 5).map Region.st = some .placed
    ∧ 0 + nodeCycles ⟨0, 0, nodeWord 37 0 0 0, [], ⟨0, 0, 0⟩, 0, 1⟩ < 9
    ∧ ((after (.evCellSwap 0 5 0 0 0) ((swapping all [] [⟨0, 0, 0⟩]).mapRegion 0 5 (fun r => { r with clock := 0 }))).region 0 5).map Region.swapped
      = some [] := by decide +kernel
/-- R437: the slot of a BIND's open outbound port is gone in the new plane. -/
def losing : State :=
  let r : Region := { Region.create 0 0 4 8 1 0 0 with
    st := .swapping, active := some ⟨4, 8, 0, 0, 1, [⟨0, 0, nodeWord 63 0 0 0, [], ⟨0, 7, 14⟩, 0, 1⟩, ⟨0, 1, nodeWord 37 0 0 0, [], ⟨0, 0, 0⟩, 0, 1⟩], []⟩
    shadow := some ⟨4, 8, 0, 0, 1, [⟨0, 1, nodeWord 37 0 0 0, [], ⟨0, 0, 0⟩, 0, 1⟩], []⟩, written := [(0, 7)], passed := [⟨0, 7, 14⟩], sentEnd := [(⟨0, 7, 14⟩, 0)], clock := 9
    entries := [⟨0, 0, 1, 0, true, ⟨0, 7, 14⟩⟩], binds := [⟨3, 0, 0, 0, [⟨0, [⟨0, 0x1000, 64⟩], 0, false, false, false, false, false⟩], 0, []⟩] }
  ({ State.reset with spires := [(0, { Spire.reset with regions := [(5, r)] })] }).setQueue 3
    { Queue.reset with cmds := [⟨0, Vector.replicate 8 0, .launch 0 0 [], none, false, false⟩] }
theorem witness_RegionStepsAndRegisters_lost : ((after (.evCellSwap 0 5 0 7 14) losing).region 0 5).map (fun r => r.binds.length) = some 0
    ∧ ((after (.evCellSwap 0 5 0 7 14) losing).queue 3).cmds.map Cmd.done = [true] := by decide +kernel
/-- R437: neither plane holds the slot, whose site's shadow plane is written. -/
def losingLate : State :=
  let p : Plane := ⟨4, 8, 0, 0, 1, [⟨0, 1, nodeWord 37 0 0 0, [], ⟨0, 0, 0⟩, 0, 1⟩], []⟩
  losing.mapRegion 0 5 (fun r => { r with active := some p, written := [], passed := [], sentEnd := [] })
theorem witness_RegionStepsAndRegisters_lost_late : (losingLate.region 0 5).map Region.st = some .swapping
    ∧ (losingLate.region 0 5).map (fun r => (r.written, r.swapped.length, r.binds.length, (queueOf ⟨⟨0, 7, 14⟩, 4⟩ r.queues).length)) = some ([], 0, 1, 0)
    ∧ ((after (.evShadowWrite 0 5 0 7) losingLate).region 0 5).map (fun r => (r.binds.length, r.written)) = some (0, [(0, 7)])
    ∧ ((after (.evShadowWrite 0 5 0 7) losingLate).queue 3).cmds.map Cmd.done = [true] := by decide +kernel
/-- R410, R290: a halted region without a token, and a matrix region; a cut whose one place has passed the marker. -/
def halted (f : Region → Region) : State :=
  { State.reset with spires := [(0, { Spire.reset with regions := [(5, f { Region.create 0 0 4 4 1 0 0 with halt := true })] })] }
theorem witness_RegionStepsAndRegisters_quiet : let q (s : State) : Option Bool := ((after (.evRegionQuiet 0 5) s).region 0 5).map Region.quiet
    q (halted id) = some true ∧ q (halted (fun r => { r with kind := 2, st := .halted })) = some true
    ∧ (let c (stop : Bool) := halted (fun r => { r with cut := ⟨7, 1, stop, [], []⟩ })
      ((after (.evCutDone 0 5) (c false)).region 0 5).map (fun r => r.cut.state) = some 2
      ∧ ((after (.evCutDone 0 5) (c true)).region 0 5).map (fun r => r.cut.state) = some 3 ∧ (c true).trig = []
      ∧ (after (.evCutDone 0 5) (c true)).dbgout = 16 ∧ (after (.evCutDone 0 5) { c false with trig := [0] }).dbgout = 0) := by decide +kernel
/-- R290, R291, R379, R402, R408, R448 at the first and the last register of a range. -/
theorem witness_RegionStepsAndRegisters_registers : let r (i : Instr) : Option Region := (after i (halted id)).region 0 5
    (r (.evRctlWrite 0 5 1)).map Region.halt = some true ∧ (r (.evRctlWrite 0 5 0)).map Region.halt = some false
    ∧ ((after (.evRctlWrite 0 5 0) (halted (fun x => { x with kind := 2, st := .halted }))).region 0 5).map Region.st = some .empty
    ∧ (r (.evBkcfgWrite 0 5 3 (2 ^ 63 + 2 ^ 61))).map (fun x => (x.bks[3].en, x.bks[3].action)) = some (true, 1)
    ∧ (r (.evRefusedWrite 0 5 9)).map Region.refused = some 9 ∧ (r (.evRefusedWrite 0 5 (2 ^ 32))).map Region.refused = some 0
    ∧ ((after (.evRegisterWrite 0x1100010000 5) (halted id)).die 1).evq = 0 ∧ ((after (.evRegisterWrite 0x1100000000 5) (halted id)).die 0).evq = 5
    ∧ ((after (.evRegisterWrite 0x1100010000 5) { halted id with die0 := { Die.reset with booted := true } }).die 1).evq = 5
    ∧ ((after (.evRegisterWrite (0x3000000000 + 8 * 511) 0x70001) (halted id)).island 511).vfreq = 7
    ∧ (r (.evRegisterWrite (5 * 0x40000 + 0x20018) 9)).map Region.dropped = some 9 := by decide +kernel
theorem witness_RegionStepsAndRegisters_node : let s := cell (nodeWord 28 0 0 0) [127] [] { NodeState.fresh with amax := 9, nan := true }
    (cellPlane (nodeWord 28 0 0 0) [127]).nodes.find? (fun x => decide (x.block = 0 ∧ x.idx = 0)) = some (cellNode (nodeWord 28 0 0 0) [127])
    ∧ nodeOp (nodeWord 28 0 0 0) = 0x1C
    ∧ ((after (.evNodeStateWrite 0 5 0) s).region 0 5).map (fun r => (nodeStateOf (cellSite, 0) r.nodes).amax) = some 0 := by decide +kernel
/-- R290: a CVT of the new plane at a place that the old plane leaves free, its site's plane written. -/
theorem witness_RegionStepsAndRegisters_newPlane : let q : Plane := cellPlane (nodeWord 28 0 0 0) [127]
    let s := (swapping [(0, 0)] [] []).mapRegion 0 5 (fun r => { r with
      active := some ⟨4, 4, 0, 0, 1, [⟨0, 1, nodeWord 37 0 0 0, [], ⟨0, 1, 0⟩, 0, 1⟩], []⟩, shadow := some q
      snodes := [((cellSite, 0), { NodeState.fresh with amax := 9, nan := true })] })
    (s.region 0 5).map Region.st = some .swapping ∧ cellSite = ⟨0, 0, 0⟩
    ∧ ((after (.evNodeStateWrite 0 5 0) s).region 0 5).map (fun r => (nodeStateOf (cellSite, 0) r.snodes).amax) = some 0 := by decide +kernel
/-- R250: FP32 to E4M3 with no scale: 480.0 saturates to 0x7E and 1.0 is 0x38; output 1 holds the saturated lane's bytes. -/
theorem test_cvt : let t := after (.nCvt 0 0 0x18) (cell (nodeWord 28 0 0 0x18) [127] [(0, dt 0x3F80000043F00000 2)] NodeState.fresh)
    (t.region 0 5).map (fun r => ((queueOf out0 r.queues).map (fun t => (t.payload, t.dim, t.valid)), (queueOf out1 r.queues).map (fun t => (t.payload, t.valid))))
      = some ([(0x387E, 2, 3)], [(0x3F80000043F00000, 0x0F)]) := by decide +kernel
/-- R263: STN of eight bytes begins a store of port b's payload at port a's address. -/
theorem test_stn : ((after (.nStn 0 0 3) (cell (nodeWord 57 0 0 3) [] [(0, dt 0x7F1000000100 1), (1, dt 77 0)] NodeState.fresh)).region 0 5).map
    (fun r => r.accs.map (fun a => (a.store, a.addr, a.size, a.data))) = some [(true, 0x7F1000000100, 8, 77)] := by decide +kernel

/-! ## Matrix regions -/

/-- A matrix region of thread 0 (R296): owned, with a shape of one FP32 cell row and column and one vector. -/
def tileShape : TileShape := ⟨0, false, false, 1, 1, 1⟩
def mxRegion (st : RState) (f : Matrix → Matrix) : Region :=
  { Region.create 0 0 4 8 2 0 0 with st := st, matrix := f { Matrix.reset with owner := some 0, prv := .kernel, shape := some tileShape } }
/-- The registers: x1 OPEN, x2 SHAPE, x3 CLEAR, x4 CLOSE, x6 and x7 a drain descriptor, x8 a stream, x9 an odd address; memory: a
header of two FP32 elements and the elements 2.0 and 1.0, at offset 0x100 of the keep. -/
def mx (r : Option Region) : State :=
  let s := ker [(1, 0x0200000000000000), (2, 0x0210000000000000), (3, 0x0220000000000000), (4, 0x0230000000000000), (6, 0x7F1000000200),
    (7, 16), (8, 0x7F1000000100), (9, 0x7F1000000101), (10, 0x0218000000000000)] (2 ^ 48 + 0x100)
    (leBytes 8 0x010000000000827F ++ leBytes 8 0x3F80000040000000)
  match r with
  | some r => s.setSpire 0 { s.spire 0 with regions := [(1, r)] }
  | none => s
abbrev mxStatus (i : Instr) (r : Option Region) : Word := (after i (mx r)).getX 5
def mxAfter (i : Instr) (r : Region) : Option Matrix := ((after i (mx (some r))).region 0 1).map Region.matrix

/-- R304 to R306: a misaligned stream, a bad word, a bad shape, no region; another owner. -/
theorem witness_MatrixInstructions_refusals : let r := mxRegion .empty id
    let theirs := mxRegion .empty (fun m => { m with owner := some 9 })
    (mx (some r)).guardOk always = true ∧ (after (.mxw always 5 9 1) (mx (some r))).thr.tcause.toNat = Cause.align.code
    ∧ mxStatus (.mxc always 5 8 1) (some r) = 3 ∧ mxStatus (.mxc always 5 10 1) (some r) = 3 ∧ mxStatus (.mxw always 5 8 1) none = 1
    ∧ mxStatus (.mxc always 5 1 1) none = 1 ∧ mxStatus (.mxst always 5 0 1) none = 0 ∧ mxStatus (.mxd always 5 6 1) none = 1
    ∧ mxStatus (.mxw always 5 8 1) (some theirs) = 2 ∧ mxStatus (.mxc always 5 1 1) (some theirs) = 2
    ∧ mxStatus (.mxc always 5 2 1) (some theirs) = 2 ∧ mxStatus (.mxd always 5 6 1) (some theirs) = 2 := by decide +kernel
/-- OPEN of a free region and of one's own; SHAPE within the region and outside it; CLEAR; CLOSE, and CLOSE with work queued. -/
theorem witness_MatrixInstructions_control : let r := mxRegion .empty id
    let free := mxRegion .empty (fun m => { m with owner := none })
    ((mxAfter (.mxc always 5 1 1) free).bind Matrix.owner) = some 0 ∧ mxStatus (.mxc always 5 1 1) (some r) = 0
    ∧ ((mxAfter (.mxc always 5 2 1) r).bind Matrix.shape) = some ⟨0, false, false, 1, 1, 1⟩
    ∧ mxStatus (.mxc always 5 2 1) (some { r with rows := 0 }) = 3
    ∧ ((after (.mxc always 5 3 1) (mx (some (mxRegion .faulted (fun m => { m with fcause := 4 }))))).region 0 1).map (fun r => (r.st, r.matrix.fcause))
      = some (.empty, 0)
    ∧ ((mxAfter (.mxc always 5 4 1) r).bind Matrix.owner) = none
    ∧ (after (.mxc always 5 4 1) (mx (some (mxRegion .busy (fun m => { m with queue := [.wload 8 tileShape []] }))))).thr.st = .park := by decide +kernel
/-- No shape; drains; loads and tiles queued, sparse ones refused; the full queue; a faulted region. -/
theorem witness_MatrixInstructions_work : let r := mxRegion .empty (fun m => { m with drain := some (0x7F1000000200, 16) })
    let bare := mxRegion .empty (fun m => { m with shape := none })
    let full := mxRegion .busy (fun m => { m with queue := List.replicate 4 (.wload 8 tileShape []) })
    let sparse := mxRegion .empty (fun m => { m with shape := some ⟨1, false, true, 1, 1, 1⟩ })
    mxStatus (.mxw always 5 8 1) (some bare) = 3 ∧ mxStatus (.mxd always 5 6 1) (some bare) = 3 ∧ mxStatus (.mxd always 5 8 1) (some r) = 3
    ∧ (mxAfter (.mxd always 5 6 1) (mxRegion .empty id)).bind Matrix.drain = some (0x7F1000000200, 16)
    ∧ mxStatus (.mxd always 5 6 1) (some { r with st := .faulted }) = 4 ∧ mxStatus (.mxw always 5 8 1) (some { r with st := .faulted }) = 4
    ∧ (mxAfter (.mxw always 5 8 1) r).map Matrix.queue = some [.wload 0x7F1000000100 tileShape []]
    ∧ (after (.mxw always 5 8 1) (mx (some full))).thr.st = .park ∧ mxStatus (.mxa always 5 8 1) (some r) = 3
    ∧ (mxAfter (.mxa always 5 8 1) (mxRegion .empty (fun m => { m with drain := some (0x7F1000000200, 16), queue := [.wload 8 tileShape []] }))).map
        (fun m => m.queue.length) = some 2
    ∧ mxStatus (.mxw always 5 8 1) (some sparse) = 3 ∧ mxStatus (.mxmd always 5 8 1) (some r) = 3
    ∧ mxStatus (.mxmd always 5 8 1) (some { sparse with st := .faulted }) = 4 := by decide +kernel
/-- A sparse shape whose one metadata byte names columns 0 and 1 of its groups, and one that names a column twice. -/
theorem witness_MatrixInstructions_sparse : let sparse := mxRegion .empty (fun m => { m with shape := some ⟨1, false, true, 1, 1, 1⟩ })
    let s (b : Byte) : State := { (mx (some sparse)).setThr (((mx (some sparse)).thr.setX 12 0x7F1000000100).setX 13 0x7F1000000300) with
      mem := memWrite (2 ^ 48 + 0x300) [b] [] }
    let done (b : Byte) : State := after (.evThreadResume 0) (after (.mxmd always 5 12 1) (s b))
    (s 0x44).home (2 ^ 48 + 0x300) = .keep 0 0x300 ∧ (s 0x44).bad = [] ∧ (after (.mxmd always 5 12 1) (s 0x44)).thr.park.map Park.op
      = some (.metadata 1 0x7F1000000100 0x7F1000000300 ⟨1, false, true, 1, 1, 1⟩ [⟨0, 2 ^ 48 + 0x300, 1, 0x7F1000000300⟩] 5)
    ∧ (after (.mxmd always 5 12 1) (s 0x44)).thr.park.map Park.reason = some .mem
    ∧ ((done 0x44).region 0 1).map (fun r => r.matrix.queue.length) = some 1 ∧ (done 0x44).thr.pc = 4
    ∧ (done 0x45).thr.tcause.toNat = Cause.metadata.code ∧ (done 0x45).thr.tval = 0x7F1000000300
    ∧ (let full (m : Matrix) : Matrix := { m with queue := List.replicate 4 (.wload 8 tileShape []) }
      (after (.evThreadResume 0) ((after (.mxmd always 5 12 1) (s 0x44)).mapRegion 0 1 (fun r => { r with matrix := full r.matrix }))).thr.park.map Park.reason
        = some .engine)
    ∧ (match (s 0x44).check (s 0x44).ctx ⟨.read, 0x7F1000000300, 1, false, false, false, false, true⟩ with
      | .pass [c] => decide (c.key = 2 ^ 48 + 0x300 ∧ c.len = 1)
      | _ => false) = true := by decide +kernel
/-- R309: MXST of an idle region and of one with an operation queued, with and without its wait. -/
theorem witness_MatrixInstructions_status : let busy := mxRegion .busy (fun m => { m with queue := [.wload 8 tileShape []] })
    mxStatus (.mxst always 5 0 1) (some (mxRegion .empty id)) = 0x21 ∧ mxStatus (.mxst always 5 0 1) (some busy) = 0x126
    ∧ (after (.mxst always 5 14 1) { mx (some busy) with slots := ((mx (some busy)).setThr ((mx (some busy)).thr.setX 14 4)).slots }).thr.st = .park := by
  decide +kernel

/-- R297 to R303: a load starts, reads its header and its elements, and comes into force. -/
noncomputable def mxRun (i : Instr) (f : Matrix → Matrix) : Option (RState × Matrix) :=
  ((after i (mx (some (mxRegion .busy f)))).region 0 1).map (fun r => (r.st, r.matrix))
def loadRun : MatRun := ⟨.wload 0x7F1000000100 tileShape [], false, 0x7F1000000100, 0, 0, ⟨0, 0, false, 0, 0⟩, 0, false, [], false⟩
def tileRun : MatRun := ⟨.tile 0x7F1000000100 tileShape 0x7F1000000200 16, false, 0x7F1000000108, 0, 0, ⟨0, 0, true, 2, 127⟩, 2, false, [], false⟩
def inForce : Weights := ⟨tileShape, 0, [], [some (.fin false 1 1), some (.fin false 1 0)]⟩
theorem witness_MatrixSteps_start :
    (mxRun (.evMatrixOpStart 0 1) (fun m => { m with queue := [.wload 0x7F1000000100 tileShape []] })).map (fun x => x.2.run.map (fun u => (u.next, u.left)))
      = some (some (0x7F1000000100, 0))
    ∧ (mxRun (.evMatrixOpStart 0 1) (fun m => { m with queue := [.tile 0x7F1000000100 tileShape 8 8], weights := some { inForce with shape := { tileShape with uc := 2 } } })).map
      (fun x => (x.1, x.2.fcause, x.2.ftsub)) = some (.faulted, Cause.shape.code, 0x12)
    ∧ (mxRun (.evMatrixOpStart 0 1) (fun m => { m with queue := [.tile 0x7F1000000100 tileShape 8 8], weights := some inForce })).map
      (fun x => x.2.run.map (fun u => u.again)) = some (some false)
    ∧ (mxRun (.evMatrixOpStart 0 1) (fun m => { m with queue := [.tile 0x7F1000000100 tileShape 8 8], weights := some inForce, reload := true })).map
      (fun x => x.2.run.map (fun u => u.again)) = some (some true) := by decide +kernel
theorem witness_MatrixSteps_stream : tileOf 0 ≠ none
    ∧ (match ((mx (some (mxRegion .busy id))).engineRead ⟨0, 0, 0, Vector.replicate 5 0, .kernel⟩ 0x7F1000000100 8 true).2 with
      | .ok bs => decide (bs = leBytes 8 0x010000000000827F)
      | _ => false) = true
    ∧ (mxRun (.evMatrixStreamRead 0 1) (fun m => { m with queue := [loadRun.op], run := some loadRun })).map (fun x => x.2.run.map (fun u => (u.left, u.hdr.len)))
      = some (some (2, 2))
    ∧ (mxRun (.evMatrixStreamRead 0 1) (fun m => { m with queue := [loadRun.op], run := some { loadRun with next := 0x7F1000000108 } })).map
      (fun x => (x.1, x.2.ftsub)) = some (.faulted, 0x40)
    ∧ (mxRun (.evMatrixStreamRead 0 1) (fun m => { m with queue := [loadRun.op], run := some { loadRun with op := .wload 0x7F1000000100 { tileShape with uc := 2 } [] } })).map
      (fun x => (x.1, x.2.ftsub)) = some (.faulted, 0x11)
    ∧ (mxRun (.evMatrixStreamRead 0 1) (fun m => { m with queue := [loadRun.op], run := some { loadRun with op := .wload 0x7F1000000100 { tileShape with fmt := 3 } [] } })).map
      (fun x => (x.1, x.2.ftsub)) = some (.faulted, 0x10) := by decide +kernel
theorem witness_MatrixSteps_elements :
    (mxRun (.evMatrixStreamRead 0 1) (fun m => { m with queue := [loadRun.op], run := some { tileRun with op := loadRun.op } })).map
      (fun x => (x.1, x.2.queue.length, x.2.weights.isSome)) = some (.empty, 0, true)
    ∧ (mxRun (.evMatrixStreamRead 0 1) (fun m => { m with queue := [tileRun.op], weights := some inForce, run := some tileRun })).map
      (fun x => x.2.run.map (fun u => (u.unit, u.elems.length, u.done))) = some (some (1, 2, true)) := by decide +kernel
/-- R301: the row 2.0 × 2.0 + 1.0 × 1.0 = 5.0 is stored at the drain's address; R311: HALT between operations. -/
theorem witness_MatrixSteps_drain : let done : MatRun := { tileRun with unit := 1, done := true, elems := [.fin false 1 1, .fin false 1 0] }
    let s := mx (some (mxRegion .busy (fun m => { m with queue := [tileRun.op], weights := some inForce, run := some done })))
    bytesAt (after (.evRowDrain 0 1) s) (2 ^ 48 + 0x200) 4 = 0x40A00000 ∧ ((after (.evRowDrain 0 1) s).region 0 1).map Region.st = some .empty
    ∧ (s.engineStore ⟨0, 0, 0, Vector.replicate 5 0, .kernel⟩ 0x7F1000000200 (leBytes 4 0x40A00000) true).2 = none
    ∧ ((after (.evMatrixHalt 0 1) (mx (some { mxRegion .busy id with halt := true }))).region 0 1).map Region.st = some .halted := by decide +kernel
/-- R314: a resumed region reads the weights in force again, and is IDLE after it. -/
theorem witness_MatrixSteps_again : let r (run : Option MatRun) : Region := mxRegion .halted (fun m => { m with weights := some inForce, reload := true, run := run })
    ((after (.evMatrixOpStart 0 1) (mx (some (r none)))).region 0 1).map (fun x => x.matrix.run.map (fun u => (u.next, u.again))) = some (some (0, true))
    ∧ (let load : MatRun := { loadRun with op := .wload 0x7F1000000100 tileShape [], again := true }
      ((after (.evMatrixStreamRead 0 1) (mx (some (r (some { tileRun with op := load.op, again := true }))))).region 0 1).map
        (fun x => (x.st, x.matrix.reload, x.matrix.run.isNone)) = some (.empty, false, true)) := by decide +kernel

/-- R312, R409: the control token of a load, and a token at a row that the tile does not use. R406: one cell has computed a row. -/
def watched (row : Nat) (m : Matrix → Matrix) : State :=
  mx (some { mxRegion .busy m with bks := #v[⟨true, 0, row, 0, 28, 9, 3, false⟩, Breakpoint.reset, Breakpoint.reset, Breakpoint.reset] })
noncomputable def west (i : Instr) (row : Nat) (m : Matrix → Matrix) : Option Nat :=
  ((after i (watched row m)).region 0 1).map (fun r => r.bks[0].count.toNat)
theorem witness_MatrixSteps_west : west (.evMatrixOpStart 0 1) 0 (fun m => { m with queue := [.wload 0x7F1000000100 tileShape []] }) = some 4
    ∧ west (.evMatrixOpStart 0 1) 1 (fun m => { m with queue := [.wload 0x7F1000000100 tileShape []] }) = some 3
    ∧ west (.evMatrixStreamRead 0 1) 0 (fun m => { m with queue := [loadRun.op], run := some loadRun }) = some 4
    ∧ (mxRegion .busy id).columns = [0, 1, 2, 3, 4, 5, 6]
    ∧ (MatOp.tile 0 ⟨3, true, false, 2, 3, 5⟩ 8 8).control = 0x0293810800040000 := by decide +kernel
theorem witness_MatrixSteps_cells : (Region.cellsFire tileShape (mxRegion .busy id)).fired = [⟨0, 0, 0⟩]
    ∧ (mxRegion .busy (fun m => { m with run := some { tileRun with done := true } })).placeClass ⟨0, 0, 0⟩ = 5 := by decide +kernel

/-! ## Copies -/

/-- Thread 0 with channel 2 of its spire; x20 and x21 a source and a destination in the keep, x22 and x23 a level descriptor of
four 8-byte elements, x24 a level of no element, x26 and x27 an end past the address space, x28 to x30 the modes and −1. -/
def cp (k : Channel) : State :=
  let s := ker [(20, 0x7F1000000100), (21, 0x7F1000000400), (22, 0x0000040000000008), (23, 0x0000300000000008), (24, 0x0000000000000008),
    (25, 0x0000300000000008), (26, 0x7F1000000100), (27, 0xFFFFFFFFFFF8), (28, 0), (29, 1), (30, -1), (31, 9)] (2 ^ 48 + 0x100) [1, 2, 3, 4, 5, 6, 7, 8, 9]
  s.setSpire 0 ((s.spire 0).setChannel 2 k)
def four : CopyShape := ⟨(Vector.replicate 8 ⟨1, 0, 0⟩).set 0 ⟨4, 8, 8⟩, 3⟩
def entry (st : CopyState) : CopyEntry :=
  ⟨four, 0x7F1000000100, 0x7F1000000400, 0, .thread 0, 0, 0, Vector.replicate 5 0, .kernel, none, st, 0, 0x7F1000000400, 0, [], 0, false⟩
def chan (q : List CopyEntry) : Channel := { Channel.reset with shape := four, owner := some 0, queue := q }
abbrev cpStatus (i : Instr) (k : Channel) : Word := (after i (cp k)).getX 5
def cpAfter (i : Instr) (k : Channel) : Channel := ((after i (cp k)).spire 0).channel 2

/-- R319, R320: a level staged, one refused, one staged over another thread's shape. -/
theorem witness_CopyInstructions_shape : (cp (chan [])).guardOk always = true ∧ cpStatus (.cshp always 5 26 2) (chan []) = 3
    ∧ (cpAfter (.cshp always 5 22 2) Channel.reset).shape = four ∧ (cpAfter (.cshp always 5 22 2) Channel.reset).owner = some 0
    ∧ cpStatus (.cshp always 5 22 2) { chan [] with owner := some 9 } = 1 := by decide +kernel
/-- R320 to R323: refusals, traps, parks, and a copy that starts or waits. -/
theorem witness_CopyInstructions_issue : let t (i : Instr) (k : Channel) : Nat × Word := ((after i (cp k)).thr.tcause.toNat, (after i (cp k)).thr.tsub)
    cpStatus (.cpy always 5 20 0 2) { chan [] with owner := some 9 } = 2 ∧ cpStatus (.cpy always 5 20 1 2) (chan []) = 3
    ∧ t (.cpy always 31 20 0 2) (chan []) = (Cause.align.code, 1)
    ∧ t (.cpy always 5 20 0 2) { chan [] with shape := { four with levels := four.levels.set 0 ⟨0, 8, 8⟩ } } = (Cause.shape.code, 1)
    ∧ t (.cpy always 5 20 0 2) { chan [] with shape := { four with levels := four.levels.set 0 ⟨4, 8, -8⟩ } } = (Cause.shape.code, 2)
    ∧ t (.cpy always 5 26 0 2) (chan []) = (Cause.shape.code, 3)
    ∧ (after (.cpy always 5 20 0 2) (cp (chan (List.replicate 4 (entry .queued))))).thr.st = .park
    ∧ (cpAfter (.cpy always 0 20 0 2) (chan [])).queue = [entry .landing]
    ∧ (cpAfter (.cpy always 0 20 0 2) (chan [entry .landing])).queue.map CopyEntry.st = [.landing, .queued] := by decide +kernel
theorem witness_CopyInstructions_drained : (after (.cpy always 5 20 0 2) (after (.sd always 5 20 0) (cp (chan [])))).thr.st = .park
    ∧ (four.monotone = true) ∧ four.span = 32 ∧ windowCrosses 0 0x7F1000000400 32 = false ∧ windowCrosses 0 0x7F10002FFFF8 32 = true := by decide +kernel
/-- R330, R331, R334, R335: the channel registers, RESUME, CLEAR and the abort, each with its refusals. -/
theorem witness_CopyInstructions_registers : cpStatus (.cpyq always 5 28 2) (chan [entry .landing]) = 0x101
    ∧ cpStatus (.cpyres always 5 31 2) (chan []) = 3 ∧ cpStatus (.cpyres always 5 28 2) (chan [entry .landing]) = 1
    ∧ (cpAfter (.cpyres always 5 28 2) (chan [entry .frozen])).queue.map CopyEntry.st = [.landing]
    ∧ cpStatus (.cpyres always 5 29 2) (chan []) = 1 ∧ (cpAfter (.cpyres always 5 29 2) (chan [entry .aborted])).queue = []
    ∧ cpStatus (.cpyabt always 5 0 2) (chan []) = 1 ∧ (cpAfter (.cpyabt always 5 0 2) (chan [entry .landing])).queue.map CopyEntry.st = [.aborted]
    ∧ (after (.wmrd always 5 2) (cp { chan [] with wm := 7 })).getX 5 = 7 := by decide +kernel
theorem witness_CopyInstructions_others : let s := (cp (chan [{ entry .frozen with asid := 3 }])).setThr { (cp (chan [])).thr with prv := .user }
    let u := (cp (chan [{ entry .aborted with asid := 3 }])).setThr { (cp (chan [])).thr with prv := .user }
    (after (.cpyres always 5 28 2) s).getX 5 = 2 ∧ (after (.cpyabt always 5 0 2) s).getX 5 = 2 ∧ (after (.cpyres always 5 29 2) u).getX 5 = 2 := by
  decide +kernel
/-- R333, R335: WMWAIT for the channel, and for an address of translated space that a copy has not reached or has. -/
def spaceCopy (wm : BitVec 48) : CopyEntry := { entry .landing with dst := 0x100000, wm := wm }
theorem witness_CopyInstructions_marks : (after (.wmwait always 5 30 2) (cp (chan [entry .landing]))).thr.st = .park
    ∧ cpStatus (.wmwait always 5 30 2) (chan [entry .aborted]) = 0x8100
    ∧ (let s (wm : BitVec 48) := (cp (chan [spaceCopy wm])).setThr ((cp (chan [])).thr.setX 9 0x100008)
      zoneOf 0 0x100008 = .space ∧ (after (.wmwait always 5 9 2) (s 0x100008)).thr.st = .park
      ∧ (after (.wmwait always 5 9 2) (s 0x100010)).thr.st = .run ∧ (after (.wmwait always 5 9 2) (s 0x100010)).getX 5 = 0x101) := by decide +kernel

/-- R321 to R325: an element between keeps lands; the last one ends the copy or makes its signal due; a checked address that fails. -/
theorem witness_CopySteps_land : let ev (e : CopyEntry) : State := after (.evElementLand 0 2) (cp (chan [e]))
    bytesAt (ev (entry .landing)) (2 ^ 48 + 0x400) 8 = 0x0807060504030201
    ∧ ((ev (entry .landing)).spire 0).channel 2 = { chan [{ entry .landing with next := 1, wm := 0x7F1000000408 }] with wm := 0x7F1000000408 }
    ∧ (((ev { entry .landing with next := 3 }).spire 0).channel 2).queue = []
    ∧ (((ev { entry .landing with next := 3, sig := 0x7F1000000800 }).spire 0).channel 2).queue.map CopyEntry.st = [.signal]
    ∧ (((ev { entry .landing with src := 0x600000, issuer := .command 3 0 }).spire 0).channel 2).queue.map CopyEntry.st = [.frozen] := by decide +kernel
theorem witness_CopySteps_checks : let s := cp (chan [entry .landing])
    let rights : Ctx := ⟨0, 0, 0, Vector.replicate 5 0, .kernel⟩
    (s.engineCheck rights (.load 0x7F1000000100 8) false).1 = s
    ∧ (s.engineCheck rights (.load 0x7F1000000100 8) false).2 = .pass [⟨0x7F1000000100, 2 ^ 48 + 0x100, 8, true, true, false⟩]
    ∧ (s.engineCheck rights (.store 0x7F1000000400 8) false).2 = .pass [⟨0x7F1000000400, 2 ^ 48 + 0x400, 8, true, true, false⟩]
    ∧ ((s.engineCheck rights (.load 0x600000 8) false).2 matches .fault _) = true := by decide +kernel
/-- R328: the signal of a copy arrives at its word. -/
theorem witness_CopySteps_signal : let s := cp (chan [{ entry .signal with sig := 0x7F1000000800 }])
    bytesAt (after (.evCopySignal 0 2) s) (2 ^ 48 + 0x800) 8 = 0x1000000 ∧ (((after (.evCopySignal 0 2) s).spire 0).channel 2).queue = []
    ∧ (s.spire 0).cache = [] ∧ s.peerOut = [] := by decide +kernel
/-- R323: eight bytes of a port copy leave as a token with the issuer's tag. -/
theorem witness_CopySteps_port : let e : CopyEntry := { entry .landing with port := some ⟨5, 0, 0⟩, next := 1, wm := 0 }
    let s := cp (chan [e])
    let u (held : List (PortId × List Token)) := s.setSpire 0 { s.spire 0 with regions := [(5, { Region.create 0 0 4 8 1 0 0 with
      queues := held, st := .placed, active := some ⟨4, 8, 0, 0, 1, [⟨0, 0, nodeWord 62 0 0 0, [], ⟨0, 7, 13⟩, 0, 1⟩], []⟩ })] }
    let full := u [(⟨⟨0, 7, 13⟩, 0⟩, List.replicate 8 (dt 5 0))]
    s.bad = [] ∧ (s.spire 0).wins 0 = [] ∧ ((after (.evElementLand 0 2) (u [])).region 0 5).map (fun r => (r.tokens ⟨⟨0, 7, 13⟩, 0⟩).map Token.payload) = some [9]
    ∧ (((after (.evElementLand 0 2) (u [])).spire 0).channel 2).wm = 8
    ∧ (((after (.evElementLand 0 2) full).spire 0).channel 2).wm = 0
    ∧ (((after (.evElementLand 0 2) full).spire 0).channel 2).queue.map CopyEntry.hold = [[9, 0, 0, 0, 0, 0, 0, 0]] := by decide +kernel
/-- R320 to R336: the conditions under which each form of the tongs completes. -/
theorem witness_CopyFamilyCompletes : let s := cp (chan [])
    s.guardOk always = true ∧ (s.getX 23).toNat < 2 ^ 48 ∧ s.thr.queue = [] ∧ (s.getX 21).toNat + four.span.toNat ≤ 2 ^ 48
    ∧ four.levels.toList.all (fun l => decide (l.cnt ≠ 0)) = true ∧ (s.getX 0).toNat % 8 = 0
    ∧ cpStatus (.cpyres always 5 28 2) (chan [entry .frozen]) = 0 ∧ cpStatus (.cpyres always 5 29 2) (chan [entry .aborted]) = 0
    ∧ (after (.cpyabt always 5 1 2) (cp (chan [entry .landing, entry .queued]))).getX 5 = 0
    ∧ (cpAfter (.cpyabt always 5 1 2) (chan [entry .landing, entry .queued])).queue.map CopyEntry.st = [.aborted, .aborted]
    ∧ (⟨0, 0, 0, Vector.replicate 5 0, .kernel⟩ : Ctx).keepRight 0 .readWrite = true := by decide +kernel
theorem witness_CopyFamilyCompletes_engine : let e : CopyEntry := { entry .signal with sig := 0x7F1000000800, wm := 0x7F1000000420 }
    ((entry .landing).source 0).toNat = 0x7F1000000000 + 0x100 ∧ ((entry .landing).target 0).toNat = 0x7F1000000000 + 0x400
    ∧ (cp (chan [entry .landing])).bad = [] ∧ e.wm = (e.dst + BitVec.ofInt 64 e.shape.span).setWidth 48 ∧ 0 ≤ e.shape.span
    ∧ ((cp (chan [e])).spire 0).cache = [] ∧ bytesAt (cp (chan [e])) (keepKey 0 0x800) 8 / 2 ^ 24 % 2 ^ 24 ≠ 2 ^ 24 - 1
    ∧ (((after (.evCopySignal 0 2) (cp (chan [e]))).spire 0).channel 2).queue = [] := by decide +kernel

/-! ## The crucible -/

/-- Thread 0 with context 0 of its spire; x1 opens a context of four buffered elements, x2 resumes, x3 releases, x4 is a bad control
word; x10 and x11 a stream of two pairs, x12 and x13 a key and a value, x14 and x15 a spill area, x16 a descriptor; memory: the stream's
pairs (3, 2.0) and (5, 1.0) at offset 0x100, and a descriptor of a pair list at offset 0x200 with a limit of 8. -/
def mg (f : Context → Context) : State :=
  let s := ker [(1, 0x30004), (2, 1), (3, 2), (4, 3), (10, 0x7F1000000100), (11, 2), (12, 3), (13, 0x3F800000), (14, 0x7F1000001000), (15, 0x7F1000002000),
    (16, 0x7F1000000200), (17, 0x7F1000000101), (18, 0x7F1000000104), (19, 0x7F1000000400)]
    (2 ^ 48 + 0x100) (leBytes 8 3 ++ leBytes 8 0x40000000 ++ leBytes 8 5 ++ leBytes 8 0x3F800000)
  { s.setContext 0 0 (f { Context.reset with st := .open_, owner := some 0, prv := .kernel, cap := 4, mode := true }) with
    mem := memWrite (2 ^ 48 + 0x200) (leBytes 8 0 ++ leBytes 8 0x7F1000003000 ++ leBytes 8 0 ++ leBytes 8 0 ++ leBytes 8 8 ++ leBytes 8 0) s.mem }
abbrev mgStatus (i : Instr) (f : Context → Context) : Word := (after i (mg f)).getX 5
def mgAfter (i : Instr) (f : Context → Context) : Context := (after i (mg f)).context 0 0
def mgParks (i : Instr) (f : Context → Context) : Bool := decide ((after i (mg f)).thr.st = .park)
def freed (_ : Context) : Context := Context.reset
def theirs (v : Context) : Context := { v with owner := some 9 }
def frozen (v : Context) : Context := { v with st := .frozen, kept := .open_, ftsub := 5, faddr := 8 }

/-- R341, R342: MSTART's rows. -/
theorem witness_MergeInstructions_start : (mg id).guardOk always = true ∧ mgStatus (.mstart always 5 4 0) id = 3 ∧ mgStatus (.mstart always 5 1 0) id = 1
    ∧ mgStatus (.mstart always 5 1 0) theirs = 2 ∧ (mgAfter (.mstart always 5 1 0) freed).st = .open_ ∧ (mgAfter (.mstart always 5 1 0) freed).cap = 4
    ∧ mgStatus (.mstart always 5 1 0) (fun _ => Context.reset) = 0
    ∧ (after (.mstart always 5 1 0) ((mg freed).setContext 0 1 { Context.reset with cap := 32766 })).getX 5 = 4
    ∧ mgStatus (.mstart always 5 2 0) theirs = 2 ∧ mgStatus (.mstart always 5 2 0) id = 1 ∧ (mgAfter (.mstart always 5 2 0) frozen).st = .open_
    ∧ mgParks (.mstart always 5 3 0) (fun v => { v with st := .final }) = true ∧ (mgAfter (.mstart always 5 3 0) id).st = .free := by decide +kernel
/-- R344, R345: MSTRM and MPUSH. -/
theorem witness_MergeInstructions_streams : (after (.mstrm always 5 17 0 0 3) (mg id)).thr.tcause.toNat = Cause.align.code
    ∧ mgStatus (.mstrm always 5 10 0 0 3) theirs = 2 ∧ (after (.mstrm always 5 10 0 0 3) (mg frozen)).thr.tcause.toNat = Cause.mergeStop.code
    ∧ mgStatus (.mstrm always 5 10 0 0 3) (fun v => { v with st := .final }) = 1 ∧ mgStatus (.mstrm always 5 10 0 1 3) id = 3
    ∧ (mgAfter (.mstrm always 5 10 0 0 3) id).streams[3] = some ⟨0x7F1000000100, 2, 0, false, false, []⟩
    ∧ mgParks (.mstrm always 5 10 0 0 3) (fun v => { v with streams := v.streams.set 3 (some ⟨0, 2, 0, false, false, []⟩) }) = true := by decide +kernel
theorem witness_MergeInstructions_push : mgStatus (.mpush always 5 12 0 3) theirs = 2
    ∧ mgStatus (.mpush always 5 12 0 3) (fun v => { v with st := .final }) = 1 ∧ mgStatus (.mpush always 5 12 0 3) (fun v => { v with mode := false }) = 3
    ∧ mgParks (.mpush always 5 12 0 3) (fun v => { v with cap := 0 }) = true ∧ (mgAfter (.mpush always 5 12 0 3) id).buffer = [⟨3, 0x3F800000, 3⟩] := by
  decide +kernel
/-- R349, R355: MSPILL and MSTAT. -/
theorem witness_MergeInstructions_spill : mgStatus (.mspill always 5 14 0) theirs = 2 ∧ mgStatus (.mspill always 5 14 0) (fun v => { v with st := .final }) = 1
    ∧ mgStatus (.mspill always 5 12 0) id = 3 ∧ (mgAfter (.mspill always 5 14 0) id).spnext = 0x7F1000001000
    ∧ (mgAfter (.mspill always 5 14 0) (fun v => { v with runList := [(0, 1)], spbase := 0x7F1000001000, splimit := 0x7F1000001800 })).splimit = 0x7F1000002000
    ∧ mgStatus (.mstat always 5 0 0) freed = 0 ∧ mgStatus (.mstat always 5 0 0) id = 0x19 := by decide +kernel
/-- R350, R352: MFIN and the set members begun from their blocks, and their refusals. -/
theorem witness_MergeInstructions_finish : (after (.mfin always 5 17 0) (mg id)).thr.tcause.toNat = Cause.align.code ∧ mgStatus (.mfin always 5 16 0) theirs = -2
    ∧ (mgAfter (.mfin always 5 16 0) id).st = .final ∧ mgParks (.mfin always 5 16 0) id = true ∧ mgParks (.mfin always 5 16 0) (fun v => { v with st := .final }) = true
    ∧ mgStatus (.mfin always 5 16 0) (fun v => { v with st := .setop }) = -1 ∧ mgStatus (.xcnt always 5 16 0) (fun v => { v with st := .final }) = -1
    ∧ mgStatus (.xsect always 5 16 0) (fun v => { v with buffer := [⟨3, 0, 0⟩] }) = -1 ∧ mgStatus (.mfin always 5 10 0) id = -3
    ∧ mgStatus (.xsect always 5 10 0) id = -3 ∧ (mgAfter (.xunion always 5 18 0) (fun v => v)).st = .open_ ∧ (mgAfter (.xunion always 5 19 0) id).st = .setop := by
  decide +kernel
theorem witness_MergeInstructions_check : (match (mg id).check (mg id).ctx ⟨.read, 0x7F1000000200, 48, false, false, false, false, true⟩ with
      | .pass [e] => decide (e.va = 0x7F1000000200 ∧ e.len = 48 ∧ e.key = 2 ^ 48 + 0x200)
      | _ => false) = true := by decide +kernel

/-- R346 to R348: a reader takes a pair into the buffer or its stream, or finds the keys out of order. -/
def reading (x : Stream) (v : Context) : Context := { v with streams := v.streams.set 3 (some x) }
theorem witness_MergeSteps_read : let x : Stream := ⟨0x7F1000000100, 2, 0, false, false, []⟩
    (mgAfter (.evStreamRead 0 0 3) (reading x)).buffer = [⟨3, 0x40000000, 3⟩]
    ∧ ((mgAfter (.evStreamRead 0 0 3) (fun v => { reading x v with mode := false })).streams[3]).map Stream.items = some [(3, 0x40000000)]
    ∧ (mgAfter (.evStreamRead 0 0 3) (fun v => { reading { x with items := [(9, 0)] } v with mode := false })).ftsub = 0x3000005
    ∧ ((mg id).slot 0).park = none
    ∧ (match ((mg id).engineRead ⟨0, 0, 0, Vector.replicate 5 0, .kernel⟩ 0x7F1000000100 16 true).2 with
      | .ok bs => decide (bs = leBytes 8 3 ++ leBytes 8 0x40000000)
      | _ => false) = true := by decide +kernel
/-- R348: a buffer of one element spilled into 64 bytes, and into an area of 32. -/
theorem witness_MergeSteps_spill : let f (limit : Word) (v : Context) : Context :=
      { v with spilling := true, buffer := [⟨3, 0x40000000, 3⟩], spbase := 0x7F1000001000, spnext := 0x7F1000001000, splimit := limit }
    (mgAfter (.evSpill 0 0) (f 0x7F1000002000)).runList = [(0x7F1000001000, 1)] ∧ (mgAfter (.evSpill 0 0) (f 0x7F1000002000)).spnext = 0x7F1000001040
    ∧ bytesAt (after (.evSpill 0 0) (mg (f 0x7F1000002000))) (2 ^ 48 + 0x1020) 8 = 3 ∧ (mgAfter (.evSpill 0 0) (f 0x7F1000001020)).st = .frozen
    ∧ (mgAfter (.evSpill 0 0) (f 0x7F1000001020)).faddr = 0x7F1000001040 := by decide +kernel
/-- R350: two streams with a key in common are folded into a pair list; R352: two lists whose last keys are equal. -/
def finishing (v : Context) : Context :=
  { v with
    st := .final, mode := false, desc := some ⟨0, 0x7F1000003000, 0, 0, 8, 0, 0⟩
    streams := (v.streams.set 0 (some ⟨0, 1, 1, false, false, [(3, 0x40000000)]⟩)).set 1 (some ⟨0, 2, 2, false, false, [(3, 0x3F800000), (5, 0x3F800000)]⟩) }
def parkedAt (op : ParkOp) (s : State) : State := s.setThr { s.thr with st := .park, park := some ⟨.engine, op, 0, false, 0⟩ }
theorem witness_MergeSteps_finish : let t := after (.evMergeFinish 0 0) (parkedAt (.merge 0 5) (mg finishing))
    t.getX 5 = 2 ∧ (t.context 0 0).st = .open_ ∧ bytesAt t (2 ^ 48 + 0x3000) 8 = 3 ∧ bytesAt t (2 ^ 48 + 0x3008) 4 = 0x40400000
    ∧ bytesAt t (2 ^ 48 + 0x3010) 8 = 5 ∧ t.thr.st = .run := by decide +kernel
theorem witness_MergeSteps_set : let o : SetOp := ⟨8, 0x7F1000000100, 1, 0x7F1000000110, 1, 0, 0, 0, 0, some 3, some 3, none, none, 4, false⟩
    let t := after (.evSetOperation 0 0) (parkedAt (.merge 0 5) (mg (fun v => { v with st := .setop, setop := some o })))
    t.getX 5 = 5 ∧ (t.context 0 0).st = .open_
    ∧ (after (.evSetOperation 0 0) (parkedAt (.merge 0 5) (mg (fun v => { v with st := .setop, setop := some { o with kind := 7, hq := some 9 } })))).getX 5 = 6 := by
  decide +kernel

/-! ## Control registers, slots and regions administered -/

/-- Thread 0 at kernel privilege, its flags and trap registers written. -/
def csr : State := { one (fun v => { (v.setX 1 0x30304).setX 2 7 with
    prv := .kernel, fl := 5, en := 3, tvec := 0x800, tepc := 0x44, tcause := 9, sStale := true, drops := 2, wFired := true, wLimit := 6, asid := 3 }) with now := 40 }
/-- R48, R83: the old FCSR is RM 0, EN 3, FL 5; the written one has RM 3, EN 3, FL 4. -/
theorem witness_ControlRegisters : csr.guardOk always = true ∧ csr.thr.prv ≠ .user ∧ csr.tid < 65536
    ∧ (after (.csrrw always 5 1 0x001) csr).getX 5 = 0x305 ∧ (after (.csrrw always 5 1 0x001) csr).thr.fl = 4
    ∧ (after (.csrrw always 5 1 0x001) csr).thr.rm.code = 3 ∧ (after (.csrrs always 5 0 0x001) csr).getX 5 = 0x305
    ∧ (after (.csrrc always 5 2 0x001) csr).thr.fl = 0 := by decide +kernel
/-- R156, R134, R359 to R361: SENDST's W1C bits, TVEC, TSTAT, WDOG, ASID, KWIN, and the counts. -/
theorem witness_ControlRegisters_each : (after (.csrrw always 5 2 0x002) csr).getX 5 = 0x20001 ∧ (after (.csrrw always 5 2 0x002) csr).thr.sStale = false
    ∧ (after (.csrrs always 5 0 0x002) csr).thr.sStale = true ∧ (after (.csrrw always 5 1 0x080) csr).getX 5 = 32
    ∧ (after (.csrrs always 5 1 0x081) csr).getX 5 = 32 ∧ (after (.csrrw always 5 1 0x100) csr).thr.tvec = 0x30304
    ∧ (after (.csrrc always 5 1 0x101) csr).getX 5 = 1 ∧ (after (.csrrw always 5 1 0x102) csr).getX 5 = 0x44
    ∧ (after (.csrrw always 5 1 0x103) csr).thr.tcause = 4 ∧ (after (.csrrs always 5 1 0x104) csr).thr.tsub = 0x30304
    ∧ (after (.csrrw always 5 1 0x106) csr).thr.tnode = 0x30300 ∧ (after (.csrrw always 5 1 0x109) csr).getX 5 = 0x100000006
    ∧ (after (.csrrw always 5 1 0x10A) csr).thr.asid = 0x304 ∧ (after (.csrrw always 5 1 0x10B) csr).thr.ptbr = 0x30000
    ∧ (after (.csrrw always 5 1 0x110) csr).thr.kwin[4] = 0x30304 := by decide +kernel
theorem test_ControlRegisters_user : (after (.csrrw always 5 1 0x100) (one id)).thr.tcause.toNat = Cause.priv.code := by decide +kernel

/-- R371: TLBI of an address, of an address space and of everything in the spire; a bad control word; a queue not empty. -/
def translated : State :=
  let s := ker [(1, 0x5000), (2, 4), (3, 0x30005), (4, 7), (6, 3)] 0 []
  s.setSpire 0 { s.spire 0 with tlb := [⟨0, false, 0x5000, 12, 0x9000, true, true, true, true, true, false⟩, ⟨3, false, 0x5000, 12, 0xA000, true, true, true, true, true, false⟩,
    ⟨0, true, 0x8000, 12, 0xB000, true, true, true, true, true, false⟩] }
theorem witness_SlotAdministration_tlbi : let left (b : Reg) : List Nat := ((after (.tlbi always 5 1 b) translated).spire 0).tlb.map TlbEntry.pa
    translated.guardOk always = true ∧ translated.thr.prv ≠ .user ∧ translated.thr.queue = [] ∧ left 2 = [0xA000, 0xB000] ∧ left 3 = [0x9000, 0xB000]
    ∧ left 4 = [] ∧ (after (.tlbi always 5 1 6) translated).getX 5 = 3 ∧ (after (.tlbi always 5 1 2) translated).thr.st = .park
    ∧ (let u := (after (.sd always 5 6 0) (translated.setThr (translated.thr.setX 6 0x7F1000000000)))
      u.thr.queue ≠ [] ∧ (after (.tlbi always 5 1 2) u).thr.st = .park) := by decide +kernel

/-- R371: a thread of the scope that waits for a sync word through a dropped translation waits no more: it asks anew. -/
theorem witness_SlotAdministration_waiting :
    let k : Park := ⟨.sync, .sync ⟨.ldf, 2 ^ 48 + 16, 16, false, .spire, 5, 0, 0⟩ true true, 0, false, 0⟩
    let s := { translated.setSlot 1 { Slot.reset with st := .park, park := some k } with waits := [(2 ^ 48 + 16, 1)] }
    let t := after (.tlbi always 5 1 2) s
    (t.slot 1).st = .park ∧ (t.slot 1).park.map Park.op = some (.wait .now) ∧ t.waits = [] := by decide +kernel

/-- Thread 0 at kernel privilege beside thread 1 of generation 7 at user privilege, running at 0x40; x1 its handle, x3 the save area, x4 a
handle of nobody. -/
def beside (f : Slot → Slot) : State :=
  let s := ker [(1, 0x070001), (2, 1), (3, 0x7F1000000400), (4, 0x080001), (6, 2), (7, 9), (8, 0x7F1000000410)] 0 []
  s.setSlot 1 (f { ({ Slot.reset with st := .run, gen := 7, pc := 0x40 } : Slot).setX 9 0x55 with tscr0 := 12, work := 3 })
noncomputable def ctlStatus (b a : Reg) (f : Slot → Slot) : Word := (after (.slotctl always 5 a b) (beside f)).getX 5
/-- R373, R374: SLOTCTL's statuses, QUERY's word (pc 0x40, generation 7, RUN), hold and release. -/
theorem witness_SlotAdministration_control : (beside id).guardOk always = true ∧ ctlStatus 7 1 id = 3 ∧ ctlStatus 0 0 id = 3 ∧ ctlStatus 0 4 id = 1
    ∧ ctlStatus 0 1 (fun _ => Slot.reset) = 1 ∧ ctlStatus 0 1 (fun v => { v with prv := .lantern }) = 2
    ∧ ctlStatus 0 1 id = 16 * 2 ^ 18 + 0x701 ∧ ((after (.slotctl always 5 1 2) (beside id)).slot 1).held = true
    ∧ ((after (.slotctl always 5 1 6) (beside (fun v => { v with held := true }))).slot 1).held = false := by decide +kernel
/-- R375, R377: SLOTSAVE's statuses, and a thread saved. -/
noncomputable def savedIn (o n : Nat) : Nat := bytesAt (after (.slotsave always 5 1 3) (beside id)) (2 ^ 48 + 0x400 + o) n
theorem witness_SlotAdministration_save : (after (.slotsave always 5 1 8) (beside id)).getX 5 = 3 ∧ (after (.slotsave always 5 4 3) (beside id)).getX 5 = 1
    ∧ (after (.slotsave always 5 1 3) ((beside id).setDie 0 { Die.reset with absent := [⟨0x070001, none, [], none⟩] })).getX 5 = 1
    ∧ (after (.slotsave always 5 1 3) ((beside id).setDie 0 { Die.reset with absent := List.replicate 256 ⟨0, none, [], none⟩ })).getX 5 = 4
    ∧ (after (.slotsave always 5 1 3) (beside (fun v => { v with queue := [.store 0 []] }))).thr.st = .park
    ∧ (let t := after (.slotsave always 5 1 3) (beside id)
      t.getX 5 = 0 ∧ t.thr.pc = 4 ∧ (t.slot 1).st = .free ∧ (t.slot 1).gen = 7 ∧ (t.slot 1).tscr0 = 12
      ∧ t.die0.absent = [⟨0x070001, none, [], some (2 ^ 48 + 0x400)⟩])
    ∧ savedIn 0 8 = 0x070001 ∧ savedIn 8 8 = 0x40 ∧ savedIn 0x10 8 = 0 ∧ savedIn 0x18 8 = 3 ∧ savedIn 0xB8 8 = 12 ∧ savedIn 0x248 8 = 0x55 := by
  decide +kernel
theorem witness_SlotAdministration_window : OwnKeep (beside id) 0x7F1000000400 1024 0x400 ∧ ((beside id).core 0).waiting = [] ∧ ((beside id).spire 0).cache = [] :=
  ⟨ownKeep_of rfl (by decide +kernel), by decide +kernel, by decide +kernel⟩
/-- R378: SLOTLOAD brings it back; its refusals. -/
noncomputable def saved : State := after (.slotsave always 5 1 3) (beside id)
noncomputable def imageWith (o : Nat) (v : Nat) : State := { saved with mem := memWrite (2 ^ 48 + 0x400 + o) (leBytes 8 v) saved.mem }
theorem witness_SlotAdministration_load : let t := after (.slotload always 5 3) saved
    t.getX 5 = 0 ∧ (t.slot 1).st = .run ∧ (t.slot 1).pc = 0x40 ∧ (t.slot 1).gen = 7 ∧ (t.slot 1).getX 9 = 0x55 ∧ (t.slot 1).tscr0 = 12 ∧ (t.slot 1).work = 3
    ∧ t.die0.absent = [] ∧ saved.thr.queue = [] := by decide +kernel
theorem witness_SlotAdministration_load_refused : let st (s : State) : Word := (after (.slotload always 5 3) s).getX 5
    (after (.slotload always 5 8) saved).getX 5 = 3 ∧ st (imageWith 0x10 0x30000) = 3 ∧ st (imageWith 0x10 0x30) = 3 ∧ st (imageWith 0x10 0x1200) = 3 ∧ st (imageWith 8 1) = 3
    ∧ st (imageWith 0 0x1070001) = 3 ∧ st (imageWith 0 0x070002) = 3 ∧ st (imageWith 0x10 0x20000) = 2
    ∧ st (saved.setSlot 1 { Slot.reset with st := .run }) = 1
    ∧ (after (.slotload always 5 3) (saved.setThr { saved.thr with queue := [.store 0 []] })).thr.st = .park := by decide +kernel

/-- Thread 0 at kernel privilege; x1 a geometry of rows 2 to 3 and columns 8 to 15 of the spire's area, x2 CREATE of region 4 of kind 1,
x3 DELETE, x4 QUERY; x6 to x12 the faulty words. -/
def land (l : List (Nat × Region)) : State :=
  let s := ker [(1, 0x701000102), (2, 0x100410), (3, 0x401), (4, 0x402), (6, 0x403), (7, 0x701006402), (8, 0x701000120), (9, 0x70100010F), (10, 0x420)] 0 []
  s.setSpire 0 { s.spire 0 with regions := l }
def plot (st : RState) : Region := { Region.create 2 8 2 8 1 1 0 with st := st }
noncomputable def rgStatus (a b : Reg) (l : List (Nat × Region)) : Word := (after (.rgnset always 5 a b) (land l)).getX 5
/-- An RGNSET of thread 0, then its park for the engine cleared. -/
noncomputable def rgDone (a b : Reg) (l : List (Nat × Region)) : State := after (.evThreadResume 0) (after (.rgnset always 5 a b) (land l))
/-- R292 to R295: the statuses, a region created and one deleted. -/
theorem witness_RegionAdministration : (land []).guardOk always = true ∧ (land []).thr.prv ≠ .user ∧ rgStatus 1 6 [] = 3 ∧ rgStatus 1 4 [] = 0
    ∧ (rgStatus 1 4 [(4, plot .placed)]).toNat % 16 = 3 ∧ rgStatus 1 3 [] = 1 ∧ rgStatus 1 3 [(4, plot .placed)] = 5
    ∧ rgStatus 1 3 [(4, { plot .empty with kind := 2, matrix := { Matrix.reset with owner := some 0 } })] = 5
    ∧ (after (.rgnset always 5 1 3) (land [(4, plot .empty)])).thr.park.map Park.op = some (.rgnset 0x701000102 0x401 5)
    ∧ (rgDone 1 3 [(4, plot .empty)]).getX 5 = 0 ∧ (rgDone 1 3 [(4, plot .empty)]).region 0 4 = none := by decide +kernel
theorem witness_RegionAdministration_create : rgStatus 1 2 [(4, plot .empty)] = 1 ∧ rgStatus 7 2 [] = 2 ∧ rgStatus 8 2 [] = 4 ∧ rgStatus 9 10 [] = 2
    ∧ rgStatus 1 2 [(5, plot .empty)] = 2 ∧ (rgDone 1 2 []).getX 5 = 0 ∧ (rgDone 1 2 []).region 0 4 = some (Region.create 2 8 2 8 1 1 0)
    ∧ risingFrom 0 ((land [(4, plot .empty)]).spire 0).regions = true := by decide +kernel

/-! ## Probes, command queues and commands -/

/-- Thread 0 at kernel privilege with its spire's debug block and regions given; x1 MARK of region 3 with identity 5, x2 the same with
STOP, x3 RESUME, x4 a bad word. -/
def probed (f : Debug → Debug) (l : List (Nat × Region)) : State :=
  let s := ker [(1, 0x503), (2, 0x1000503), (3, 0x2000503), (4, 0x3000503), (9, 7), (10, 8)] 0 []
  { s.setSpire 0 { s.spire 0 with dbg := f Debug.reset, regions := l } with now := 40 }
noncomputable def traced (f : Debug → Debug) : Debug := ((after (.trace always 9 10) (probed f [])).spire 0).dbg
noncomputable def marked (a : Reg) (r : Region) : State := after (.mark always 5 a) (probed id [(3, r)])
def cutRegion : Region := { plot .placed with cut := ⟨5, 1, true, [⟨0, 0, 0⟩], []⟩, queues := [(⟨⟨0, 0, 0⟩, 0⟩, [⟨false, 0, 0, .control, 0, 1, 0⟩])] }
/-- R416, R417: a record made while EN and TRINS are set, one lost to a full FIFO, none otherwise. -/
theorem witness_DebugProbes_trace : (probed id []).guardOk always = true ∧ (probed id []).thr.prv ≠ .user ∧ (traced id).fifo = []
    ∧ (traced (fun v => { v with trctl := 3 })).fifo = [⟨1, 0, 0, 32, 7, 8⟩]
    ∧ (traced (fun v => { v with trctl := 3, fifo := List.replicate 64 ⟨1, 0, 0, 0, 0, 0⟩ })).lostFull = 1 := by decide +kernel
/-- R410: MARK's statuses, a cut begun, and one ended. -/
theorem witness_DebugProbes_mark : (marked 4 (plot .placed)).getX 5 = 3 ∧ (after (.mark always 5 1) (probed id [])).getX 5 = 1
    ∧ (marked 1 { plot .placed with kind := 2 }).getX 5 = 3 ∧ (marked 1 (plot .empty)).getX 5 = 1 ∧ (marked 1 (plot .swapping)).getX 5 = 5
    ∧ (marked 1 cutRegion).getX 5 = 5 ∧ ((marked 2 (plot .placed)).region 0 3).map Region.cut = some ⟨5, 1, true, [], []⟩
    ∧ ((marked 3 cutRegion).region 0 3).map (fun r => (r.cut.state, r.cut.stop)) = some (0, false)
    ∧ (cutRegion.queues.map Prod.fst).Nodup := by decide +kernel
/-- R414, R415: SNAP and DBGTRIG raise one trigger a cycle; an armed spire latches at cycle 56. -/
noncomputable def snapped (f : Debug → Debug) : State := after (.snap always 5) (probed f [])
def arming (v : Debug) : Debug := { v with arm := true }
theorem witness_DebugProbes_trigger : 40 ∈ (snapped id).trig ∧ (snapped id).dbgout = 56 ∧ (snapped id).getX 5 = 1 ∧ ((snapped id).spire 9).dbg.missed = 1
    ∧ ((snapped arming).spire 0).dbg.latchAt = some 56 ∧ 40 ∈ (after (.evDbgtrig) (snapped arming)).trig
    ∧ ((after (.evDbgtrig) (snapped arming)).spire 0).dbg.seq = 1 ∧ (after (.evDbgtrig) (probed id [])).dbgout = 56 := by decide +kernel
noncomputable def latched : Debug := ((after (.evSnapshotLatch 0) { snapped arming with now := 56 }).spire 0).dbg
set_option maxRecDepth 20000 in
theorem witness_DebugProbes_latch : ((snapped arming).spire 0).dbg.latchAt = some 56 ∧ ((after (.evSnapshotLatch 0) (snapped arming)).spire 0).dbg.arm = true
    ∧ latched.arm = false ∧ latched.latchAt = none ∧ latched.seq = 1 := by decide +kernel
/-- R418: a ring of 64 records at 0x1000 of dome memory takes a record, and a full one none. -/
def rung (trw : BitVec 32) : State :=
  (probed (fun v => { v with trctl := 3, trbase := 0x10000000000, trw := trw, fifo := [⟨1, 0, 0, 32, 7, 8⟩] }) [])
theorem witness_DebugProbes_ring : ((rung 0).spire 0).cache = [] ∧ ((rung 0).home 0x10000000000).cached = true
    ∧ (let t := after (.evTraceWrite 0) (rung 0)
      bytesAt t 0x10000000000 8 = 1 ∧ bytesAt t 0x10000000008 8 = 32 ∧ bytesAt t 0x10000000010 8 = 7 ∧ bytesAt t 0x10000000018 8 = 8
        ∧ (t.spire 0).dbg.trw = 1 ∧ (t.spire 0).dbg.fifo = [])
    ∧ ((after (.evTraceWrite 0) (rung 64)).spire 0).dbg.trw = 64 := by decide +kernel

/-- A command packet of eight words. -/
def packet (l : List Word) : Vector Word 8 := Vector.ofFn (fun i => l.getD i.val 0)
/-- Both dies booted; queue 0 with its ring at 0x2000 of LPDDR memory behind an identity page, with a packet in it; its event ring in
dome memory. -/
def commanded (ws : Vector Word 8) (f : Queue → Queue) : State :=
  let s := { State.reset with die0 := { Die.reset with booted := true }, die1 := { Die.reset with booted := true } }
  { (s.setIsland 491 { Island.reset with st := 1 }).setQueue 0 (f { Queue.reset with en := true, loc := true, qbase := 0x2000, widx := 1, evloc := true, evbase := 0x10000000000 }) with
    mem := memWrite 0x2000 (ws.toList.flatMap (leBytes 8 ·.toNat)) [] }
def q0 (i : Instr) (ws : Vector Word 8) (f : Queue → Queue) : Queue := (after i (commanded ws f)).queue 0
def noop : Vector Word 8 := packet []
/-- R385, R386: doorbells of 1 and of 17 entries, and the restart of a halted queue. -/
theorem witness_CommandQueues_registers : (q0 (.evWidxWrite 0 1) noop id).widx = 1 ∧ (q0 (.evWidxWrite 0 17) noop id).overrun = true
    ∧ (q0 (.evWidxWrite 0 17) noop id).code = 0x46 ∧ (commanded noop id).die0.booted = true
    ∧ (q0 (.evQstatErr 0) noop (fun v => { v with err := true })).ridx = 1 ∧ (q0 (.evQstatErr 0) noop (fun v => { v with err := true })).err = false
    ∧ (q0 (.evQstatErr 0) noop (fun v => { v with err := true, overrun := true })).ridx = 0 ∧ (q0 (.evEvrWrite 0 3) noop id).evr = 3 := by decide +kernel
/-- R396: a stalled WAIT retried and aborted. -/
def stuck (w : CmdWork) : Cmd := ⟨0, packet [0x500000003, 0, 0x7F1000000000, 1], w, some ⟨.pageR, 1, 0x99⟩, false, false⟩
theorem witness_CommandQueues_stalled : (q0 (.evQstatFault 0) noop (fun v => { v with cmds := [stuck .wait] })).cmds.map Cmd.stalled = [none]
    ∧ (q0 (.evQstatAbort 0) noop (fun v => { v with cmds := [stuck .wait] })).cmds.map Cmd.done = [true]
    ∧ (q0 (.evQstatAbort 0) noop (fun v => { v with cmds := [stuck .wait] })).evw = 1 := by decide +kernel
/-- R401: an event in its ring, in dome memory. -/
theorem witness_CommandQueues_event : let t := (commanded noop id).post ⟨1, 0, 0, 0x45, 7, 8, 9, 0⟩
    ((commanded noop id).home 0x10000000000).cached = true ∧ bytesAt t 0x10000000000 8 = 0x4500000001 ∧ bytesAt t 0x10000000008 8 = 7
    ∧ bytesAt t 0x10000000010 8 = 8 ∧ bytesAt t 0x10000000018 8 = 9 ∧ (t.queue 0).evw = 1 := by decide +kernel
/-- R385 to R387: the queue is ready to start its packet. -/
theorem ready (ws : Vector Word 8) (h : ∀ j : Fin 8, bytesAt (commanded ws id) (0x2000 + 8 * j.val) 8 = ws[j].toNat) : QueueReady 0 ws (commanded ws id) where
  number := by decide
  booted := rfl
  powered := rfl
  enabled := rfl
  running := rfl
  pending := by show (1 : BitVec 32) ≠ 0; decide
  idle := rfl
  alone := by
    have h : ∀ r, r < 32 → r ≠ 0 → ((commanded ws id).queue r).en = false := by
      intro r _ hn
      show ((tget r [(0, _)]).getD Queue.reset).en = false
      simp [tget, Queue.reset, Ne.symm hn]
    exact fun r hr hn => h r (by omega) hn
  packet := fun j => ⟨.inl (by show ((commanded noop id).home (((commanded noop id).queue 0).packetKey j.val)).cached = true; revert j; decide +kernel), h j⟩
  clean := by intro j hj; cases hj
def fencePacket : Vector Word 8 := packet [8]
def launchPacket : Vector Word 8 := packet [0x100000001, 0, 0x4000, 0, 2, 0x800]
theorem witness_CommandQueues_ready : QueueReady 0 fencePacket (commanded fencePacket id) ∧ QueueReady 0 launchPacket (commanded launchPacket id) :=
  ⟨ready _ (by decide +kernel), ready _ (by decide +kernel)⟩
/-- R389: packets that halt the queue, and two that start. -/
theorem witness_CommandQueues_packets : let code (ws : Vector Word 8) : BitVec 8 := (q0 (.evFence 0) ws id).code
    code noop = 0x40 ∧ code (packet [9]) = 0x40 ∧ code (packet [0x808]) = 0x41 ∧ code (packet [8, 0, 1]) = 0x41 ∧ code (packet [6]) = 0x47
    ∧ (q0 (.evFence 0) fencePacket id).cmds = [⟨0, fencePacket, .fence, none, true, false⟩]
    ∧ (q0 (.evLaunch 0) launchPacket id).cmds = [⟨0, launchPacket, .launch 0 0 (List.replicate 8 0), none, false, false⟩]
    ∧ (after (.evLaunch 0) (commanded launchPacket id)).die0.fifo = [(0, 0)] := by decide +kernel

/-- A started command of queue 0 over the keep of spire 0, the word at offset 0x100 given. -/
def started (c : Cmd) (word : Nat) (full : List Nat) : State :=
  let s := commanded noop (fun v => { v with cmds := [c] })
  { s with mem := memWrite (2 ^ 48 + 0x100) (leBytes 8 word) [], full := full }
def cmd (w : CmdWork) (ws : List Word) : Cmd := ⟨0, packet ws, w, none, false, false⟩
def waitCmd (cond : Word) : Cmd := cmd .wait [3, 0, 0x7F0000000100, cond]
def doneAfter (i : Instr) (c : Cmd) (word : Nat) (full : List Nat) : List (Bool × Bool) :=
  ((after i (started c word full)).queue 0).cmds.map (fun c => (c.done, c.stalled.isSome))
def wordAfter (i : Instr) (c : Cmd) (word : Nat) : Nat := bytesAt (after i (started c word [])) (2 ^ 48 + 0x100) 8
/-- R395, R396: WAIT on no condition, on EMPTY, FULL and a barrier whose count is complete, and on a misaligned word. -/
theorem witness_CommandSteps_wait : doneAfter (.evWait 0) (waitCmd 0) 0 [] = [(true, false)] ∧ doneAfter (.evWait 0) (waitCmd 1) 0 [] = [(false, false)]
    ∧ doneAfter (.evWait 0) (waitCmd 1) 0 [(2 ^ 48 + 0x100) / 8] = [(true, false)] ∧ doneAfter (.evWait 0) (waitCmd 2) 0 [] = [(true, false)]
    ∧ doneAfter (.evWait 0) (waitCmd 3) 0x2000002 [] = [(true, false)] ∧ doneAfter (.evWait 0) (waitCmd 3) 0x1000002 [] = [(false, false)]
    ∧ doneAfter (.evWait 0) (cmd .wait [3, 0, 0x7F0000000101, 1]) 0 [] = [(false, true)] := by decide +kernel
theorem witness_CommandSteps_check : let s := started (waitCmd 1) 0 []
    (match s.engineCheck ⟨160, 0, 0, Vector.replicate 5 0, .lantern⟩ { Acc.load 0x7F0000000100 8 with strict := true, sync := true } false with
      | (t, .pass [k]) => decide (t = s ∧ k.va = 0x7F0000000100 ∧ k.len = 8 ∧ k.once = false ∧ k.key = 2 ^ 48 + 0x100 ∧ s.home k.key = .keep 0 0x100)
      | _ => false) = true := by decide +kernel
/-- R395: SIGNAL stores, arrives and adds. -/
def signalCmd (op v : Word) : Cmd := cmd .signal [4, 0, 0x7F0000000100, op, v]
theorem witness_CommandSteps_signal : wordAfter (.evSignalStf 0) (signalCmd 0 7) 0 = 7 ∧ doneAfter (.evSignalStf 0) (signalCmd 0 7) 0 [] = [(true, false)]
    ∧ (after (.evSignalStf 0) (started (signalCmd 0 7) 0 [])).full = [(2 ^ 48 + 0x100) / 8]
    ∧ doneAfter (.evSignalStf 0) (cmd .signal [4, 0, 0x7F0000000101, 0, 7]) 0 [] = [(false, true)]
    ∧ wordAfter (.evSignalArrive 0) (signalCmd 1 0) 0x2 = 0x1000002 ∧ wordAfter (.evSignalArrive 0) (signalCmd 1 0) 0x1000002 = 2 ^ 48
    ∧ wordAfter (.evSignalAadd 0) (signalCmd 2 7) 5 = 12 := by decide +kernel
/-- R391 to R393: the argument block read; the first FREE slot of the spires taken; a launch that is done or has threads left. -/
def launchCmd (w : CmdWork) : Cmd := cmd w [0x500000001, 0, 0x4000, 0x7F0000000100, 0x2, 0x803]
def powered (c : Cmd) : State :=
  let s := (started c 77 []).setIsland 0 { Island.reset with st := 1 }
  (s.setDie 0 { s.die0 with fifo := [(0, 0)] }).setSlot 0 { Slot.reset with st := .run }
theorem witness_CommandSteps_launch : ((after (.evLaunch 0) (started (launchCmd (.launch 0 0 [])) 77 [])).queue 0).cmds.map Cmd.work
      = [.launch 0 0 [77, 0, 0, 0, 0, 0, 0, 0]]
    ∧ (let t := after (.evLaunchPlace 0) (powered (launchCmd (.launch 1 0 [77, 0, 0, 0, 0, 0, 0, 0])))
      (t.slot 1).st = .run ∧ (t.slot 1).pc = 0x4000 ∧ (t.slot 1).getX 1 = 77 ∧ (t.slot 1).work = 1 ∧ (t.slot 1).tvec = 0x800
        ∧ (t.slot 1).launch = some (0, 0) ∧ t.die0.fifo = [] ∧ (t.slot 1).kwin[0] = 3) := by decide +kernel
/-- R181, R393: a LAUNCH all of whose threads have exited completes once the writes that it posted to peers are acknowledged. -/
theorem witness_CommandSteps_acknowledged :
    let n (p : Bool) : Nat := ((after (.evCommandComplete 0 0) { started (launchCmd (.launch 2 2 [])) 0 [] with
      peerOut := [⟨0, 0, [1], none, none, p⟩] }).queue 0).cmds.length
    n true = 1 ∧ n false = 0 := by decide +kernel
theorem witness_CommandSteps_complete : let n (c : Cmd) : Nat := ((after (.evCommandComplete 0 0) (started c 0x1000002 [])).queue 0).cmds.length
    n (launchCmd (.launch 2 1 [])) = 1 ∧ n (launchCmd (.launch 2 2 [])) = 0 ∧ n { waitCmd 0 with done := true } = 0
    ∧ (let c : Cmd := { cmd .fence [0x308, 0x7F0000000100] with done := true }
      n c = 0 ∧ wordAfter (.evCommandComplete 0 0) c 0x1000002 = 2 ^ 48 ∧ (after (.evCommandComplete 0 0) (started c 2 [])).msix = [0]) := by decide +kernel

/-- A stream region of one inbound and one outbound port: BINDING entries 0 (ENTRY) and 1 (RETURN). -/
def streamPlane : Plane := { lookPlane with kind := 1, nargs := 0, nrets := 0, conns := [] }
def streamRegion (sink : Bool) (st : RState) (bs : List BindState) (q : List (PortId × List Token)) : Region :=
  { Region.create 0 0 1 8 1 0 3 with
    st := st, active := some streamPlane, entries := [⟨0, 0, 0, 0, sink, ⟨0, 7, 13⟩⟩, ⟨0, 2, 1, 0, sink, ⟨0, 7, 14⟩⟩], binds := bs, queues := q }
def binding (p : BoundPort) : List BindState := [⟨0, 0, 0, 0, [p], 0, []⟩]
def bindCmd (n : Word) : Cmd := cmd (.bind 0 2) [0x500000002, 0, 0x200, 0x7F0000000100, n]
/-- Queue 0 with a BIND started on region 2 of spire 0; one descriptor, of 16 bytes at 0x7F00_0000_0200 for entry 1, in the keep. -/
def bound (r : Region) : State :=
  let s := started (bindCmd 1) 0 []
  { s.setSpire 0 { s.spire 0 with regions := [(2, r)] } with
    mem := memWrite (2 ^ 48 + 0x100) (leBytes 8 1 ++ leBytes 8 0x7F0000000200 ++ leBytes 8 16 ++ leBytes 8 0) (memWrite (2 ^ 48 + 0x200) [5] []) }
def desc (k : Nat) : BindDesc := ⟨k, 0x7F0000000200, 16⟩
def bindAfter (i : Instr) (r : Region) : Option Region := (after i (bound r)).region 0 2
/-- The same packet in queue 0's ring, its command not started; another queue's event ring idle. -/
def bindPacket : Vector Word 8 := packet [0x500000002, 0, 0x200, 0x7F0000000100, 1]
def unbound (r : Region) : State :=
  let s := commanded bindPacket id
  { s.setSpire 0 { s.spire 0 with regions := [(2, r)] } with
    mem := memWrite (2 ^ 48 + 0x100) (leBytes 8 1 ++ leBytes 8 0x7F0000000200 ++ leBytes 8 16 ++ leBytes 8 0) s.mem }
/-- R394: BIND on a region that is not PLACED ends as it starts; one that starts binds, also its SINK ports; a retry asks no more. -/
theorem witness_BoundPorts_bind : (let s := after (.evBind 0) (unbound (streamRegion false .loading [] []))
      (s.queue 0).cmds.map Cmd.done = [true] ∧ (s.queue 0).evw = 1 ∧ (s.queue 0).ridx = 1)
    ∧ ((after (.evBind 0) (unbound (streamRegion false .placed [] []))).region 0 2).map (fun r => r.binds.map BindState.ports)
      = some [[⟨1, [desc 1], 0, false, false, false, false, false⟩]]
    ∧ (bindAfter (.evBind 0) (streamRegion false .swapping [] [])).map (fun r => r.binds.length) = some 1
    ∧ (bindAfter (.evBind 0) (streamRegion true .placed [] [])).map (fun r => r.binds.flatMap (fun b => b.ports.map BoundPort.bare)) = some [true, false]
    ∧ (Queue.reset).badPacket bindPacket = none
    ∧ (bindAfter (.evBind 0) (streamRegion false .placed [] [])).map (fun r => r.binds.map BindState.ports) = some [[⟨1, [desc 1], 0, false, false, false, false, false⟩]]
    ∧ (bindAfter (.evBind 0) (streamRegion true .placed [] [])).map (fun r => (r.binds.map (fun b => b.ports.length), r.cprv)) = some ([2], .lantern)
    ∧ ((bound (streamRegion false .placed [] [])).lanternRead ⟨160, 0, 0, Vector.replicate 5 0, .lantern⟩ (Acc.load 0x7F0000000100 32)).1
      = bound (streamRegion false .placed [] []) := by decide +kernel
/-- R394: an inbound port's two doublewords, the last with DIM 1, then its end-of-stream; one whose queue is full. -/
def feeding (moved : Nat) (ds : List BindDesc) : Region := streamRegion false .placed (binding ⟨0, ds, moved, false, false, false, false, false⟩) []
noncomputable def fed (moved : Nat) : Option (List (Word × Nat × TKind)) :=
  (bindAfter (.evBindInbound 0 2 0) (feeding moved [desc 0])).map (fun r => (r.tokens ⟨⟨0, 7, 13⟩, 0⟩).map (fun t => (t.payload, t.dim, t.kind)))
theorem witness_BoundPorts_inbound : fed 0 = some [(5, 0, .data)] ∧ fed 1 = some [(0, 1, .data)] ∧ fed 2 = some [(0, 7, .endStream)]
    ∧ (bindAfter (.evBindInbound 0 2 0) (feeding 2 [desc 0])).map (fun r => r.binds.flatMap (fun b => b.ports.map BoundPort.ended)) = some [true]
    ∧ (let full := { feeding 0 [desc 0] with queues := [(⟨⟨0, 7, 13⟩, 0⟩, List.replicate 8 (dt 1 0))] }
      after (.evBindInbound 0 2 0) (bound full) = bound full) := by decide +kernel
/-- R394: an outbound port stores, skips a token that is not valid, counts an overflow, and goes to its next descriptor. -/
def eosTok : Token := ⟨false, 0, 7, .endStream, 0, 0, 0⟩
def draining (moved : Nat) (ds : List BindDesc) (t : Token) : Region :=
  streamRegion true .placed (binding ⟨1, ds, moved, false, false, false, false, ds.isEmpty⟩) [(⟨⟨0, 7, 14⟩, 4⟩, [t])]
noncomputable def drained (moved : Nat) (t : Token) : Option (List (Nat × List Nat)) :=
  (bindAfter (.evBindOutbound 0 2 1) (draining moved [desc 1, desc 1] t)).map (fun r => r.binds.map (fun b => (b.ovf, b.ports.map BoundPort.moved)))
theorem witness_BoundPorts_outbound : drained 1 (dt 0x1122334455667788 0) = some [(0, [2])]
    ∧ bytesAt (after (.evBindOutbound 0 2 1) (bound (draining 1 [desc 1] (dt 0x1122334455667788 0)))) (2 ^ 48 + 0x208) 8 = 0x1122334455667788
    ∧ drained 0 { dt 9 0 with valid := 0 } = some [(0, [1])] ∧ drained 2 (dt 9 0) = some [(1, [2])] ∧ drained 1 eosTok = some [(0, [0])]
    ∧ (let late (bare : Bool) := (bindAfter (.evBindOutbound 0 2 1) { draining 0 [] (dt 9 0) with
        binds := binding ⟨1, [], 0, false, true, false, false, bare⟩ }).map (fun r => r.binds.map BindState.ovf)
      late true = some [0] ∧ late false = some [1])
    ∧ (bindAfter (.evBindInbound 0 2 0) (streamRegion true .placed (binding ⟨0, [desc 0, desc 0], 2, false, false, false, false, false⟩) [])).map Region.sinkEos
      = some [(0, 1)]
    ∧ (bindAfter (.evBindOutbound 0 2 1) (draining 1 [desc 1] eosTok)).map (fun r => (r.sinkEos, r.binds.flatMap (fun b => b.ports.map BoundPort.ended)))
      = some ([(1, 1)], [true]) := by decide +kernel

/-- R398: a REGION command that creates a region, and one whose geometry is refused. -/
def regionPacket (geo : Word) : Vector Word 8 := packet [6, 0, geo, 0x100410, 0]
noncomputable def regioned (geo : Word) : State := after (.evRegion 0) (commanded (regionPacket geo) (fun v => { v with privk := true }))
theorem witness_RegionCommands_region : (regioned 0x701000102).region 0 4 = some (Region.create 2 8 2 8 1 1 0)
    ∧ ((regioned 0x701000102).queue 0).cmds.map Cmd.done = [true] ∧ ((regioned 0x701000102).queue 0).evw = 0
    ∧ ((regioned 0x701006402).queue 0).cmds.map Cmd.done = [true] ∧ ((regioned 0x701006402).queue 0).evw = 1
    ∧ ({ Queue.reset with privk := true }).badPacket (regionPacket 0) = none := by decide +kernel
/-- R400: COPY of four 8-byte elements, of a misaligned signal, of levels that are wrong, and to a channel that is full. -/
def copyCmd (l : Word) (sig : Word) : Cmd := cmd (.copy 0 2 none) [0x105, sig, 0x200, 0x7F0000000400, 0x7F0000000800, l, 1]
def copyingFor (o : Option (BitVec 24)) (sig : Word) (w0 w1 : Nat) (q : List CopyEntry) : State :=
  let s := started (copyCmd 0x7F0000000100 sig) 0 []
  { s.setSpire 0 ((s.spire 0).setChannel 2 { Channel.reset with owner := o, queue := q }) with mem := memWrite (2 ^ 48 + 0x100) (leBytes 8 w0 ++ leBytes 8 w1) [] }
def copying : Word → Nat → Nat → List CopyEntry → State := copyingFor none
noncomputable def copied (s : State) : List Bool × List CopyState :=
  (((after (.evCopy 0) s).queue 0).cmds.map Cmd.done, (((after (.evCopy 0) s).spire 0).channel 2).queue.map CopyEntry.st)
theorem witness_RegionCommands_copy : copied (copying 0 0x0000040000000008 0x0000300000000008 []) = ([false], [.landing])
    ∧ copied (copyingFor (some 7) 0 0x0000040000000008 0x0000300000000008 []) = ([true], [])
    ∧ copied (copying 4 0x0000040000000008 0x0000300000000008 []) = ([true], []) ∧ copied (copying 0 8 8 []) = ([true], [])
    ∧ copied (copying 0 0x0000040000000008 0x0000300000000008 (List.replicate 4 (entry .queued))) = ([false], List.replicate 4 .queued) := by decide +kernel
/-- R398: UNLOAD sets HALT and waits for QUIET; FORCE waits for no access; a map that names nothing. -/
def unloadCmd (t : Option (Nat × Nat)) (force : Bool) : Cmd := cmd (.unload t force) [5, 0, 0, 2, 0x7F0000000100, 1]
def unloading (c : Cmd) (map : Nat) (r : Region) : State :=
  let s := started c map []
  s.setSpire 0 { s.spire 0 with regions := [(2, r)] }
noncomputable def unloaded (i : Instr) (t : Option (Nat × Nat)) (force : Bool) (map : Nat) (r : Region) : List Bool × Option (RState × Bool) :=
  let s := after i (unloading (unloadCmd t force) map r)
  ((s.queue 0).cmds.map Cmd.done, (s.region 0 2).map (fun r => (r.st, r.halt)))
theorem witness_RegionCommands_unload : let r := streamRegion false .placed [] []
    unloaded (.evConfigUnload 0) none false 0x200 r = ([false], some (.placed, true)) ∧ unloaded (.evConfigUnload 0) none false 0x300 r = ([true], some (.placed, false))
    ∧ unloaded (.evConfigUnload 0) (some (0, 2)) false 0 { r with halt := true } = ([false], some (.placed, true))
    ∧ unloaded (.evConfigUnload 0) (some (0, 2)) false 0 { r with halt := true, quiet := true } = ([true], some (.empty, false))
    ∧ unloaded (.evConfigForce 0) (some (0, 2)) true 0 r = ([true], some (.empty, false))
    ∧ unloaded (.evConfigForce 0) (some (0, 2)) true 0 { r with accs := [acc false false false] } = ([false], some (.placed, false)) := by decide +kernel
/-- R58 to R60, R398: an object without sections or with a wrong first word. -/
def loadCmd : Cmd := cmd (.load [] [] 0 []) [5, 0, 0x7F0000000200, 1, 0x7F0000000100, 1]
def object (magic : Nat) : State :=
  let s := started loadCmd 0x200 []
  { s with mem := memWrite (2 ^ 48 + 0x200) (leBytes 4 magic ++ leBytes 2 1) s.mem }
theorem witness_RegionCommands_load : ((after (.evConfigLoad 0) (object 0)).queue 0).cmds.map Cmd.done = [true]
    ∧ ((after (.evConfigLoad 0) (object 0x52504550)).queue 0).cmds.map Cmd.done = [true]
    ∧ (match ((object 0).readObject ⟨160, 0, 0, Vector.replicate 5 0, .lantern⟩ 0x7F0000000200).2 with
      | .malformed => true
      | _ => false) = true := by decide +kernel

/-- R62: a LOAD at a step of its program, over region 2 of spire 0. -/
def section0 : Section := ⟨0, 0x7F0000000200, lookImage, streamPlane, []⟩
def stepOf (op cond arg0 : Nat) : SeqStep := ⟨op, 0, cond, arg0, 0x7F0000000100, BitVec.ofNat 64 (op + 2 ^ 32 * arg0)⟩
def sequencing (prog : List SeqStep) (word : Nat) (r : Region) : State :=
  let s := started (cmd (.load [section0] prog 0 [(0, 2)]) [5, 0, 0x7F0000000200, 1, 0x7F0000000100, 1]) word []
  s.setSpire 0 { s.spire 0 with regions := [(2, r)], hearth := [⟨0, 0x7F0000000200, lookImage, 0⟩] }
def stepAt (c : Cmd) : Nat :=
  match c.work with
  | .load _ _ i _ => i
  | _ => 99
/-- Whether the command is done and the step at which it stands; the number of events; the region's state. -/
def sequenced (i : Instr) (st : SeqStep) (word : Nat) (r : Region) : List (Bool × Nat) × BitVec 32 × Option RState :=
  let s := after i (sequencing [st, stepOf 0 0 0, stepOf 0 0 0] word r)
  ((s.queue 0).cmds.map (fun c => (c.done, stepAt c)), (s.queue 0).evw, (s.region 0 2).map Region.st)
def seqIs (i : Instr) (st : SeqStep) (word : Nat) (r : Region) (d : Bool) (at_ : Nat) (ev : BitVec 32) (rs : RState) : Bool :=
  decide (sequenced i st word r = ([(d, at_)], ev, some rs))
def streaming (sink : Bool) (st : RState) : Region := streamRegion sink st [] []
theorem witness_SequenceSteps_control : seqIs (.evSeqEnd 0 0) (stepOf 0 0 0) 0 (streaming false .placed) true 0 0 .placed = true
    ∧ seqIs (.evSeqWaitc 0 0) (stepOf 4 0 0) 0 (streaming false .placed) false 1 0 .placed = true
    ∧ seqIs (.evSeqWaitc 0 0) (stepOf 4 1 0) 0 (streaming false .placed) false 0 0 .placed = true
    ∧ seqIs (.evSeqWaitc 0 0) (stepOf 4 3 0) 0x2000002 (streaming false .placed) false 1 0 .placed = true
    ∧ seqIs (.evSeqSkipc 0 0) (stepOf 5 0 1) 0 (streaming false .placed) false 2 0 .placed = true
    ∧ seqIs (.evSeqSkipc 0 0) (stepOf 5 1 1) 0 (streaming false .placed) false 1 0 .placed = true
    ∧ seqIs (.evSeqSkipc 0 0) (stepOf 5 0 (2 ^ 32 - 2)) 0 (streaming false .placed) true 0 1 .placed = true := by decide +kernel
/-- R398: LOAD, SWAP and WAITEOS in their order of checks: the next step, a wait, an error. -/
theorem witness_SequenceSteps_region : let go (i : Instr) (op arg0 : Nat) (r : Region) : Bool → Nat → BitVec 32 → RState → Bool := seqIs i (stepOf op 0 arg0) 0 r
    go (.evSeqLoad 0 0) 1 0 (streaming true .empty) false 0 0 .loading = true
    ∧ go (.evSeqLoad 0 0) 1 0 { streaming true .loading with reserved := some (2 ^ 32) } false 1 0 .placed = true ∧ go (.evSeqLoad 0 0) 1 0 (streaming true .placed) false 0 0 .placed = true
    ∧ go (.evSeqLoad 0 0) 1 7 (streaming true .empty) true 0 1 .empty = true
    ∧ go (.evSeqLoad 0 0) 1 0 { streaming true .empty with kind := 2 } true 0 1 .empty = true
    ∧ go (.evSeqSwap 0 0) 2 0 (streaming true .placed) false 1 0 .swapping = true ∧ go (.evSeqSwap 0 0) 2 0 (streaming true .empty) true 0 1 .empty = true
    ∧ go (.evSeqWaiteos 0 0) 3 0 (streaming true .placed) false 0 0 .placed = true
    ∧ go (.evSeqWaiteos 0 0) 3 0 { streaming true .placed with sinkEos := [(0, 1), (1, 1)] } false 1 0 .placed = true := by decide +kernel
/-- R224, R398: PIN and UNPIN of the region's image. -/
theorem witness_SequenceSteps_pins : let go (i : Instr) (op : Nat) (r : Region) : Bool → Nat → BitVec 32 → RState → Bool := seqIs i (stepOf op 0 0) 0 r
    go (.evSeqPin 0 0) 6 { streaming true .placed with imgAddr := 0x7F0000000200 } false 1 0 .placed = true
    ∧ go (.evSeqPin 0 0) 6 (streaming true .placed) true 0 1 .placed = true ∧ go (.evSeqUnpin 0 0) 7 (streaming true .empty) false 1 0 .empty = true
    ∧ go (.evSeqUnpin 0 0) 7 { streaming true .placed with imgAddr := 0x7F0000000200 } false 1 0 .placed = true := by decide +kernel

/-! ## Peers, power, errors and the machine -/

/-- Peer 0 on port 0 with a window of the first 64 KiB of dome memory, a request of its own waiting. -/
def peered (r : PeerReq) : State :=
  let d := { Die.reset with pinBase := (Vector.replicate 32 0).set 0 0x10000000000, pinLim := (Vector.replicate 32 0).set 0 0x10000010000 }
  { State.reset with die0 := d, die1 := Die.reset, peerIn := [r], mem := memWrite 0x10000000008 [5] [] }
def peerWrites (key : Nat) : PeerReq := ⟨0, key, leBytes 8 0x1122334455667788, none, none⟩
/-- R405: writes at the last doubleword of the window and one past it; an atomic; a sync word stored; a word of LPDDR memory below it. -/
theorem witness_PeerTraffic : let t (r : PeerReq) : State := after (.evPeerAccess 0) (peered r)
    (peered (peerWrites 0)).home 0x10000000008 = .dome 0 ∧ bytesAt (t (peerWrites 0x1000000FFF8)) 0x1000000FFF8 8 = 0x1122334455667788
    ∧ bytesAt (t (peerWrites 0x1000000FFF9)) 0x1000000FFF9 8 = 0 ∧ (t (peerWrites 0x1000000FFF9)).peerIn = [] ∧ (t (peerWrites 0x1000)).mem ≠ []
    ∧ bytesAt (t ⟨0, 0x10000000008, [], some ⟨.add, true, 0x10000000008, 0, false, 7, 0⟩, none⟩) 0x10000000008 8 = 12
    ∧ (t ⟨0, 0x10000000008, [], none, some ⟨.stf, 0x10000000008, 0, false, .system, 0, 0, 9⟩⟩).full = [0x2000000001] := by decide +kernel
theorem witness_PeerTraffic_links : (after (.evPeerLinkUp 11) State.reset).links[11] = true
    ∧ (let s := { after (.evPeerLinkUp 0) State.reset with peerOut := [⟨0, 0, [1], none, none, true⟩, ⟨1, 0, [1], none, none, true⟩], peerIn := [peerWrites 0] }
      (after (.evPeerLinkDown 0) s).links[0] = false ∧ (after (.evPeerLinkDown 0) s).peerOut.map PeerOut.port = [1]) := by decide +kernel

/-- Island i of spire 0 as given, memory of its keep not empty. -/
def island (i : Nat) (v : Island) : State :=
  { State.reset.setIsland i v with mem := memWrite (2 ^ 48 + 0x100) [5] [], full := [(2 ^ 48 + 0x100) / 8], now := 80 }
def isl (i : Instr) (k : Nat) (v : Island) : Island := (after i (island k v)).island k
/-- R419: ISLCTL with level 7 and with level 8; an island that powers up; the keep controller's with its words cleared. -/
theorem witness_PowerIslands_up : isl (.evIslctlWrite 2 0x70001) 2 Island.reset = { Island.reset with on := true, vfreq := 7 }
    ∧ isl (.evIslctlWrite 2 0x80001) 2 Island.reset = { Island.reset with on := true } ∧ (isl (.evIslandPowerUp 2) 2 Island.reset).st = 0
    ∧ isl (.evIslandPowerUp 2) 2 { Island.reset with on := true } = { Island.reset with on := true, st := 2 }
    ∧ (isl (.evIslandPowerUp 508) 508 { Island.reset with on := true }).st = 0
    ∧ isl (.evIslandPowerUp 2) 2 { Island.reset with on := true, st := 2, cyc := 9 } = { Island.reset with on := true, st := 1, since := 80 }
    ∧ bytesAt (after (.evIslandPowerUp 2) (island 2 { Island.reset with st := 2 })) (2 ^ 48 + 0x100) 8 = 0
    ∧ (after (.evIslandPowerUp 2) (island 2 { Island.reset with st := 2 })).full = []
    ∧ bytesAt (after (.evIslandPowerUp 1) (island 1 { Island.reset with st := 2 })) (2 ^ 48 + 0x100) 8 = 5 := by decide +kernel
/-- R420: the lantern's island powers up for a queue that is not empty. -/
theorem witness_PowerIslands_wanted : ((after (.evIslandPowerUp 491) ((island 491 Island.reset).setQueue 3 { Queue.reset with widx := 1 })).island 491).st = 2
    ∧ (isl (.evIslandPowerUp 491) 491 Island.reset).st = 0 := by decide +kernel
/-- R420: a core island gates once its slots are FREE, an anvil island once its regions are EMPTY, the keep's after both. -/
def lit : Island := { Island.reset with st := 1 }
theorem witness_PowerIslands_gate : (isl (.evIslandGate 0) 0 lit).st = 0 ∧ (isl (.evIslandGate 0) 0 { lit with on := true }).st = 1
    ∧ ((after (.evIslandGate 0) ((island 0 lit).setSlot 255 { Slot.reset with st := .run })).island 0).st = 1
    ∧ (isl (.evIslandGate 1) 1 lit).st = 0
    ∧ (let s (st : RState) := (island 1 lit).setSpire 0 { Spire.reset with regions := [(4, plot st)] }
      ((after (.evIslandGate 1) (s .empty)).island 1).st = 0 ∧ ((after (.evIslandGate 1) (s .placed)).island 1).st = 1)
    ∧ ((after (.evIslandGate 2) ((island 2 lit).setIsland 0 lit)).island 2).st = 1 := by decide +kernel
/-- R421, R422: a level up, a level down below 95 °C, none at 95 °C, a throttle at 100 °C, a gate at 115 °C. -/
theorem witness_PowerIslands_levels : (isl (.evVfChange 0) 0 { lit with vfreq := 3 }).vfcur = 1 ∧ (isl (.evVfChange 0) 0 { lit with vfcur := 3, temp := 94 }).vfcur = 2
    ∧ (isl (.evVfChange 0) 0 { lit with vfcur := 3, temp := 95, hot := true }).vfcur = 3
    ∧ (isl (.evVfChange 0) 0 { lit with vfcur := 3, temp := 95 }).vfcur = 2
    ∧ (let heat (v : Island) (n : Nat) : Nat := ((after (.evThermalThrottle 0) { island 0 v with now := n }).island 0).vfcur
      heat { lit with temp := 100 } 1250000 = 1 ∧ heat { lit with temp := 100, since := 1 } 1250000 = 0
        ∧ heat { lit with temp := 99 } 1250000 = 0 ∧ heat { lit with temp := 100, vfcur := 7 } 1250000 = 7)
    ∧ (isl (.evForcedGate 0) 0 { lit with temp := 114 }).st = 1
    ∧ isl (.evForcedGate 0) 0 { lit with temp := 115 } = { (isl (.evForcedGate 0) 0 { lit with temp := 115 }) with st := 0, forced := true, on := false } := by
  decide +kernel

/-- R423: windows of 15 and of 16 corrected errors. -/
def worn (n : Nat) : State := { State.reset.setIsland 482 { Island.reset with st := 1, cyc := 2 ^ 32 } with ecc := [⟨5, 3, n, false, false, 0⟩] }
theorem witness_ErrorsAndStart_window : (after (.evEccWindow 5 3) (worn 15)).ecc = [⟨5, 3, 0, false, false, 1⟩]
    ∧ (after (.evEccWindow 5 3) (worn 16)).ecc = [⟨5, 3, 0, true, false, 1⟩] ∧ (after (.evEccWindow 5 3) (worn 16)).die0.held.length + (after (.evEccWindow 5 3) (worn 16)).mem.length ≠ 0 := by
  decide +kernel
/-- R425: an uncorrectable error in a load's bytes, an atomic's word, a walk, and in a thread that accesses nothing. -/
noncomputable def hurt (op : ParkOp) : Slot := (after (.evUncorrectableError 0) (one (fun v => { v with st := .park, tvec := 0x800, park := some ⟨.mem, op, 0, false, 0⟩ }))).thr
theorem witness_ErrorsAndStart_error : (hurt (.load ⟨[⟨0, 2 ^ 48, 8, 0x7F1000000000⟩], [], 8, .zext, 5, none⟩)).tval = 0x7F1000000000
    ∧ (hurt (.load ⟨[⟨0, 2 ^ 48, 8, 0x7F1000000000⟩], [], 8, .zext, 5, none⟩)).tcause.toNat = Cause.pageR.code
    ∧ (hurt (.atomic ⟨.add, true, 2 ^ 48, 0x7F1000000008, false, 7, 0⟩ 5)).tcause.toNat = Cause.pageW.code ∧ (hurt (.walk 0x9000 .read 0)).tsub = 4
    ∧ (hurt (.walk 0x9000 .read 0)).pc = 0x800 ∧ (after (.evUncorrectableError 0) (one id)).thr.st = .drain := by decide +kernel
/-- R426 to R428: die 0's and die 1's first step fails: RECOVERY, in which their lanterns' islands are powered. -/
def planned (d : Nat) : State := { island 0 lit with boots := [(d, ⟨[], 0, [], [], false, 1, 4, 6, []⟩)], mem := memWrite 0x1000 [7] [], leaf := 9 }
theorem witness_ErrorsAndStart_reset : (let t := after (.evPackageReset 0) (planned 0)
      t.die0.booted = false ∧ t.now = 0 ∧ bytesAt t 0x1000 1 = 7 ∧ t.die0.recStep = 1 ∧ t.die0.recCause = 4 ∧ t.die0.dome = 6
        ∧ (t.island 491).st = 1 ∧ t.leaf = 9)
    ∧ (let t := after (.evPackageReset 1) (planned 1)
      t.die1.booted = false ∧ t.die1.recStep = 1 ∧ t.die1.recCause = 4 ∧ (t.island 507).st = 1) := by decide +kernel
/-- The digest of three bytes, from the standard that R429 names: SHA-256 of "abc". -/
theorem test_sha256_abc : leNat (sha256 [0x61, 0x62, 0x63]).reverse = 0xba7816bf8f01cfea414140de5dae2223b00361a396177a9cb410ff61f20015ad := by
  decide +kernel
/-- R430: ATTCTL while idle, busy and exhausted; a report of leaf 5 in dome memory. -/
def attesting (f : Die → Die) (n : Nat) : State :=
  { State.reset with die0 := f { Die.reset with booted := true, attAddr := 0x10000000000 }, leaf := n, mem := memWrite 0x10000000000 [1, 2, 3] [] }
theorem witness_ErrorsAndStart_attestation : (after (.evAttctlWrite 0 1) (attesting id 5)).die0.attBusy = true
    ∧ (after (.evAttctlWrite 0 1) (attesting (fun d => { d with attBusy := true }) 5)).die0.attStat = 2
    ∧ (after (.evAttctlWrite 0 1) (attesting id 32768)).die0.attStat = 2
    ∧ (after (.evAttctlWrite 0 1) (attesting id 32767)).die0.attBusy = true
    ∧ (after (.evAttestationDone 0) (attesting id 5)).leaf = 5 ∧ (after (.evAttestationDone 0) (attesting (fun d => { d with attBusy := true, attAt := 0x10000000000, attNonce := List.replicate 32 0 }) 5)).leaf = 6
    ∧ ((attesting id 5).home 0x10000000000).cached = true ∧ ((attesting id 5).home (0x10000000000 + 31 + 2812)).cached = true := by decide +kernel

/-- The words of O55's three kinds: a barrel instruction, a node, a step of the machine. -/
theorem witness_WordsDecodeBack : wellFormed (.srai always 5 6 63) = true ∧ wellFormed (.nLdn 0x108 0 2) = true ∧ wellFormed (.evDbgtrig) = true
    ∧ (encode (.srai always 5 6 63)).isSome = true ∧ isEvent .evDbgtrig = true := by decide +kernel

/-- SRAI X[5], X[6], 63 placed where the reset state fetches next. -/
noncomputable def srai : State := State.reset.withFetchWord 32 0x02051BF2
noncomputable def stepped (s : State) : State :=
  match step s with
  | .next t => t
  | _ => State.reset
/-- R30, R163: memory after reset, and after a step that performs a queued store, in its canonical form. -/
theorem witness_MemoryStaysCanonical : Memory.wf State.reset.mem = true
    ∧ (let t := stepped { after (.sd always 5 1 0) storing with agenda := [.event (.evStorePerformed 0 0 0)] }
      Memory.wf t.mem = true ∧ t.mem.length = 8) := by decide +kernel
/-- R36, R144: the thread's word decodes and its step executes; one that stands on the agenda; a step of the machine. -/
theorem witness_StepRunsTheInstruction : let n : State := { srai.setIsland 0 lit with agenda := [] }
    let s : State := { n with tid := 0 }
    n.agenda = [] ∧ n.nextPhase = some 0 ∧ (stepped n).cursor = 1 ∧ (stepped n).agenda = [.issue 0] ∧ s.thr.trapDue = none
    ∧ s.thr.st = .run ∧ s.thr.held = false ∧ s.thr.events = [] ∧ s.thr.poison = none := by decide +kernel
theorem witness_StepRunsTheInstruction_issue : let n : State := { srai.setIsland 0 lit with agenda := [] }
    let s : State := { n with tid := 0 }
    (match s.fetch with
      | .ok w => decide (w = 0x02051BF2)
      | .error _ => false) = true
    ∧ (stepped { n with agenda := [.issue 0] }).thr.pc = s.thr.pc + 4 := by decide +kernel
theorem witness_StepRunsTheInstruction_turn : let n : State := { srai.setIsland 0 lit with agenda := [] }
    let e : State := { n.setSlot 1 { Slot.reset with st := .ended } with cursor := 16 }
    e.nextPhase = none ∧ e.cores.all (fun c => c.2.waiting.isEmpty) = true ∧ ((stepped e).slot 1).st = .free ∧ (stepped e).cursor = 0 := by
  decide +kernel
theorem witness_StepRunsTheInstruction_event :
    (stepped { State.reset with agenda := [.event (.evWidxWrite 3 1), .cycle] }).agenda = [.cycle] ∧ isEvent (.evWidxWrite 3 1) = true := by
  decide +kernel
/-- R236: a place on the agenda fires its node, IADD. -/
def adding : State := cell (nodeWord 1 0 0 0) [] [(0, dt 5 0), (1, dt 6 0)] NodeState.fresh
theorem witness_StepRunsTheInstruction_fire : (decodeNode (nodeWord 1 0 0 0)).isSome = true
    ∧ ((stepped { adding with agenda := [.fire 0 5 cellSite 0] }).region 0 5).map (fun r => (r.queues.filter (fun e => decide (e.1.site = cellSite))).all
        (fun e => e.2.isEmpty)) = some true := by decide +kernel
/-- The table's words as the decoder reads them, and each run as the first instruction after reset. -/
theorem test_table_words : decodeTableWord 32 0x02051BF2 = some (.srai always 5 6 63) ∧ decodeTableWord 32 0x0F8024A0 = some (.trace always 9 10)
    ∧ decodeTableWord 16 0 = none := ⟨rfl, rfl, rfl⟩
theorem test_fetched_word : (stepped (State.reset.withFetchWord 32 0x0EC50080)).thr.pc = 4 + (State.reset.withFetchWord 32 0x0EC50080).thr.pc := by
  decide +kernel

/-! ## Illegal words, copies that freeze and commands that wait -/

/-- R45: words that fail the check of each code first: all ones, major 0x0F, !p0, LACQ's major with an unassigned funct, a scope and a
size above the last, a write to a read-only CSR, LQ at an odd register; the words of two failures take the earlier. -/
theorem witness_IllegalWords : let code (w : BitVec 32) : Option Nat := match decode w with
      | .error k => some k
      | .ok _ => none
    code 0xFFFFFFFF = some 7 ∧ code 0x03C00000 = some 1 ∧ code 0x80000000 = some 3 ∧ code 0x0B4328BF = some 2 ∧ code 0x0B432AB0 = some 5
    ∧ code 0x0B4328D0 = some 5 ∧ code 0x0E850480 = some 4 ∧ code 0x09C75000 = some 6
    ∧ code 0x83C00000 = some 1 ∧ code 0x8B4328BF = some 3 ∧ code 0x0B432ABF = some 2 ∧ code 0x0E8507FF = some 5 ∧ code 0x0B4328B0 = none
    ∧ failsCheck 0x0B4328BF 2 = true ∧ failsCheck 0x0B432ABF 5 = true ∧ failsCheck 0x09C75000 6 = true := by decide +kernel

/-- R318, R320: a CPY that finds its channel full parks CPYQ and enters once it has room; one that issued after a parked one of its
channel parks too; a parked one whose stores are performed goes from MEM to CPYQ. -/
theorem witness_CopyInstructions_parked : let s := after (.cpy always 5 20 0 2) (cp (chan (List.replicate 4 (entry .queued))))
    let r : CopyReq := ⟨2, four, 0x7F1000000100, 0x7F1000000400, 0, none, 0, 5⟩
    let freed := s.setSpire 0 ((s.spire 0).setChannel 2 { chan [] with owner := none })
    let early (q : Reason) (k : List CopyEntry) : State :=
      { (cp (chan k)).setThr { (cp (chan k)).thr with st := .park, park := some ⟨q, .copy r, 0, false, 0⟩ } with tid := 0 }
    s.thr.park.map Park.reason = some .cpyq ∧ s.thr.park.map Park.op = some (.copy r)
    ∧ (after (.evThreadResume 0) s).thr.st = .park
    ∧ (after (.evThreadResume 0) freed).thr.st = .run ∧ (after (.evThreadResume 0) freed).thr.getX 5 = 0
    ∧ (((after (.evThreadResume 0) freed).spire 0).channel 2).queue.map CopyEntry.st = [.landing]
    ∧ (after (.evThreadResume 0) (early .mem (List.replicate 4 (entry .queued)))).thr.park.map Park.reason = some .cpyq
    ∧ (let t := (cp (chan [])).setSlot 1 { Slot.reset with st := .park, park := some ⟨.cpyq, .copy r, 0, false, 0⟩ }
      let u := t.setSpire 0 { t.spire 0 with copySeq := 1 }
      (after (.cpy always 5 20 0 2) u).thr.park.map Park.reason = some .cpyq) := by decide +kernel
/-- R333: a copy frozen on its signal reads SIGP with FROZEN. R335: WMWAIT at an address of the keep that the copy has not reached or has. -/
theorem witness_CopyInstructions_frozen : cpStatus (.cpyq always 5 28 2) (chan [{ entry .frozen with next := 4 }]) = 0x4102
    ∧ cpStatus (.cpyq always 5 28 2) (chan [{ entry .frozen with next := 3 }]) = 0x102
    ∧ (let s (wm : BitVec 48) := (cp (chan [{ entry .landing with wm := wm }])).setThr ((cp (chan [])).thr.setX 9 0x7F1000000408)
      zoneOf 0 0x7F1000000408 = .keep 0 0x408 ∧ (after (.wmwait always 5 9 2) (s 0x7F1000000408)).thr.park.map Park.reason = some .wmark
      ∧ (after (.wmwait always 5 9 2) (s 0x7F1000000410)).thr.st = .run) := by decide +kernel
/-- R328: the freeze on each side of a thread's copy and of a command's; the thread parked at a watermark goes on with its event, the
thread that ended has it in the lantern's ring. -/
def freezing (f : Slot → Slot) (e : CopyEntry) (other : List CopyEntry) : State :=
  let s := started (copyCmd 0 0) 0 []
  let t := s.setSpire 0 (((s.spire 0).setChannel 2 (chan [e])).setChannel 3 (chan other))
  t.setSlot 0 (f { Slot.reset with st := .run, prv := .kernel })
noncomputable def frozenAs (i : Instr) (e : CopyEntry) (other : List CopyEntry) : Nat × List CopyState :=
  let k := (((after i (freezing id e other)).spire 0).channel 2)
  (k.side, k.queue.map CopyEntry.st)
theorem witness_CopySteps_frozen : let src : CopyEntry := { entry .landing with src := 0x600000 }
    let old : CopyEntry := { entry .aborted with dst := 0x7F1000000100, wm := 0x7F1000000100 }
    frozenAs (.evElementLand 0 2) src [] = (0, [.frozen]) ∧ frozenAs (.evElementLand 0 2) { entry .landing with dst := 0x600000 } [] = (1, [.frozen])
    ∧ frozenAs (.evElementLand 0 2) { entry .landing with seq := 1 } [old] = (0, [.frozen])
    ∧ frozenAs (.evCopySignal 0 2) { entry .signal with sig := 0x600000, next := 4 } [] = (2, [.frozen])
    ∧ (after (.evElementLand 0 2) (freezing id src [])).thr.events.length = 1
    ∧ (let t := after (.evElementLand 0 2) (freezing (fun v => { v with st := .park, park := some ⟨.wmark, .wait (.channelMark 2 0), 0, false, 0⟩ }) src [])
      t.thr.st = .run ∧ t.thr.park = none ∧ t.thr.events.length = 1)
    ∧ ((after (.evElementLand 0 2) (freezing (fun v => { v with st := .free }) src [])).queue 0).evw = 1
    ∧ (let t := after (.evElementLand 0 2) (freezing id { src with issuer := .command 0 0 } [])
      (t.queue 0).cmds.map (fun c => c.stalled.isSome) = [true] ∧ (t.queue 0).evw = 1 ∧ t.thr.events = []) := by decide +kernel
/-- R336: the signal of a copy with bytes in host or peer memory waits while a posted write is not acknowledged. -/
theorem witness_CopySteps_far : let s := cp (chan [{ entry .signal with sig := 0x7F1000000800, far := true }])
    let u := { s with peerOut := [⟨0, 0, [1], none, none, true⟩] }
    u.windowFar 0 { entry .signal with far := true } = true ∧ (((after (.evCopySignal 0 2) u).spire 0).channel 2).queue.length = 1
    ∧ (((after (.evCopySignal 0 2) s).spire 0).channel 2).queue = [] := by decide +kernel

/-- R307: an MXA that waits for its thread's stores and then finds its region faulted answers 4, and one that finds room is queued. -/
theorem witness_MatrixInstructions_parked : let o : MatOp := .tile 0x7F1000000100 tileShape 0x7F1000000200 16
    let s (f : Region → Region) : State :=
      let t := mx (some (f (mxRegion .halted id)))
      t.setThr { t.thr with st := .park, park := some ⟨.mem, .matrix 1 o 5, 0, false, 0⟩ }
    (after (.evThreadResume 0) (s (fun r => { r with st := .faulted }))).getX 5 = 4
    ∧ (after (.evThreadResume 0) (s id)).getX 5 = 0 ∧ (after (.evThreadResume 0) (s id)).thr.st = .run
    ∧ ((after (.evThreadResume 0) (s id)).region 0 1).map (fun r => r.matrix.queue) = some [o]
    ∧ (after (.evThreadResume 0) (s (fun r => { r with matrix := { r.matrix with queue := List.replicate 4 o } }))).thr.st = .park := by decide +kernel

/-- R392: a LAUNCH whose block is not read holds back a younger one of another queue on spires that overlap; it holds back no other. -/
theorem witness_CommandSteps_overlap : let s (young : Word) : State :=
      let c : Cmd := cmd (.launch 0 0 []) [0x500000001, 0, 0x4000, 0x7F0000000100, 0x2, 0x803]
      let y : Cmd := cmd (.launch 0 0 (List.replicate 8 0)) [0x500000001, 0, 0x4000, 0, young, 0x803]
      let t := ((started c 0 []).setIsland 0 { Island.reset with st := 1 }).setIsland 3 { Island.reset with st := 1 }
      (t.setQueue 1 { Queue.reset with en := true, cmds := [y] }).setDie 0 { t.die0 with fifo := [(0, 0), (1, 0)] }
    after (.evLaunchPlace 0) (s 2) = s 2 ∧ ((after (.evLaunchPlace 0) (s 2)).slot 0).st = .free
    ∧ ((after (.evLaunchPlace 0) (s 0x010100000002)).slot 256).st = .run := by decide +kernel

/-- R420: a die-level island gates once nothing passes through it; the lantern's with what it holds, once its queues are idle. -/
theorem witness_PowerIslands_die : (isl (.evIslandGate 482) 482 lit).st = 0 ∧ (island 482 lit).pathBusy 482 = false
    ∧ (let s (f : Queue → Queue) : State := (((island 491 lit).setQueue 3 (f Queue.reset)).setDie 0 { Die.reset with absent := [⟨1, none, [], none⟩] })
      ((after (.evIslandGate 491) (s id)).island 491).st = 0 ∧ (after (.evIslandGate 491) (s id)).die0.absent = []
      ∧ ((after (.evIslandGate 491) (s (fun q => { q with widx := 1 }))).island 491).st = 1)
    ∧ (let far := { island 493 lit with peerOut := [⟨0, 0, [1], none, none, true⟩] }
      far.pathBusy 493 = true ∧ ((after (.evIslandGate 493) far).island 493).st = 1) := by decide +kernel

/-- R414: a phase begins with the latches that are due. R236: with a live fabric the cycles up to a phase come first. -/
theorem witness_StepRunsTheInstruction_phases : let n : State := { (srai.setIsland 0 lit).setSpire 0 { Spire.reset with dbg := { Debug.reset with latchAt := some 0 } } with agenda := [] }
    let live : State := { adding with cursor := 3, agenda := [] }
    n.nextPhase = some 0 ∧ (stepped n).agenda.head? = some (.event (.evSnapshotLatch 0))
    ∧ adding.fabricLive = true ∧ live.now = 0 ∧ (stepped live).agenda.head? = some .cycle := by decide +kernel

/-- R430: a request while either die's report is under way is refused; one that is taken keeps its address and its nonce. -/
theorem witness_ErrorsAndStart_request :
    let s (b0 b1 : Bool) : State := { attesting (fun d => { d with attBusy := b0 }) 5 with die1 := { Die.reset with booted := true, attBusy := b1 } }
    (after (.evAttctlWrite 1 1) (s true false)).die1.attStat = 2 ∧ (after (.evAttctlWrite 0 1) (s false true)).die0.attStat = 2
    ∧ (after (.evAttctlWrite 0 1) (s false false)).die0.attAt = 0x10000000000 ∧ (after (.evAttctlWrite 0 1) (s false false)).die0.attNonce.take 4 = [1, 2, 3, 0]
    ∧ ((after (.evAttestationDone 0) (attesting (fun d => { d with attBusy := true, attAt := 0x10000000000, attNonce := List.replicate 32 0 }) 5)).die0).attStat = 1 := by
  decide +kernel

end Sys2Proof.Tests
end

section
/-! PROOFS. The machine right after reset (log 1, log 2): every table is empty, so each slot, queue, spire and island reads as its
own reset record, and the registers of those records are at the values of the manual. -/

namespace Sys2Proof.Machine

@[simp] theorem State.slot_reset (t : Nat) : State.reset.slot t = Slot.reset := rfl
@[simp] theorem State.queue_reset (q : Nat) : State.reset.queue q = Queue.reset := rfl
@[simp] theorem State.spire_reset (g : Nat) : State.reset.spire g = Spire.reset := rfl
@[simp] theorem State.island_reset (i : Nat) : State.reset.island i = Island.reset := rfl

@[simp] theorem State.die_reset (d : Nat) : State.reset.die d = Die.reset := by
  by_cases hd : d = 0 <;> simp [State.die, State.reset, hd]

@[simp] theorem State.links_reset (p : Fin 12) : State.reset.links[p] = false := by simp [State.reset]

/-- Memory lists no byte at reset, so each one reads as log 1 has it, those of LPDDR 5X and of the host too. -/
@[simp] theorem memGet_reset (k : Nat) : memGet k State.reset.mem = 0 := rfl

@[simp] theorem Slot.getX_reset (r : Reg) : Slot.reset.getX r = 0 := by simp [Slot.getX, Slot.reset]

@[simp] theorem Slot.getP_zero (v : Slot) : v.getP 0 = true := by simp [Slot.getP]

@[simp] theorem Slot.fcsr_reset : Slot.reset.fcsr = 0 := by decide
@[simp] theorem Slot.sendst_reset : Slot.reset.sendst = 0 := by decide
@[simp] theorem Slot.tstat_reset : Slot.reset.tstat = 0 := by decide
@[simp] theorem Slot.wdog_reset : Slot.reset.wdog = 0 := by decide
@[simp] theorem Island.reg_reset : Island.reset.reg = 0 := by decide

end Sys2Proof.Machine

namespace Sys2Proof.Proofs

open Sys2Proof.Machine

/-- R83, R124, R134, R156, R361 and R46: a slot that nothing has claimed is FREE and its registers read zero, p0 true. -/
theorem slot_at_reset (t : Nat) : (State.reset.slot t).st = .free ∧ (State.reset.slot t).fcsr = 0
    ∧ (State.reset.slot t).sendst = 0 ∧ (State.reset.slot t).tstat = 0 ∧ (State.reset.slot t).wdog = 0
    ∧ (∀ r, (State.reset.slot t).getX r = 0) ∧ (State.reset.slot t).getP 0 = true := by
  rw [State.slot_reset]
  exact ⟨rfl, Slot.fcsr_reset, Slot.sendst_reset, Slot.tstat_reset, Slot.wdog_reset, Slot.getX_reset, Slot.getP_zero _⟩

/-- R385: the registers of a queue of the lantern. -/
theorem queue_at_reset (q : Nat) : (State.reset.queue q).log2n = 4 ∧ (State.reset.queue q).evlog = 4
    ∧ (State.reset.queue q).en = false ∧ (State.reset.queue q).widx = 0 ∧ (State.reset.queue q).ridx = 0 := by
  rw [State.queue_reset]
  exact ⟨rfl, rfl, rfl, rfl, rfl⟩

/-- R416: the trace registers of a spire, which holds no region. -/
theorem spire_at_reset (g : Nat) : (State.reset.spire g).dbg.trsize = 6 ∧ (State.reset.spire g).dbg.trctl = 0
    ∧ (State.reset.spire g).regions = [] := by
  rw [State.spire_reset]
  exact ⟨rfl, rfl, rfl⟩

/-- R419: an island is unpowered and its register reads zero. -/
theorem island_at_reset (i : Nat) : (State.reset.island i).st = 0 ∧ (State.reset.island i).reg = 0 := by
  rw [State.island_reset]
  exact ⟨rfl, Island.reg_reset⟩

theorem not_booted_at_reset (d : Nat) : (State.reset.die d).booted = false := by
  rw [State.die_reset]
  rfl

/-- Settles O60: each clause is the reset record that an empty table answers with. -/
theorem resetValues : Obligations.ResetValues := by
  unfold Obligations.ResetValues
  exact ⟨rfl, rfl, rfl, memGet_reset, slot_at_reset, queue_at_reset, spire_at_reset, island_at_reset,
    not_booted_at_reset 0, not_booted_at_reset 1, State.links_reset⟩

end Sys2Proof.Proofs
end

section
/-! PROOFS. The results of the integer family (R94 to R105): what the endings shared by its instructions give, the model's
arithmetic told by the numbers its words stand for, and the four statements read off them. -/

namespace Sys2Proof.Machine

/-! ### What the shared endings give -/

theorem GivesX.guarded {i : Instr} {g : Guard} {d : Reg} {f : State → Word} {v : Word} {s : State}
    (hi : exec i s = guarded g (fun s => s.retX d (f s)) s) (hg : s.guardOk g = true) (hv : f s = v) : GivesX i d v s :=
  .of (hi.trans ((guarded_true hg _).trans (by rw [hv])))

theorem GivesX.aluOp {i : Instr} {g : Guard} {d a b : Reg} {f : Word → Word → Word} {v : Word} {s : State}
    (hi : exec i s = aluOp g d a b f s) (hg : s.guardOk g = true) (hv : f (s.getX a) (s.getX b) = v) : GivesX i d v s :=
  .guarded hi hg hv

theorem GivesX.unaryOp {i : Instr} {g : Guard} {d a : Reg} {f : Word → Word} {v : Word} {s : State}
    (hi : exec i s = unaryOp g d a f s) (hg : s.guardOk g = true) (hv : f (s.getX a) = v) : GivesX i d v s :=
  .guarded hi hg hv

theorem GivesP.cmpOp {i : Instr} {g : Guard} {p : PReg} {c : CmpCond} {x y : State → Word} {v : Bool} {s : State}
    (hi : exec i s = cmpOp g p c x y s) (hg : s.guardOk g = true) (hv : c.holds (x s) (y s) = v) : GivesP i p v s :=
  .of (hi.trans ((guarded_true hg _).trans (by rw [hv])))

theorem GivesP.predOp {i : Instr} {g : Guard} {p : PReg} {f : State → Bool} {s : State}
    (hi : exec i s = predOp g p f s) (hg : s.guardOk g = true) : GivesP i p (f s) s :=
  .of (hi.trans (guarded_true hg _))

/-! ### Word operations as arithmetic modulo 2^w, at every width -/

theorem sub_eq_ofInt {w : Nat} (x y : BitVec w) : x - y = BitVec.ofInt w (x.toInt - y.toInt) := by
  rw [Int.sub_eq_add_neg, BitVec.ofInt_add, BitVec.ofInt_neg, BitVec.ofInt_toInt, BitVec.ofInt_toInt, BitVec.sub_eq_add_neg]

theorem mul_eq_ofNat {w : Nat} (x y : BitVec w) : x * y = BitVec.ofNat w (x.toNat * y.toNat) :=
  BitVec.eq_of_toNat_eq (by simp)

theorem shiftLeft_eq_ofNat {w : Nat} (x : BitVec w) (n : Nat) : x <<< n = BitVec.ofNat w (x.toNat * 2 ^ n) :=
  BitVec.eq_of_toNat_eq (by simp [Nat.shiftLeft_eq])

theorem ushiftRight_eq_ofNat {w : Nat} (x : BitVec w) (n : Nat) : x >>> n = BitVec.ofNat w (x.toNat / 2 ^ n) := by
  rw [← Nat.shiftRight_eq_div_pow, ← BitVec.toNat_ushiftRight, BitVec.ofNat_toNat, BitVec.setWidth_eq]

theorem toInt_sshiftRight_eq_div {w : Nat} (x : BitVec w) (n : Nat) : (x.sshiftRight n).toInt = x.toInt / 2 ^ n := by
  rw [BitVec.toInt_sshiftRight, Int.shiftRight_eq_div_pow, Int.natCast_pow]
  rfl

theorem sshiftRight_eq_ofInt {w : Nat} (x : BitVec w) (n : Nat) : x.sshiftRight n = BitVec.ofInt w (x.toInt / 2 ^ n) := by
  rw [← toInt_sshiftRight_eq_div, BitVec.ofInt_toInt]

/-- A rotation right is the sum of its two parts, as they have no bit in common. -/
theorem rotateRight_eq_ofNat {w n : Nat} (x : BitVec w) (h : n < w) :
    x.rotateRight n = BitVec.ofNat w (x.toNat / 2 ^ n + x.toNat * 2 ^ (w - n)) := by
  have disjoint : x >>> n &&& x <<< (w - n) = 0#w := by
    refine BitVec.eq_of_getLsbD_eq fun i _ => ?_
    by_cases hi : i < w - n
    · simp [hi]
    · simp [BitVec.getLsbD_of_ge x (n + i) (by omega)]
  rw [BitVec.rotateRight_def, Nat.mod_eq_of_lt h, ← BitVec.add_eq_or_of_and_eq_zero _ _ disjoint, BitVec.ofNat_add,
    ushiftRight_eq_ofNat, shiftLeft_eq_ofNat]

theorem rotateRight_zero {w : Nat} (x : BitVec w) : x.rotateRight 0 = x := by simp [BitVec.rotateRight_def]

theorem sdiv_eq_ofInt {w : Nat} (x y : BitVec w) : x.sdiv y = BitVec.ofInt w (x.toInt.tdiv y.toInt) :=
  BitVec.eq_of_toInt_eq (by rw [BitVec.toInt_sdiv, BitVec.toInt_ofInt])

theorem srem_eq_ofInt {w : Nat} (x y : BitVec w) : x.srem y = BitVec.ofInt w (x.toInt.tmod y.toInt) := by
  rw [← BitVec.toInt_srem, BitVec.ofInt_toInt]

theorem extractLsb'_ofInt_high (z : Int) : (BitVec.ofInt 128 z).extractLsb' 64 64 = BitVec.ofInt 64 (z / 2 ^ 64) := by
  apply BitVec.eq_of_toNat_eq
  simp only [BitVec.extractLsb'_toNat, BitVec.toNat_ofInt, Nat.shiftRight_eq_div_pow]
  omega

/-! ### ALU and ALUW (R94 to R96) -/

theorem shAmt_lt (b : Word) : shAmt b < 64 := Nat.mod_lt _ (by decide)

/-- A signed extension is the word of the same integer, so the product of two is the word of the product. -/
theorem mulHigh_eq_ofInt (x y : Word) : mulHigh x y = BitVec.ofInt 64 (x.toInt * y.toInt / 2 ^ 64) := by
  rw [← extractLsb'_ofInt_high, BitVec.ofInt_mul]
  rfl

theorem mulHighU_eq_ofNat (x y : Word) : mulHighU x y = BitVec.ofNat 64 (x.toNat * y.toNat / 2 ^ 64) := by
  have product : x.setWidth 128 * y.setWidth 128 = BitVec.ofInt 128 (x.toNat * y.toNat : Nat) := by
    rw [BitVec.ofInt_natCast, BitVec.ofNat_mul, BitVec.ofNat_toNat, BitVec.ofNat_toNat]
  rw [mulHighU, product, extractLsb'_ofInt_high, ← BitVec.ofInt_natCast]
  norm_cast

theorem toNat_low32 (a : Word) : (low32 a).toNat = a.toNat % 2 ^ 32 := BitVec.toNat_setWidth 32 a

/-- The 32-bit word of a number, read as signed. -/
theorem toInt_ofNat_32 (n : Nat) : (BitVec.ofNat 32 n).toInt
    = if n % 2 ^ 32 < 2 ^ 31 then ((n % 2 ^ 32 : Nat) : Int) else (n % 2 ^ 32 : Nat) - 2 ^ 32 := by
  rw [BitVec.toInt_eq_toNat_cond, BitVec.toNat_ofNat]
  omega

theorem toInt_low32 (a : Word) : (low32 a).toInt
    = if a.toNat % 2 ^ 32 < 2 ^ 31 then ((a.toNat % 2 ^ 32 : Nat) : Int) else (a.toNat % 2 ^ 32 : Nat) - 2 ^ 32 := by
  rw [low32, ← BitVec.ofNat_toNat, toInt_ofNat_32]

theorem sext32_eq_ofInt (w : BitVec 32) : sext32 w = BitVec.ofInt 64 w.toInt := rfl

/-- R96: a 32-bit result told by a number is that number's low 32 bits, extended from bit 31. -/
theorem sext32_of_eq_ofNat {w : BitVec 32} {n : Nat} (h : w = BitVec.ofNat 32 n) : sext32 w
    = BitVec.ofInt 64 (if n % 2 ^ 32 < 2 ^ 31 then (n % 2 ^ 32 : Nat) else (n % 2 ^ 32 : Nat) - 2 ^ 32) := by
  rw [sext32_eq_ofInt, h, toInt_ofNat_32]

theorem low32_add (x y : Word) : low32 x + low32 y = BitVec.ofNat 32 (x.toNat % 2 ^ 32 + y.toNat % 2 ^ 32) := by
  rw [BitVec.add_def, toNat_low32, toNat_low32]

theorem low32_sub (x y : Word) : low32 x - low32 y = BitVec.ofNat 32 (2 ^ 32 + x.toNat % 2 ^ 32 - y.toNat % 2 ^ 32) := by
  rw [BitVec.sub_def, toNat_low32, toNat_low32, Nat.sub_add_comm (by omega)]

theorem low32_mul (x y : Word) : low32 x * low32 y = BitVec.ofNat 32 (x.toNat % 2 ^ 32 * (y.toNat % 2 ^ 32)) := by
  rw [mul_eq_ofNat, toNat_low32, toNat_low32]

theorem low32_shiftLeft (x : Word) (n : Nat) : low32 x <<< n = BitVec.ofNat 32 (x.toNat % 2 ^ 32 * 2 ^ n) := by
  rw [shiftLeft_eq_ofNat, toNat_low32]

theorem low32_ushiftRight (x : Word) (n : Nat) : low32 x >>> n = BitVec.ofNat 32 (x.toNat % 2 ^ 32 / 2 ^ n) := by
  rw [ushiftRight_eq_ofNat, toNat_low32]

theorem sext32_sshiftRight_low32 (x : Word) (n : Nat) : sext32 ((low32 x).sshiftRight n) = BitVec.ofInt 64
    ((if x.toNat % 2 ^ 32 < 2 ^ 31 then ((x.toNat % 2 ^ 32 : Nat) : Int) else (x.toNat % 2 ^ 32 : Nat) - 2 ^ 32) / 2 ^ n) := by
  rw [sext32_eq_ofInt, toInt_sshiftRight_eq_div, toInt_low32]

theorem eq_zero_iff_toNat {y : Word} : y = 0 ↔ y.toNat = 0 := BitVec.toNat_eq

/-- R94: quotient and remainder of the most negative number by −1 are what R95 lists: the quotient wraps. -/
theorem divS_eq (x y : Word) : divS x y = if y.toNat = 0 then 0xFFFFFFFFFFFFFFFF
    else if x.toInt = -2 ^ 63 ∧ y.toInt = -1 then 0x8000000000000000 else BitVec.ofInt 64 (x.toInt.tdiv y.toInt) := by
  simp only [divS, eq_zero_iff_toNat, sdiv_eq_ofInt]
  by_cases hzero : y.toNat = 0
  · rw [if_pos hzero, if_pos hzero]; rfl
  · rw [if_neg hzero, if_neg hzero]
    split
    · next hover => rw [hover.1, hover.2]; rfl
    · rfl

theorem remS_eq (x y : Word) : remS x y = if y.toNat = 0 then x
    else if x.toInt = -2 ^ 63 ∧ y.toInt = -1 then 0 else BitVec.ofInt 64 (x.toInt.tmod y.toInt) := by
  simp only [remS, eq_zero_iff_toNat, srem_eq_ofInt]
  by_cases hzero : y.toNat = 0
  · rw [if_pos hzero, if_pos hzero]
  · rw [if_neg hzero, if_neg hzero]
    split
    · next hover => rw [hover.1, hover.2]; rfl
    · rfl

theorem divU_eq (x y : Word) :
    divU x y = if y.toNat = 0 then 0xFFFFFFFFFFFFFFFF else BitVec.ofNat 64 (x.toNat / y.toNat) := by
  simp only [divU, eq_zero_iff_toNat]
  by_cases hzero : y.toNat = 0
  · rw [if_pos hzero, if_pos hzero]; rfl
  · rw [if_neg hzero, if_neg hzero]; exact BitVec.udiv_def

theorem remU_eq (x y : Word) : remU x y = if y.toNat = 0 then x else BitVec.ofNat 64 (x.toNat % y.toNat) := by
  simp only [remU, eq_zero_iff_toNat]
  by_cases hzero : y.toNat = 0
  · rw [if_pos hzero, if_pos hzero]
  · rw [if_neg hzero, if_neg hzero]; exact BitVec.umod_def

/-! ### BIT (R97) -/

theorem absS_eq (x : Word) : absS x = BitVec.ofNat 64 x.toInt.natAbs := by
  cases hm : x.msb with
  | true => simp [absS, hm, BitVec.toInt_eq_neg_toNat_neg_of_msb_true hm, -BitVec.toNat_neg]
  | false => simp [absS, hm, BitVec.toInt_eq_toNat_of_msb hm]

theorem minS_eq (x y : Word) : minS x y = if x.toInt ≤ y.toInt then x else y := by
  simp only [minS, BitVec.sle_iff_toInt_le]

theorem maxS_eq (x y : Word) : maxS x y = if x.toInt ≤ y.toInt then y else x := by
  simp only [maxS, BitVec.sle_iff_toInt_le]

theorem minU_eq (x y : Word) : minU x y = if x.toNat ≤ y.toNat then x else y := by
  simp only [minU, BitVec.ule_iff_toNat_le]

theorem maxU_eq (x y : Word) : maxU x y = if x.toNat ≤ y.toNat then y else x := by
  simp only [maxU, BitVec.ule_iff_toNat_le]

theorem lt_two_pow_bitLen (n : Nat) : n < 2 ^ bitLen n := by
  unfold bitLen
  split
  · omega
  · exact Nat.lt_log2_self

theorem bitLen_le {n w : Nat} (h : n < 2 ^ w) : bitLen n ≤ w := by
  unfold bitLen
  split
  · exact Nat.zero_le w
  · next hn => exact Nat.log2_lt hn |>.mpr h

theorem testBit_bitLen {n : Nat} (h : 0 < bitLen n) : n.testBit (bitLen n - 1) = true := by
  unfold bitLen at h ⊢
  split at h
  · omega
  · next hn => simpa [hn] using Nat.testBit_log2 hn

theorem getLsbD_above_bitLen (x : Word) {j : Nat} (h : bitLen x.toNat ≤ j) : x.getLsbD j = false :=
  Nat.testBit_lt_two_pow (Nat.lt_of_lt_of_le (lt_two_pow_bitLen _) (Nat.pow_le_pow_right (by decide) h))

/-- R97: CLZ counts the zero bits above the highest set bit. -/
theorem countLeading_spec (x : Word) : ∃ n, n ≤ 64 ∧ countLeading x = BitVec.ofNat 64 n
    ∧ (∀ i, i < n → x.getLsbD (63 - i) = false) ∧ (n < 64 → x.getLsbD (63 - n) = true) := by
  have hle : bitLen x.toNat ≤ 64 := bitLen_le x.isLt
  refine ⟨64 - bitLen x.toNat, Nat.sub_le _ _, rfl, fun i hi => getLsbD_above_bitLen x (by omega), fun hn => ?_⟩
  have htop : 63 - (64 - bitLen x.toNat) = bitLen x.toNat - 1 := by omega
  rw [htop]
  exact testBit_bitLen (by omega)

theorem trailingFrom_le (a : Word) (n j : Nat) : trailingFrom a n j ≤ n := by
  induction n generalizing j with
  | zero => exact Nat.le_refl 0
  | succ n ih =>
    have := ih (j + 1)
    unfold trailingFrom
    split <;> omega

theorem getLsbD_below_trailingFrom (a : Word) {n j i : Nat} (h : i < trailingFrom a n j) : a.getLsbD (j + i) = false := by
  induction n generalizing i j with
  | zero => simp [trailingFrom] at h
  | succ n ih =>
    unfold trailingFrom at h
    split at h
    · omega
    · next hj =>
      cases i with
      | zero => simpa using hj
      | succ i =>
        rw [← Nat.add_assoc, Nat.add_right_comm]
        exact ih (by omega)

theorem getLsbD_trailingFrom (a : Word) {n j : Nat} (h : trailingFrom a n j < n) :
    a.getLsbD (j + trailingFrom a n j) = true := by
  induction n generalizing j with
  | zero => omega
  | succ n ih =>
    unfold trailingFrom at h ⊢
    split at h
    · next hj => simp [hj]
    · next hj =>
      rw [if_neg hj, ← Nat.add_assoc]
      exact ih (by omega)

/-- R97: CTZ counts the zero bits below the lowest set bit. -/
theorem countTrailing_spec (x : Word) : ∃ n, n ≤ 64 ∧ countTrailing x = BitVec.ofNat 64 n
    ∧ (∀ i, i < n → x.getLsbD i = false) ∧ (n < 64 → x.getLsbD n = true) := by
  refine ⟨trailingFrom x 64 0, trailingFrom_le x 64 0, rfl, fun i hi => ?_, fun hn => ?_⟩
  · simpa using getLsbD_below_trailingFrom x hi
  · simpa using getLsbD_trailingFrom x hn

theorem popFrom_eq_countP (a : Word) (n : Nat) : popFrom a n = (List.range n).countP (fun i => a.getLsbD i) := by
  induction n with
  | zero => rfl
  | succ n ih => rw [popFrom, ih, List.range_succ, List.countP_append, List.countP_singleton, Nat.add_comm]

theorem popCount_eq (x : Word) : popCount x = BitVec.ofNat 64 ((List.range 64).countP (fun i => x.getLsbD i)) := by
  rw [popCount, popFrom_eq_countP]

theorem getLsbD_bitReverse (a : Word) {i : Nat} (h : i < 64) : (bitReverse a).getLsbD i = a.getLsbD (63 - i) := by
  rw [bitReverse, BitVec.getLsbD_reverse, BitVec.getMsbD_eq_getLsbD, decide_eq_true h, Bool.true_and]

theorem extractLsb'_append_byte_zero {v : Nat} (x : BitVec v) (y : BitVec 8) : (x ++ y).extractLsb' (8 * 0) 8 = y :=
  BitVec.extractLsb'_append_eq_right

theorem extractLsb'_append_byte_succ {v : Nat} (x : BitVec v) (y : BitVec 8) (i : Nat) :
    (x ++ y).extractLsb' (8 * (i + 1)) 8 = x.extractLsb' (8 * i) 8 := by
  rw [BitVec.extractLsb'_append_eq_of_le (by omega), Nat.mul_succ, Nat.add_sub_cancel]

/-- A byte of a word that is written as its eight bytes, the highest first. -/
theorem extractLsb'_append_bytes (b : Nat → BitVec 8) {i : Nat} (h : i < 8) :
    (b 0 ++ b 1 ++ b 2 ++ b 3 ++ b 4 ++ b 5 ++ b 6 ++ b 7).extractLsb' (8 * i) 8 = b (7 - i) := by
  have cases8 : i = 0 ∨ i = 1 ∨ i = 2 ∨ i = 3 ∨ i = 4 ∨ i = 5 ∨ i = 6 ∨ i = 7 := by omega
  rcases cases8 with rfl | rfl | rfl | rfl | rfl | rfl | rfl | rfl <;>
    simp only [extractLsb'_append_byte_succ, extractLsb'_append_byte_zero]
  exact BitVec.extractLsb'_eq_self

theorem extractLsb'_byteSwap (a : Word) {i : Nat} (h : i < 8) :
    (byteSwap a).extractLsb' (8 * i) 8 = a.extractLsb' (8 * (7 - i)) 8 :=
  extractLsb'_append_bytes (fun j => a.extractLsb' (8 * j) 8) h

theorem zeroExtend_eq_ofNat (x : Word) (n : Nat) :
    (x.setWidth n).setWidth 64 = BitVec.ofNat 64 (x.toNat % 2 ^ n) := by
  rw [← BitVec.toNat_setWidth, BitVec.ofNat_toNat]

/-! ### Immediates and constants (R98 to R101) -/

theorem imm10_eq_ofInt (i : BitVec 10) : imm10 i = BitVec.ofInt 64 i.toInt := rfl

theorem toInt_imm10 (i : BitVec 10) : (imm10 i).toInt = i.toInt := BitVec.toInt_signExtend_of_le (by decide)

theorem add_imm10_eq_ofInt (x : Word) (i : BitVec 10) : x + imm10 i = BitVec.ofInt 64 (x.toInt + i.toInt) := by
  rw [BitVec.ofInt_add, BitVec.ofInt_toInt, imm10_eq_ofInt]

theorem immUpper_eq_ofInt (i : BitVec 16) : immUpper i = BitVec.ofInt 64 (i.toInt * 2 ^ 16) := by
  have hi := i.isLt
  have signed : ((i.setWidth 32) <<< 16).toInt = i.toInt * 2 ^ 16 := by
    simp only [BitVec.toInt_eq_toNat_cond, BitVec.toNat_shiftLeft, BitVec.toNat_setWidth, Nat.shiftLeft_eq]
    omega
  rw [← signed]
  rfl

theorem lix_eq_ofNat (x : Word) (i : BitVec 16) :
    x <<< 16 ||| i.setWidth 64 = BitVec.ofNat 64 (x.toNat * 2 ^ 16 + i.toNat) := by
  have disjoint : x <<< 16 &&& i.setWidth 64 = 0#64 := by
    refine BitVec.eq_of_getLsbD_eq fun k _ => ?_
    by_cases hk : k < 16
    · simp [hk]
    · simp [BitVec.getLsbD_of_ge i k (by omega)]
  rw [← BitVec.add_eq_or_of_and_eq_zero _ _ disjoint, BitVec.ofNat_add, BitVec.ofNat_toNat, shiftLeft_eq_ofNat]

theorem add_shiftLeft_eq_ofNat (x y : Word) (k : Nat) : x + y <<< k = BitVec.ofNat 64 (x.toNat + y.toNat * 2 ^ k) := by
  rw [BitVec.ofNat_add, BitVec.ofNat_toNat, BitVec.setWidth_eq, shiftLeft_eq_ofNat]

/-! ### Compares (R102) and the predicate file (R105) -/

theorem CmpCond.eq_holds (x y : Word) : CmpCond.eq.holds x y = decide (x.toNat = y.toNat) := by
  simp [CmpCond.holds, BitVec.toNat_eq]

theorem CmpCond.ne_holds (x y : Word) : CmpCond.ne.holds x y = decide (x.toNat ≠ y.toNat) := by
  simp [CmpCond.holds, BitVec.toNat_eq]

theorem CmpCond.lt_holds (x y : Word) : CmpCond.lt.holds x y = decide (x.toInt < y.toInt) := BitVec.slt_eq_decide

theorem CmpCond.ltu_holds (x y : Word) : CmpCond.ltu.holds x y = decide (x.toNat < y.toNat) := BitVec.ult_eq_decide

theorem CmpCond.le_holds (x y : Word) : CmpCond.le.holds x y = decide (x.toInt ≤ y.toInt) := BitVec.sle_eq_decide

theorem CmpCond.leu_holds (x y : Word) : CmpCond.leu.holds x y = decide (x.toNat ≤ y.toNat) := BitVec.ule_eq_decide

theorem CmpCond.eq_holds_imm10 (x : Word) (i : BitVec 10) : CmpCond.eq.holds x (imm10 i) = decide (x.toInt = i.toInt) := by
  simp only [CmpCond.holds, ← toInt_imm10, BitVec.toInt_inj]

theorem CmpCond.ne_holds_imm10 (x : Word) (i : BitVec 10) : CmpCond.ne.holds x (imm10 i) = decide (x.toInt ≠ i.toInt) := by
  simp only [CmpCond.holds, ← toInt_imm10, ne_eq, BitVec.toInt_inj]

theorem CmpCond.lt_holds_imm10 (x : Word) (i : BitVec 10) : CmpCond.lt.holds x (imm10 i) = decide (x.toInt < i.toInt) := by
  rw [CmpCond.lt_holds, toInt_imm10]

theorem CmpCond.le_holds_imm10 (x : Word) (i : BitVec 10) : CmpCond.le.holds x (imm10 i) = decide (x.toInt ≤ i.toInt) := by
  rw [CmpCond.le_holds, toInt_imm10]

/-- A word is not zero when one of its 64 bits is set. -/
theorem CmpCond.tst_holds (x y : Word) :
    CmpCond.tst.holds x y = (List.range 64).any (fun k => x.getLsbD k && y.getLsbD k) := by
  rw [CmpCond.holds, Bool.eq_iff_iff, decide_eq_true_iff, List.any_eq_true, ne_eq, BitVec.eq_of_getLsbD_eq_iff]
  simp

/-- The number whose bit 0 is set and whose bits 1 to `n` are `f 0` to `f (n - 1)`: PGET's word before it is a word. -/
def predNumber (f : Nat → Bool) (n : Nat) : Nat := 1 + ((List.range n).map (fun i => if f i then 2 ^ (i + 1) else 0)).sum

theorem predNumber_succ (f : Nat → Bool) (n : Nat) :
    predNumber f (n + 1) = 2 ^ (n + 1) * (f n).toNat + predNumber f n := by
  have weight : (if f n then 2 ^ (n + 1) else 0) = 2 ^ (n + 1) * (f n).toNat := by cases f n <;> simp
  simp only [predNumber, List.range_succ, List.map_append, List.sum_append, List.map_cons, List.map_nil, List.sum_cons,
    List.sum_nil, weight]
  omega

theorem predNumber_lt (f : Nat → Bool) (n : Nat) : predNumber f n < 2 ^ (n + 1) := by
  induction n with
  | zero => simp [predNumber]
  | succ n ih =>
    have hbit : 2 ^ (n + 1) * (f n).toNat ≤ 2 ^ (n + 1) * 1 := Nat.mul_le_mul_left _ (Bool.toNat_le (f n))
    rw [predNumber_succ, Nat.pow_succ 2 (n + 1)]
    omega

theorem testBit_predNumber (f : Nat → Bool) (n k : Nat) :
    (predNumber f n).testBit k = (decide (k = 0) || (decide (k < n + 1) && f (k - 1))) := by
  induction n with
  | zero => cases k <;> simp [predNumber, Nat.testBit_add_one]
  | succ n ih =>
    rw [predNumber_succ, Nat.testBit_two_pow_mul_add _ (predNumber_lt f n)]
    split
    · next hk =>
      have hk' : k < n + 1 + 1 := by omega
      rw [ih, decide_eq_true hk, decide_eq_true hk']
    · next hk =>
      have hpos : k ≠ 0 := by omega
      by_cases htop : k = n + 1
      · subst htop
        cases hf : f n <;> simp [hf]
      · have habove : ¬ k < n + 1 + 1 := by omega
        have hbit : (f n).toNat < 2 ^ (k - (n + 1)) :=
          Nat.lt_of_lt_of_le (Bool.toNat_lt (f n)) (Nat.pow_le_pow_right Nat.zero_lt_two (by omega : 1 ≤ k - (n + 1)))
        rw [Nat.testBit_lt_two_pow hbit, decide_eq_false hpos, decide_eq_false habove]
        rfl

theorem Slot.predWord_eq_ofNat (v : Slot) :
    v.predWord = BitVec.ofNat 64 (predNumber (fun i => v.getP (Fin.ofNat 8 (i + 1))) 7) := rfl

theorem Slot.getLsbD_predWord (v : Slot) (k : Nat) :
    v.predWord.getLsbD k = (decide (k = 0) || (decide (k < 8) && v.getP (Fin.ofNat 8 k))) := by
  rw [Slot.predWord_eq_ofNat, BitVec.getLsbD_ofNat, testBit_predNumber]
  cases k with
  | zero => rfl
  | succ k =>
    by_cases hk : k + 1 < 8
    · have hword : k + 1 < 64 := by omega
      simp [hk, hword]
    · simp [hk]

theorem Slot.getP_setPreds (v : Slot) (w : Word) (k : PReg) :
    (v.setPreds w).getP k = (decide (k = 0) || w.getLsbD k.val) := by
  by_cases hk : k = 0 <;> simp [Slot.getP, Slot.setPreds, hk]

end Sys2Proof.Machine

namespace Sys2Proof.Proofs

open Sys2Proof.Machine

/-- Settles O1: each instruction is one operation on words, told by the numbers that they stand for. -/
theorem integerArithmetic : Obligations.IntegerArithmetic := by
  unfold Obligations.IntegerArithmetic
  refine ⟨fun g d a b s hg => ⟨?add, ?sub, ?mul, ?mulh, ?mulhu, ?and, ?or, ?xor, ?shl, ?shr, ?sra, ?rot⟩,
    fun g d a b s hg => ⟨?addw, ?subw, ?mulw, ?shlw, ?shrw, ?sraw⟩⟩
  case add => exact .aluOp (exec_add ..) hg (BitVec.add_def _ _)
  case sub => exact .aluOp (exec_sub ..) hg (sub_eq_ofInt _ _)
  case mul => exact .aluOp (exec_mul ..) hg (mul_eq_ofNat _ _)
  case mulh => exact .aluOp (exec_mulh ..) hg (mulHigh_eq_ofInt _ _)
  case mulhu => exact .aluOp (exec_mulhu ..) hg (mulHighU_eq_ofNat _ _)
  case and => exact .aluOp (exec_and ..) hg rfl
  case or => exact .aluOp (exec_or ..) hg rfl
  case xor => exact .aluOp (exec_xor ..) hg rfl
  case shl => exact .aluOp (exec_shl ..) hg (shiftLeft_eq_ofNat _ _)
  case shr => exact .aluOp (exec_shr ..) hg (ushiftRight_eq_ofNat _ _)
  case sra => exact .aluOp (exec_sra ..) hg (sshiftRight_eq_ofInt _ _)
  case rot => exact .aluOp (exec_rot ..) hg (rotateRight_eq_ofNat _ (shAmt_lt _))
  case addw => exact .aluOp (exec_addw ..) hg (sext32_of_eq_ofNat (low32_add _ _))
  case subw => exact .aluOp (exec_subw ..) hg (sext32_of_eq_ofNat (low32_sub _ _))
  case mulw => exact .aluOp (exec_mulw ..) hg (sext32_of_eq_ofNat (low32_mul _ _))
  case shlw => exact .aluOp (exec_shlw ..) hg (sext32_of_eq_ofNat (low32_shiftLeft _ _))
  case shrw => exact .aluOp (exec_shrw ..) hg (sext32_of_eq_ofNat (low32_ushiftRight _ _))
  case sraw => exact .aluOp (exec_sraw ..) hg (sext32_sshiftRight_low32 _ _)

/-- Settles O2: the model's division cases on the divisor alone, and the one overflow wraps to what R95 lists. -/
theorem divisionCorners : Obligations.DivisionCorners := by
  unfold Obligations.DivisionCorners
  refine fun g d a b s hg => ⟨?div, ?divu, ?rem, ?remu, ?shl, ?shr, ?sra, fun hsh => ⟨?shl0, ?shr0, ?sra0, ?rot0⟩⟩
  case div => exact .aluOp (exec_div ..) hg (divS_eq _ _)
  case divu => exact .aluOp (exec_divu ..) hg (divU_eq _ _)
  case rem => exact .aluOp (exec_rem ..) hg (remS_eq _ _)
  case remu => exact .aluOp (exec_remu ..) hg (remU_eq _ _)
  case shl => exact .aluOp (exec_shl ..) hg (shiftLeft_eq_ofNat _ _)
  case shr => exact .aluOp (exec_shr ..) hg (ushiftRight_eq_ofNat _ _)
  case sra => exact .aluOp (exec_sra ..) hg (sshiftRight_eq_ofInt _ _)
  case shl0 => exact .aluOp (exec_shl ..) hg (by rw [shAmt, hsh, BitVec.shiftLeft_zero])
  case shr0 => exact .aluOp (exec_shr ..) hg (by rw [shAmt, hsh, BitVec.ushiftRight_zero])
  case sra0 => exact .aluOp (exec_sra ..) hg (by rw [shAmt, hsh, BitVec.sshiftRight_zero])
  case rot0 => exact .aluOp (exec_rot ..) hg (by rw [shAmt, hsh, rotateRight_zero])

/-- Settles O3: the counts and reversals by what `bitLen`, `trailingFrom`, `popFrom` and `byteSwap` say of the bits, the other
instructions by the numbers that words stand for. -/
theorem bitAndImmediateResults : Obligations.BitAndImmediateResults := by
  unfold Obligations.BitAndImmediateResults
  refine ⟨fun g d a b s hg => ⟨?min, ?max, ?minu, ?maxu, ?abs, ?clz, ?ctz, ?popc, ?brev, ?bswap, ?sextb, ?sexth, ?sextw, ?zextb,
      ?zexth, ?zextw⟩,
    fun g d a b i n u s hg => ⟨?addi, ?andi, ?ori, ?xori, ?shli, ?shri, ?srai, ?roti, ?lui, ?lix, ?shadd1, ?shadd2, ?shadd3,
      ?shadd4⟩⟩
  case min => exact .aluOp (exec_min ..) hg (minS_eq _ _)
  case max => exact .aluOp (exec_max ..) hg (maxS_eq _ _)
  case minu => exact .aluOp (exec_minu ..) hg (minU_eq _ _)
  case maxu => exact .aluOp (exec_maxu ..) hg (maxU_eq _ _)
  case abs => exact .unaryOp (exec_abs ..) hg (absS_eq _)
  case clz =>
    obtain ⟨n, hn, hcount, hzero, hone⟩ := countLeading_spec (s.getX a)
    exact ⟨n, hn, .unaryOp (exec_clz ..) hg hcount, hzero, hone⟩
  case ctz =>
    obtain ⟨n, hn, hcount, hzero, hone⟩ := countTrailing_spec (s.getX a)
    exact ⟨n, hn, .unaryOp (exec_ctz ..) hg hcount, hzero, hone⟩
  case popc => exact .unaryOp (exec_popc ..) hg (popCount_eq _)
  case brev => exact ⟨_, .unaryOp (exec_brev ..) hg rfl, fun _ hi => getLsbD_bitReverse _ hi⟩
  case bswap => exact ⟨_, .unaryOp (exec_bswap ..) hg rfl, fun _ hi => extractLsb'_byteSwap _ hi⟩
  case sextb => exact .unaryOp (exec_sextb ..) hg rfl
  case sexth => exact .unaryOp (exec_sexth ..) hg rfl
  case sextw => exact .unaryOp (exec_sextw ..) hg rfl
  case zextb => exact .unaryOp (exec_zextb ..) hg (zeroExtend_eq_ofNat _ 8)
  case zexth => exact .unaryOp (exec_zexth ..) hg (zeroExtend_eq_ofNat _ 16)
  case zextw => exact .unaryOp (exec_zextw ..) hg (zeroExtend_eq_ofNat _ 32)
  case addi => exact .unaryOp (exec_addi ..) hg (add_imm10_eq_ofInt _ _)
  case andi => exact .unaryOp (exec_andi ..) hg rfl
  case ori => exact .unaryOp (exec_ori ..) hg rfl
  case xori => exact .unaryOp (exec_xori ..) hg rfl
  case shli => exact .unaryOp (exec_shli ..) hg (shiftLeft_eq_ofNat _ _)
  case shri => exact .unaryOp (exec_shri ..) hg (ushiftRight_eq_ofNat _ _)
  case srai => exact .unaryOp (exec_srai ..) hg (sshiftRight_eq_ofInt _ _)
  case roti => exact .unaryOp (exec_roti ..) hg (rotateRight_eq_ofNat _ n.isLt)
  case lui => exact .guarded (exec_lui ..) hg (immUpper_eq_ofInt _)
  case lix => exact .unaryOp (exec_lix ..) hg (lix_eq_ofNat _ _)
  case shadd1 => exact .aluOp (exec_shadd1 ..) hg (add_shiftLeft_eq_ofNat _ _ 1)
  case shadd2 => exact .aluOp (exec_shadd2 ..) hg (add_shiftLeft_eq_ofNat _ _ 2)
  case shadd3 => exact .aluOp (exec_shadd3 ..) hg (add_shiftLeft_eq_ofNat _ _ 3)
  case shadd4 => exact .aluOp (exec_shadd4 ..) hg (add_shiftLeft_eq_ofNat _ _ 4)

/-- Settles O4: the condition table told by the numbers compared; PSET is the one instruction that does not end in `retX` or
`retP`. -/
theorem comparesAndPredicates : Obligations.ComparesAndPredicates := by
  unfold Obligations.ComparesAndPredicates
  refine ⟨fun g p a b i s hg => ⟨?ceq, ?cne, ?clt, ?cltu, ?cle, ?cleu, ?ctst,
      ?ceqi, ?cnei, ?clti, ?cltui, ?clei, ?cleui, ?ctsti⟩,
    fun g p q r d a s hg => ⟨?pand, ?por, ?pxor, ?pandn, ?pnot, ?pmov, ?pget, ?pset⟩⟩
  case ceq => exact .cmpOp (exec_ceq ..) hg (CmpCond.eq_holds _ _)
  case cne => exact .cmpOp (exec_cne ..) hg (CmpCond.ne_holds _ _)
  case clt => exact .cmpOp (exec_clt ..) hg (CmpCond.lt_holds _ _)
  case cltu => exact .cmpOp (exec_cltu ..) hg (CmpCond.ltu_holds _ _)
  case cle => exact .cmpOp (exec_cle ..) hg (CmpCond.le_holds _ _)
  case cleu => exact .cmpOp (exec_cleu ..) hg (CmpCond.leu_holds _ _)
  case ctst => exact .cmpOp (exec_ctst ..) hg (CmpCond.tst_holds _ _)
  case ceqi => exact .cmpOp (exec_ceqi ..) hg (CmpCond.eq_holds_imm10 _ _)
  case cnei => exact .cmpOp (exec_cnei ..) hg (CmpCond.ne_holds_imm10 _ _)
  case clti => exact .cmpOp (exec_clti ..) hg (CmpCond.lt_holds_imm10 _ _)
  case cltui => exact .cmpOp (exec_cltui ..) hg (CmpCond.ltu_holds _ _)
  case clei => exact .cmpOp (exec_clei ..) hg (CmpCond.le_holds_imm10 _ _)
  case cleui => exact .cmpOp (exec_cleui ..) hg (CmpCond.leu_holds _ _)
  case ctsti => exact .cmpOp (exec_ctsti ..) hg (CmpCond.tst_holds _ _)
  case pand => exact .predOp (exec_pand ..) hg
  case por => exact .predOp (exec_por ..) hg
  case pxor => exact .predOp (exec_pxor ..) hg
  case pandn => exact .predOp (exec_pandn ..) hg
  case pnot => exact .predOp (exec_pnot ..) hg
  case pmov => exact .predOp (exec_pmov ..) hg
  case pget => exact ⟨_, .guarded (exec_pget ..) hg rfl, Slot.getLsbD_predWord _⟩
  case pset =>
    refine ⟨_, (exec_pset g a s).trans (guarded_true hg _), fun k => ?_, ?_, ?_, .setThr _ _, .setThr _ _, .setThr _ _⟩
    · rw [State.getP, State.thr_setThr, Slot.getP_step, Slot.getP_setPreds]
    · rw [State.thr_setThr]; rfl
    · rw [State.thr_setThr]; cases s.thr; rfl

end Sys2Proof.Proofs
end

section
/-! PROOFS. Floating-point arithmetic and its special operands (R110 to R113, R119): what the shared endings of scalar
floating point give, each operation on NaNs, infinities and zeros, and the two statements read off them. -/

namespace Sys2Proof.Machine

/-! ### What the shared endings of scalar floating point give -/

/-- R108, R110: an instruction whose meaning is one `fpResult` gives the code and the flags that its function comes to. -/
theorem GivesFp.result {i : Instr} {g : Guard} {d : Reg} {f : State → Nat × Flags} {w : Nat} {fl : Flags} {s : State}
    (hi : exec i s = fpResult g d f s) (hg : s.guardOk g = true) (hr : f s = (w, fl)) :
    GivesFp i d (BitVec.ofNat 64 w) fl s := by
  have hgives := GivesFp.fp hi hg
  rwa [hr] at hgives

theorem GivesFp.binary {i : Instr} {g : Guard} {d a b : Reg} {f : Fmt} {op : RMode → FVal → FVal → Nat × Flags} {w : Nat}
    {fl : Flags} {s : State} (hi : exec i s = fpBinary g d a b f op s) (hg : s.guardOk g = true)
    (hr : op s.thr.rm (s.fsrc f a) (s.fsrc f b) = (w, fl)) : GivesFp i d (BitVec.ofNat 64 w) fl s :=
  .result hi hg hr

theorem GivesFp.unary {i : Instr} {g : Guard} {d a : Reg} {f : Fmt} {op : RMode → FVal → Nat × Flags} {w : Nat}
    {fl : Flags} {s : State} (hi : exec i s = fpUnary g d a f op s) (hg : s.guardOk g = true)
    (hr : op s.thr.rm (s.fsrc f a) = (w, fl)) : GivesFp i d (BitVec.ofNat 64 w) fl s :=
  .result hi hg hr

theorem GivesFp.fused {i : Instr} {g : Guard} {d a b : Reg} {f : Fmt} {np na : Bool} {w : Nat} {fl : Flags} {s : State}
    (hi : exec i s = fpFused g d a b f np na s) (hg : s.guardOk g = true)
    (hr : fMulAdd f s.thr.rm (if np then (s.fsrc f a).neg else s.fsrc f a) (s.fsrc f b)
      (if na then (s.fsrc f d).neg else s.fsrc f d) = (w, fl)) : GivesFp i d (BitVec.ofNat 64 w) fl s :=
  .result hi hg hr

/-! ### Special operands (R68, R113) -/

@[simp] theorem sigFlags_one (x : FVal) : sigFlags [x] = nvIf x.isSig := by
  simp [sigFlags, nvIf]

@[simp] theorem sigFlags_two (x y : FVal) : sigFlags [x, y] = nvIf (x.isSig || y.isSig) := by
  simp [sigFlags, nvIf]

@[simp] theorem FVal.isNaN_neg (x : FVal) : x.neg.isNaN = x.isNaN := by cases x <;> rfl
@[simp] theorem FVal.isSig_neg (x : FVal) : x.neg.isSig = x.isSig := by cases x <;> rfl

theorem FVal.neg_eq_inf_iff {x : FVal} {n : Bool} : x.neg = .inf (!n) ↔ x = .inf n := by
  cases x <;> simp [FVal.neg]

/-- A value that is neither a NaN nor an infinity is finite. -/
theorem FVal.exists_fin {x : FVal} (hnan : (!x.isNaN) = true) (hinf : (!x.isInf) = true) : ∃ n m e, x = .fin n m e := by
  cases x with
  | nan sig => simp [FVal.isNaN] at hnan
  | inf n => simp [FVal.isInf] at hinf
  | fin n m e => exact ⟨n, m, e, rfl⟩

theorem FVal.exists_nan {x : FVal} (hnan : x.isNaN = true) : ∃ sig, x = .nan sig := by
  cases x with
  | nan sig => exact ⟨sig, rfl⟩
  | inf n => simp [FVal.isNaN] at hnan
  | fin n m e => simp [FVal.isNaN] at hnan

theorem FVal.exists_inf {x : FVal} (hinf : x.isInf = true) : ∃ n, x = .inf n := by
  cases x with
  | nan sig => simp [FVal.isInf] at hinf
  | inf n => exact ⟨n, rfl⟩
  | fin n m e => simp [FVal.isInf] at hinf

theorem FVal.exists_zero {x : FVal} (hz : x.isZero = true) : ∃ n e, x = .fin n 0 e := by
  cases x with
  | nan sig => simp [FVal.isZero] at hz
  | inf n => simp [FVal.isZero] at hz
  | fin n m e =>
    have hm : m = 0 := by simpa [FVal.isZero] using hz
    exact ⟨n, e, by rw [hm]⟩

/-- A sum is its exact value delivered, with NV for a signalling source and where infinities of opposite sign met (R110, R113). -/
theorem fAdd_of_exactSum (f : Fmt) {mode : RMode} {x y v : FVal} {bad : Bool} (h : exactSum mode [x, y] = (v, bad)) :
    fAdd f mode x y = ((f.deliver mode v).1, (f.deliver mode v).2 ||| nvIf (x.isSig || y.isSig) ||| nvIf bad) := by
  simp only [fAdd, h, sigFlags_two]
  rfl

theorem fMul_of_exactMul (f : Fmt) (mode : RMode) {x y v : FVal} {bad : Bool} (h : exactMul x y = (v, bad)) :
    fMul f mode x y = ((f.deliver mode v).1, (f.deliver mode v).2 ||| nvIf (x.isSig || y.isSig) ||| nvIf bad) := by
  simp only [fMul, h, sigFlags_two]
  rfl

@[simp] theorem nvIf_false : nvIf false = 0 := rfl
@[simp] theorem nvIf_true : nvIf true = flagNV := rfl

@[simp] theorem Fmt.deliver_nan (f : Fmt) (mode : RMode) (sig : Bool) : f.deliver mode (.nan sig) = (f.canonNaN, 0) := rfl
@[simp] theorem Fmt.deliver_inf (f : Fmt) (mode : RMode) (n : Bool) :
    f.deliver mode (.inf n) = (f.withSign n f.infCode, 0) := rfl

@[simp] theorem FVal.isSig_inf (n : Bool) : (FVal.inf n).isSig = false := rfl
@[simp] theorem FVal.isSig_fin (n : Bool) (m : Nat) (e : Int) : (FVal.fin n m e).isSig = false := rfl

theorem fAdd_nan (f : Fmt) (mode : RMode) {x y : FVal} (h : (x.isNaN || y.isNaN) = true) :
    fAdd f mode x y = (f.canonNaN, nvIf (x.isSig || y.isSig)) := by
  have hsum : exactSum mode [x, y] = (.nan false, false) := by simp [exactSum, h]
  simp [fAdd_of_exactSum f hsum]

theorem exactSum_inf_opposite (mode : RMode) (n : Bool) :
    exactSum mode [.inf n, .inf (!n)] = (.nan false, true) := by
  cases n <;> rfl

theorem exactSum_inf (mode : RMode) {n : Bool} {y : FVal} (hnan : (!y.isNaN) = true) (hy : y ≠ .inf (!n)) :
    exactSum mode [.inf n, y] = (.inf n, false) := by
  cases y with
  | nan sig => simp [FVal.isNaN] at hnan
  | inf k =>
    obtain rfl : n = k := by simpa [Bool.eq_not, eq_comm] using hy
    cases n <;> rfl
  | fin k m e => cases n <;> rfl

theorem exactSum_fin_inf (mode : RMode) (k : Bool) (m : Nat) (e : Int) (n : Bool) :
    exactSum mode [.fin k m e, .inf n] = (.inf n, false) := by
  cases n <;> rfl

theorem fAdd_inf_opposite (f : Fmt) (mode : RMode) (n : Bool) : fAdd f mode (.inf n) (.inf (!n)) = (f.canonNaN, flagNV) := by
  simp [fAdd_of_exactSum f (exactSum_inf_opposite mode n)]

theorem FVal.isSig_of_not_isNaN {x : FVal} (h : (!x.isNaN) = true) : x.isSig = false := by
  cases x with
  | nan sig => simp [FVal.isNaN] at h
  | inf n => rfl
  | fin n m e => rfl

theorem fAdd_inf (f : Fmt) (mode : RMode) {n : Bool} {y : FVal} (hnan : (!y.isNaN) = true) (hy : y ≠ .inf (!n)) :
    fAdd f mode (.inf n) y = (f.withSign n f.infCode, 0) := by
  simp [fAdd_of_exactSum f (exactSum_inf mode hnan hy), FVal.isSig_of_not_isNaN hnan]

theorem fAdd_fin_inf (f : Fmt) (mode : RMode) (k : Bool) (m : Nat) (e : Int) (n : Bool) :
    fAdd f mode (.fin k m e) (.inf n) = (f.withSign n f.infCode, 0) := by
  simp [fAdd_of_exactSum f (exactSum_fin_inf mode k m e n)]

theorem fMul_nan (f : Fmt) (mode : RMode) {x y : FVal} (h : (x.isNaN || y.isNaN) = true) :
    fMul f mode x y = (f.canonNaN, nvIf (x.isSig || y.isSig)) := by
  have hmul : exactMul x y = (.nan false, false) := by
    rcases Bool.or_eq_true_iff.mp h with hx | hy
    · obtain ⟨sig, rfl⟩ := FVal.exists_nan hx
      rfl
    · obtain ⟨sig, rfl⟩ := FVal.exists_nan hy
      cases x <;> rfl
  simp [fMul_of_exactMul f mode hmul]

theorem fMul_inf_zero (f : Fmt) (mode : RMode) (n k : Bool) (e : Int) :
    fMul f mode (.inf n) (.fin k 0 e) = (f.canonNaN, flagNV) := by
  have hmul : exactMul (.inf n) (.fin k 0 e) = (.nan false, true) := rfl
  simp [fMul_of_exactMul f mode hmul]

theorem fMul_zero_inf (f : Fmt) (mode : RMode) (n k : Bool) (e : Int) :
    fMul f mode (.fin k 0 e) (.inf n) = (f.canonNaN, flagNV) := by
  have hmul : exactMul (.fin k 0 e) (.inf n) = (.nan false, true) := rfl
  simp [fMul_of_exactMul f mode hmul]

theorem fMul_inf (f : Fmt) (mode : RMode) (n : Bool) {y : FVal} (hnan : (!y.isNaN) = true) (hzero : (!y.isZero) = true) :
    fMul f mode (.inf n) y = (f.withSign (n != y.sign) f.infCode, 0) := by
  have hmul : exactMul (.inf n) y = (.inf (n != y.sign), false) := by
    cases y with
    | nan sig => simp [FVal.isNaN] at hnan
    | inf k => rfl
    | fin k m e =>
      have hm : m ≠ 0 := by simpa [FVal.isZero] using hzero
      simp [exactMul, hm, FVal.sign]
  simp [fMul_of_exactMul f mode hmul, FVal.isSig_of_not_isNaN hnan]

theorem fMul_fin_inf (f : Fmt) (mode : RMode) (k : Bool) {m : Nat} (e : Int) (n : Bool) (hm : m ≠ 0) :
    fMul f mode (.fin k m e) (.inf n) = (f.withSign (k != n) f.infCode, 0) := by
  have hmul : exactMul (.fin k m e) (.inf n) = (.inf (k != n), false) := by
    simp [exactMul, hm, Bool.xor_comm]
  simp [fMul_of_exactMul f mode hmul]

theorem fDiv_nan (f : Fmt) (mode : RMode) {x y : FVal} (h : (x.isNaN || y.isNaN) = true) :
    fDiv f mode x y = (f.canonNaN, nvIf (x.isSig || y.isSig)) := by
  rw [← sigFlags_two]
  rcases Bool.or_eq_true_iff.mp h with hx | hy
  · obtain ⟨sig, rfl⟩ := FVal.exists_nan hx
    rfl
  · obtain ⟨sig, rfl⟩ := FVal.exists_nan hy
    cases x <;> rfl

theorem fDiv_fin_zero (f : Fmt) (mode : RMode) (n : Bool) (m : Nat) (e : Int) (k : Bool) (e' : Int) :
    fDiv f mode (.fin n m e) (.fin k 0 e')
      = if m = 0 then (f.canonNaN, flagNV) else (f.withSign (n != k) f.infCode, flagDZ) := rfl

theorem fDiv_zero_fin (f : Fmt) (mode : RMode) (n : Bool) (e : Int) (k : Bool) {m : Nat} (e' : Int) (hm : m ≠ 0) :
    fDiv f mode (.fin n 0 e) (.fin k m e') = (f.withSign (n != k) 0, 0) := by
  simp [fDiv, hm]

theorem fSqrt_nan (f : Fmt) (mode : RMode) (sig : Bool) : fSqrt f mode (.nan sig) = (f.canonNaN, nvIf sig) := by
  simp [fSqrt, FVal.isSig]

theorem fSqrt_neg (f : Fmt) (mode : RMode) {m : Nat} (e : Int) (hm : m ≠ 0) :
    fSqrt f mode (.fin true m e) = (f.canonNaN, flagNV) := by
  simp [fSqrt, hm]

end Sys2Proof.Machine

namespace Sys2Proof.Proofs

open Sys2Proof.Machine

/-- Settles O5: each member is one operation of the model on its sources as FCSR.RM has it, and nothing more. -/
theorem floatArithmetic : Obligations.FloatArithmetic := by
  unfold Obligations.FloatArithmetic
  refine fun g d a b s hg => ⟨?faddS, ?faddD, ?fsubS, ?fsubD, ?fmulS, ?fmulD, ?fdivS, ?fdivD, ?fsqrtS, ?fsqrtD,
    ?fmacS, ?fmacD, ?fmscS, ?fmscD, ?fnmacS, ?fnmacD⟩
  case faddS => exact .binary (exec_faddS ..) hg rfl
  case faddD => exact .binary (exec_faddD ..) hg rfl
  case fsubS => exact .binary (exec_fsubS ..) hg rfl
  case fsubD => exact .binary (exec_fsubD ..) hg rfl
  case fmulS => exact .binary (exec_fmulS ..) hg rfl
  case fmulD => exact .binary (exec_fmulD ..) hg rfl
  case fdivS => exact .binary (exec_fdivS ..) hg rfl
  case fdivD => exact .binary (exec_fdivD ..) hg rfl
  case fsqrtS => exact .unary (exec_fsqrtS ..) hg rfl
  case fsqrtD => exact .unary (exec_fsqrtD ..) hg rfl
  case fmacS => exact .fused (exec_fmacS ..) hg rfl
  case fmacD => exact .fused (exec_fmacD ..) hg rfl
  case fmscS => exact .fused (exec_fmscS ..) hg rfl
  case fmscD => exact .fused (exec_fmscD ..) hg rfl
  case fnmacS => exact .fused (exec_fnmacS ..) hg rfl
  case fnmacD => exact .fused (exec_fnmacD ..) hg rfl

/-- Settles O6: the rows hold in every format, of each operation on any two values. -/
theorem floatSpecialOperands : Obligations.FloatSpecialOperands := by
  unfold Obligations.FloatSpecialOperands
  intro g d a b s hg rows
  have rows_of (f : Fmt) {add sub mul div sqrt : Instr}
      (hadd : exec add s = fpBinary g d a b f (fun rm x y => fAdd f rm x y) s)
      (hsub : exec sub s = fpBinary g d a b f (fun rm x y => fAdd f rm x y.neg) s)
      (hmul : exec mul s = fpBinary g d a b f (fun rm x y => fMul f rm x y) s)
      (hdiv : exec div s = fpBinary g d a b f (fun rm x y => fDiv f rm x y) s)
      (hsqrt : exec sqrt s = fpUnary g d a f (fun rm x => fSqrt f rm x) s) :
      rows f f.signBit f.infCode f.canonNaN add sub mul div sqrt := by
    let rm := s.thr.rm
    let x := s.fsrc f a
    let y := s.fsrc f b
    have adds {w fl} (h : fAdd f rm x y = (w, fl)) : GivesFp add d (BitVec.ofNat 64 w) fl s := .binary hadd hg h
    have subs {w fl} (h : fAdd f rm x y.neg = (w, fl)) : GivesFp sub d (BitVec.ofNat 64 w) fl s := .binary hsub hg h
    have muls {w fl} (h : fMul f rm x y = (w, fl)) : GivesFp mul d (BitVec.ofNat 64 w) fl s := .binary hmul hg h
    have divs {w fl} (h : fDiv f rm x y = (w, fl)) : GivesFp div d (BitVec.ofNat 64 w) fl s := .binary hdiv hg h
    have sqrts {w fl} (h : fSqrt f rm x = (w, fl)) : GivesFp sqrt d (BitVec.ofNat 64 w) fl s := .unary hsqrt hg h
    dsimp only [rows]
    rw [show f.decode (s.getX a).toNat = x from rfl, show f.decode (s.getX b).toNat = y from rfl]
    clear_value x y
    refine ⟨fun h => ?nan, fun h => ?sqrtNan, fun n hx => ?left, fun n hy hnan hinf => ?right,
      fun hxnan hxinf hynan hyinf => ?finite⟩
    case nan =>
      have hneg : fAdd f rm x y.neg = (f.canonNaN, nvIf (x.isSig || y.isSig)) := by
        rw [fAdd_nan f _ (by rwa [FVal.isNaN_neg]), FVal.isSig_neg]
      exact ⟨adds (fAdd_nan f _ h), subs hneg, muls (fMul_nan f _ h), divs (fDiv_nan f _ h)⟩
    case sqrtNan =>
      obtain ⟨sig, rfl⟩ := FVal.exists_nan h
      exact sqrts (fSqrt_nan f _ sig)
    case left =>
      subst hx
      refine ⟨fun hy => ?_, fun hy => ?_, fun hy => ?_, fun hy => ?_, fun hnan hy => ?_, fun hnan hy => ?_,
        fun hnan hzero => ?_, fun hnan hinf => ?_, ?_⟩
      · exact adds (by rw [hy, fAdd_inf_opposite])
      · exact subs (by rw [hy, FVal.neg, fAdd_inf_opposite])
      · obtain ⟨k, rfl⟩ := FVal.exists_inf hy
        exact divs rfl
      · obtain ⟨k, e, rfl⟩ := FVal.exists_zero hy
        exact muls (fMul_inf_zero ..)
      · exact adds (fAdd_inf f _ hnan hy)
      · exact subs (fAdd_inf f _ (by rwa [FVal.isNaN_neg]) (mt FVal.neg_eq_inf_iff.mp hy))
      · exact muls (fMul_inf f _ n hnan hzero)
      · obtain ⟨k, m, e, rfl⟩ := FVal.exists_fin hnan hinf
        exact divs rfl
      · cases n <;> exact sqrts rfl
    case right =>
      subst hy
      obtain ⟨k, m, e, rfl⟩ := FVal.exists_fin hnan hinf
      refine ⟨adds (fAdd_fin_inf ..), subs (fAdd_fin_inf ..), divs rfl, fun hzero => ?_, fun hzero => ?_⟩
      · obtain rfl : m = 0 := by simpa [FVal.isZero] using hzero
        exact muls (fMul_zero_inf ..)
      · have hm : m ≠ 0 := by simpa [FVal.isZero] using hzero
        exact muls (fMul_fin_inf f _ k e n hm)
    case finite =>
      obtain ⟨n, m, e, rfl⟩ := FVal.exists_fin hxnan hxinf
      obtain ⟨k, m', e', rfl⟩ := FVal.exists_fin hynan hyinf
      simp only [FVal.isZero, FVal.sign, decide_eq_true_eq, Bool.not_eq_true', decide_eq_false_iff_not]
      refine ⟨?_, ?_, ?_, ?_⟩
      · rintro rfl
        by_cases hm : m = 0
        · rw [if_pos hm, if_pos hm]
          exact divs (by rw [fDiv_fin_zero, if_pos hm])
        · rw [if_neg hm, if_neg hm]
          exact divs (by rw [fDiv_fin_zero, if_neg hm]; rfl)
      · rintro rfl hm'
        exact divs (fDiv_zero_fin f _ n e k e' hm')
      · rintro rfl
        exact sqrts rfl
      · rintro hm rfl
        exact sqrts (fSqrt_neg f _ e hm)
  exact ⟨rows_of fp32 (exec_faddS ..) (exec_fsubS ..) (exec_fmulS ..) (exec_fdivS ..) (exec_fsqrtS ..),
    rows_of fp64 (exec_faddD ..) (exec_fsubD ..) (exec_fmulD ..) (exec_fdivD ..) (exec_fsqrtD ..)⟩

end Sys2Proof.Proofs
end

section
/-! PROOFS. Floating-point selections and compares (R114 to R116, R120): the codes of an IEEE format that are no NaN are ordered
as the values they stand for, which is what the model's integer keys compare, and the statement read off that. -/

namespace Sys2Proof.Machine

/-! ### The sign and the magnitude of a code (R65, R66) -/

/-- A magnitude under a sign, as an integer. -/
def signedNat (neg : Bool) (k : Nat) : Int := if neg then -(k : Int) else k

/-- The code without its sign bit. -/
def Fmt.magOf (f : Fmt) (a : Nat) : Nat := a % 2 ^ f.width % f.signBit

theorem Fmt.two_mul_signBit {f : Fmt} (hw : f.mant + 1 < f.width) : 2 * f.signBit = 2 ^ f.width := by
  rw [Fmt.signBit, ← Nat.pow_succ']
  congr 1
  omega

theorem Fmt.signBit_eq_mul {f : Fmt} (hw : f.mant + 1 < f.width) : f.signBit = (f.expOnes + 1) * 2 ^ f.mant := by
  rw [Fmt.signBit, Fmt.expOnes, Nat.sub_add_cancel Nat.one_le_two_pow, ← Nat.pow_add, Fmt.expBits]
  congr 1
  omega

theorem Fmt.infCode_pos {f : Fmt} (hw : f.mant + 1 < f.width) : 0 < f.infCode := by
  have hbits : f.expBits ≠ 0 := by
    rw [Fmt.expBits]
    omega
  exact Nat.mul_pos (Nat.sub_pos_of_lt (Nat.one_lt_two_pow hbits)) (Nat.two_pow_pos _)

theorem Fmt.magOf_lt {f : Fmt} (a : Nat) : f.magOf a < f.signBit := Nat.mod_lt _ (Nat.two_pow_pos _)

theorem Fmt.magOf_eq_mod {f : Fmt} (hw : f.mant + 1 < f.width) (a : Nat) : f.magOf a = a % f.signBit := by
  rw [Fmt.magOf, ← Fmt.two_mul_signBit hw, Nat.mod_mul_left_mod]

theorem Fmt.code_lt {f : Fmt} (hw : f.mant + 1 < f.width) (a : Nat) : a % 2 ^ f.width < 2 * f.signBit := by
  rw [Fmt.two_mul_signBit hw]
  exact Nat.mod_lt _ (Nat.two_pow_pos _)

theorem Fmt.signOf_eq_decide {f : Fmt} (hw : f.mant + 1 < f.width) (a : Nat) :
    f.signOf a = decide (f.signBit ≤ a % 2 ^ f.width) := by
  have htop : (a % 2 ^ f.width).testBit (f.width - 1) = f.signOf a := by
    rw [Nat.testBit_mod_two_pow, decide_eq_true (by omega), Bool.true_and, Fmt.signOf]
  have hlt := Fmt.code_lt hw a
  rw [← htop]
  by_cases hsign : f.signBit ≤ a % 2 ^ f.width
  · have hdiv : a % 2 ^ f.width / 2 ^ (f.width - 1) = 1 :=
      Nat.div_eq_of_lt_le (by rwa [Nat.one_mul]) (by change _ < 2 * f.signBit; omega)
    rw [Nat.testBit_eq_decide_div_mod_eq, hdiv, decide_eq_true hsign]
    rfl
  · rw [Nat.testBit_lt_two_pow (Nat.not_le.mp hsign), decide_eq_false hsign]

/-- A code is its sign bit, where its sign says so, over its magnitude. -/
theorem Fmt.code_eq_withSign {f : Fmt} (hw : f.mant + 1 < f.width) (a : Nat) :
    a % 2 ^ f.width = f.withSign (f.signOf a) (f.magOf a) := by
  have hlt := Fmt.code_lt hw a
  rw [Fmt.signOf_eq_decide hw, Fmt.magOf, Fmt.withSign]
  by_cases hsign : f.signBit ≤ a % 2 ^ f.width
  · have hmag : a % 2 ^ f.width % f.signBit = a % 2 ^ f.width - f.signBit := by
      rw [Nat.mod_eq_sub_mod hsign, Nat.mod_eq_of_lt (by omega : a % 2 ^ f.width - f.signBit < f.signBit)]
    rw [if_pos (decide_eq_true hsign), hmag, Nat.add_sub_cancel' hsign]
  · rw [if_neg (by simpa using hsign), Nat.mod_eq_of_lt (by omega : a % 2 ^ f.width < f.signBit)]

theorem Fmt.valueKey_eq {f : Fmt} (hw : f.mant + 1 < f.width) (a : Nat) :
    f.valueKey a = signedNat (f.signOf a) (f.magOf a) := by
  have hmag := Fmt.magOf_lt (f := f) a
  rw [Fmt.valueKey, Fmt.code_eq_withSign hw a]
  cases hsign : f.signOf a
  · simp [Fmt.withSign, signedNat, Nat.not_le.mpr hmag]
  · simp [Fmt.withSign, signedNat]

/-- R114: the key of FMIN and FMAX is that of the compares, with −0 one place below +0. -/
theorem Fmt.orderKey_eq {f : Fmt} (hw : f.mant + 1 < f.width) (a : Nat) :
    f.orderKey a = f.valueKey a - (f.signOf a).toNat := by
  rw [Fmt.signOf_eq_decide hw, Fmt.orderKey, Fmt.valueKey]
  by_cases hsign : f.signBit ≤ a % 2 ^ f.width <;> simp [hsign]

/-! ### The value of a code -/

/-- What a finite magnitude code stands for, in units of the least subnormal (R66). -/
def Fmt.units (f : Fmt) (mag : Nat) : Nat :=
  if mag / 2 ^ f.mant = 0 then mag % 2 ^ f.mant else (mag % 2 ^ f.mant + 2 ^ f.mant) * 2 ^ (mag / 2 ^ f.mant - 1)

theorem Fmt.units_zero (f : Fmt) : f.units 0 = 0 := by simp [Fmt.units]

theorem Fmt.units_subnormal {f : Fmt} {m : Nat} (hm : m < 2 ^ f.mant) : f.units m = m := by
  rw [Fmt.units, if_pos (Nat.div_eq_of_lt hm), Nat.mod_eq_of_lt hm]

theorem Fmt.units_normal {f : Fmt} {m : Nat} (e : Nat) (hm : m < 2 ^ f.mant) :
    f.units ((e + 1) * 2 ^ f.mant + m) = (m + 2 ^ f.mant) * 2 ^ e := by
  have hdiv : ((e + 1) * 2 ^ f.mant + m) / 2 ^ f.mant = e + 1 := by
    rw [Nat.mul_comm, Nat.mul_add_div (Nat.two_pow_pos _), Nat.div_eq_of_lt hm, Nat.add_zero]
  have hmod : ((e + 1) * 2 ^ f.mant + m) % 2 ^ f.mant = m := by
    rw [Nat.mul_comm, Nat.mul_add_mod, Nat.mod_eq_of_lt hm]
  rw [Fmt.units, hdiv, hmod, if_neg (Nat.succ_ne_zero e), Nat.add_sub_cancel]

/-- A carry out of the mantissa reaches the next binade, whose codes are further apart. -/
theorem Fmt.units_lt_units_succ (f : Fmt) (mag : Nat) : f.units mag < f.units (mag + 1) := by
  have hm : mag % 2 ^ f.mant < 2 ^ f.mant := Nat.mod_lt _ (Nat.two_pow_pos _)
  have hmag : mag = mag / 2 ^ f.mant * 2 ^ f.mant + mag % 2 ^ f.mant := (Nat.div_add_mod' _ _).symm
  generalize mag % 2 ^ f.mant = m at hm hmag
  generalize mag / 2 ^ f.mant = e at hmag
  subst hmag
  by_cases hcarry : m + 1 < 2 ^ f.mant
  · cases e with
    | zero =>
      rw [Nat.zero_mul, Nat.zero_add, Fmt.units_subnormal hm, Fmt.units_subnormal hcarry]
      exact Nat.lt_succ_self m
    | succ e =>
      rw [Nat.add_assoc, Fmt.units_normal e hm, Fmt.units_normal e hcarry]
      exact Nat.mul_lt_mul_of_pos_right (by omega) (Nat.two_pow_pos e)
  · have hnext : e * 2 ^ f.mant + m + 1 = (e + 1) * 2 ^ f.mant + 0 := by
      rw [Nat.add_mul]
      omega
    rw [hnext, Fmt.units_normal e (Nat.two_pow_pos _)]
    cases e with
    | zero =>
      rw [Nat.zero_mul, Nat.zero_add, Fmt.units_subnormal hm]
      omega
    | succ e =>
      rw [Fmt.units_normal e hm, Nat.pow_succ', ← Nat.mul_assoc]
      exact Nat.mul_lt_mul_of_pos_right (by omega) (Nat.two_pow_pos e)

theorem Fmt.units_lt_of_lt (f : Fmt) {i j : Nat} (h : i < j) : f.units i < f.units j := by
  induction h with
  | refl => exact f.units_lt_units_succ i
  | step _ ih => exact Nat.lt_trans ih (f.units_lt_units_succ _)

theorem Fmt.units_lt_iff (f : Fmt) (i j : Nat) : f.units i < f.units j ↔ i < j := by
  refine ⟨fun h => Nat.lt_of_not_le fun hle => ?_, f.units_lt_of_lt⟩
  rcases Nat.lt_or_eq_of_le hle with hlt | heq
  · exact Nat.lt_asymm h (f.units_lt_of_lt hlt)
  · exact Nat.ne_of_lt h (congrArg f.units heq.symm)

/-- A map of magnitudes that keeps their order keeps it under signs. -/
theorem signedNat_lt_iff {u : Nat → Nat} (hu : ∀ i j, u i < u j ↔ i < j) (hzero : u 0 = 0) (n k : Bool) (i j : Nat) :
    signedNat n (u i) < signedNat k (u j) ↔ signedNat n i < signedNat k j := by
  have hi := hu 0 i
  have hj := hu 0 j
  have hij := hu i j
  have hji := hu j i
  rw [hzero] at hi hj
  cases n <;> cases k <;> simp only [signedNat, Bool.false_eq_true, if_true, if_false] <;> omega

theorem signedNat_mul (n : Bool) (i c : Nat) : signedNat n (i * c) = signedNat n i * c := by
  cases n
  · exact Int.natCast_mul i c
  · simp only [signedNat, if_true, Int.natCast_mul, Int.neg_mul]

theorem FVal.scaled_fin (q : Int) (n : Bool) (m : Nat) (e : Int) :
    (FVal.fin n m e).scaled q = signedNat n (m * 2 ^ (e - q).toNat) := rfl

/-- Scaling by a lower power of two than is needed multiplies the numerator. -/
theorem FVal.scaled_fin_of_le {q r e : Int} (hq : q ≤ r) (hr : r ≤ e) (n : Bool) (m : Nat) :
    (FVal.fin n m e).scaled q = (FVal.fin n m e).scaled r * (2 ^ (r - q).toNat : Nat) := by
  have hexp : (e - q).toNat = (e - r).toNat + (r - q).toNat := by omega
  rw [FVal.scaled_fin, FVal.scaled_fin, ← signedNat_mul, hexp, Nat.pow_add, Nat.mul_assoc]

theorem FVal.below_fin {q e e' : Int} (he : q ≤ e) (he' : q ≤ e') (n k : Bool) (m m' : Nat) :
    (FVal.fin n m e).below (.fin k m' e')
      = decide (signedNat n (m * 2 ^ (e - q).toNat) < signedNat k (m' * 2 ^ (e' - q).toNat)) := by
  have hpos : (0 : Int) < (2 ^ (min e e' - q).toNat : Nat) := by exact_mod_cast Nat.two_pow_pos _
  rw [← FVal.scaled_fin q, ← FVal.scaled_fin q, FVal.scaled_fin_of_le (Int.le_min.mpr ⟨he, he'⟩) (Int.min_le_left _ _),
    FVal.scaled_fin_of_le (Int.le_min.mpr ⟨he, he'⟩) (Int.min_le_right _ _), decide_eq_decide.mpr (Int.mul_lt_mul_right hpos)]
  rfl

theorem Fmt.decode_ieee {f : Fmt} (hieee : f.ieee = true) (hw : f.mant + 1 < f.width) (a : Nat) :
    f.decode a =
      if f.magOf a / 2 ^ f.mant = f.expOnes then
        if f.magOf a % 2 ^ f.mant = 0 then .inf (f.signOf a)
        else .nan (decide (f.magOf a % 2 ^ f.mant < 2 ^ (f.mant - 1)))
      else if f.magOf a / 2 ^ f.mant = 0 then .fin (f.signOf a) (f.magOf a % 2 ^ f.mant) f.quantum
      else .fin (f.signOf a) (f.magOf a % 2 ^ f.mant + 2 ^ f.mant)
        (f.quantum + (f.magOf a / 2 ^ f.mant : Nat) - 1) := by
  rw [Fmt.signOf_eq_decide hw, Fmt.magOf, Fmt.decode]
  simp only [hieee, Bool.true_and, Bool.not_true, Bool.false_and, decide_eq_true_eq, Bool.false_eq_true, if_false]

/-- R66: a code of an IEEE format that is no NaN is an infinity or so many units of the least subnormal, under its sign. -/
theorem Fmt.decode_cases {f : Fmt} (hieee : f.ieee = true) (hw : f.mant + 1 < f.width) {a : Nat}
    (ha : (f.decode a).isNaN = false) :
    (f.decode a = .inf (f.signOf a) ∧ f.magOf a = f.infCode)
      ∨ ∃ m e, f.decode a = .fin (f.signOf a) m e ∧ f.magOf a < f.infCode ∧ f.quantum ≤ e
          ∧ m * 2 ^ (e - f.quantum).toNat = f.units (f.magOf a) := by
  have hmag : f.magOf a < (f.expOnes + 1) * 2 ^ f.mant := Fmt.signBit_eq_mul hw ▸ Fmt.magOf_lt a
  have hexp : f.magOf a / 2 ^ f.mant ≤ f.expOnes := Nat.le_of_lt_succ (Nat.div_lt_of_lt_mul (by rwa [Nat.mul_comm]))
  have hsplit : f.magOf a / 2 ^ f.mant * 2 ^ f.mant + f.magOf a % 2 ^ f.mant = f.magOf a := Nat.div_add_mod' _ _
  have hlt (hne : f.magOf a / 2 ^ f.mant ≠ f.expOnes) : f.magOf a < f.infCode :=
    (Nat.div_lt_iff_lt_mul (Nat.two_pow_pos _)).mp (Nat.lt_of_le_of_ne hexp hne)
  rw [Fmt.decode_ieee hieee hw] at ha
  rw [Fmt.decode_ieee hieee hw, Fmt.units]
  generalize f.magOf a / 2 ^ f.mant = e at *
  generalize f.magOf a % 2 ^ f.mant = m at *
  by_cases hones : e = f.expOnes
  · rw [if_pos hones] at ha ⊢
    by_cases hzero : m = 0
    · rw [if_pos hzero]
      refine .inl ⟨rfl, ?_⟩
      rw [← hsplit, hzero, hones]
      rfl
    · rw [if_neg hzero] at ha
      contradiction
  · rw [if_neg hones]
    refine .inr ?_
    by_cases hsub : e = 0
    · rw [if_pos hsub, if_pos hsub]
      refine ⟨_, _, rfl, hlt hones, Int.le_refl _, ?_⟩
      rw [Int.sub_self]
      exact Nat.mul_one m
    · rw [if_neg hsub, if_neg hsub]
      refine ⟨_, _, rfl, hlt hones, by omega, ?_⟩
      congr 2
      omega

/-- R114: the sign of a code that is no NaN is that of its value. -/
theorem Fmt.sign_decode {f : Fmt} (hieee : f.ieee = true) (hw : f.mant + 1 < f.width) {a : Nat}
    (ha : (f.decode a).isNaN = false) : (f.decode a).sign = f.signOf a := by
  rcases Fmt.decode_cases hieee hw ha with ⟨hinf, -⟩ | ⟨m, e, hfin, -⟩
  · rw [hinf]
    rfl
  · rw [hfin]
    rfl

/-- Codes that are no NaN are ordered as their magnitudes under their signs. -/
theorem Fmt.below_decode {f : Fmt} (hieee : f.ieee = true) (hw : f.mant + 1 < f.width) {a b : Nat}
    (ha : (f.decode a).isNaN = false) (hb : (f.decode b).isNaN = false) :
    (f.decode a).below (f.decode b) = decide (f.valueKey a < f.valueKey b) := by
  have hpos := Fmt.infCode_pos hw
  rw [Fmt.valueKey_eq hw, Fmt.valueKey_eq hw]
  rcases Fmt.decode_cases hieee hw ha with ⟨hx, hamag⟩ | ⟨m, e, hx, hamag, he, hunits⟩ <;>
    rcases Fmt.decode_cases hieee hw hb with ⟨hy, hbmag⟩ | ⟨m', e', hy, hbmag, he', hunits'⟩ <;> rw [hx, hy]
  case inr.inr =>
    rw [FVal.below_fin he he', hunits, hunits', decide_eq_decide]
    exact signedNat_lt_iff f.units_lt_iff f.units_zero _ _ _ _
  -- an infinity has the greatest magnitude, so the signs decide
  all_goals cases f.signOf a <;> cases f.signOf b <;> simp [FVal.below, signedNat] <;> omega

theorem FVal.below_of_isNaN {x y : FVal} (h : (x.isNaN || y.isNaN) = true) : x.below y = false := by
  rcases Bool.or_eq_true_iff.mp h with hx | hy
  · obtain ⟨sig, rfl⟩ := FVal.exists_nan hx
    rfl
  · obtain ⟨sig, rfl⟩ := FVal.exists_nan hy
    cases x <;> rfl

theorem FVal.same_of_isNaN {x y : FVal} (h : (x.isNaN || y.isNaN) = true) : x.same y = false := by
  rcases Bool.or_eq_true_iff.mp h with hx | hy <;> simp [FVal.same, *]

theorem FVal.same_comm (x y : FVal) : x.same y = y.same x := by
  simp only [FVal.same, Bool.and_comm, Bool.and_left_comm]

/-- Values in an order, or equal with the signs that break the tie, are no NaN. -/
theorem FVal.not_isNaN_of_ordered {x y : FVal} {tie : Bool} (h : (x.below y || (x.same y && tie)) = true) :
    x.isNaN = false ∧ y.isNaN = false := by
  cases hnan : x.isNaN || y.isNaN with
  | false => exact Bool.or_eq_false_iff.mp hnan
  | true =>
    rw [FVal.below_of_isNaN hnan, FVal.same_of_isNaN hnan] at h
    contradiction

theorem Fmt.same_decode {f : Fmt} (hieee : f.ieee = true) (hw : f.mant + 1 < f.width) {a b : Nat}
    (ha : (f.decode a).isNaN = false) (hb : (f.decode b).isNaN = false) :
    (f.decode a).same (f.decode b) = decide (f.valueKey a = f.valueKey b) := by
  rw [FVal.same, ha, hb, Fmt.below_decode hieee hw ha hb, Fmt.below_decode hieee hw hb ha, Bool.eq_iff_iff]
  simp only [Bool.not_false, Bool.true_and, Bool.and_eq_true, Bool.not_eq_true', decide_eq_false_iff_not, decide_eq_true_eq]
  omega

/-! ### Compares (R120) -/

/-- The truth value of a compare by the values of its sources, and whether it raises NV. -/
def FCond.ofValues (c : FCond) (x y : FVal) : Bool × Bool :=
  match c with
  | .eq => (x.same y, x.isSig || y.isSig)
  | .lt => (x.below y, x.isNaN || y.isNaN)
  | .le => (x.below y || x.same y, x.isNaN || y.isNaN)
  | .un => (x.isNaN || y.isNaN, x.isSig || y.isSig)

theorem fCompare_eq_ofValues {f : Fmt} (hieee : f.ieee = true) (hw : f.mant + 1 < f.width) (c : FCond) (a b : Nat) :
    fCompare f c a b = ((c.ofValues (f.decode a) (f.decode b)).1, nvIf (c.ofValues (f.decode a) (f.decode b)).2) := by
  cases hnan : (f.decode a).isNaN || (f.decode b).isNaN with
  | true =>
    have hbelow := FVal.below_of_isNaN hnan
    have hsame := FVal.same_of_isNaN hnan
    cases c <;> simp [fCompare, FCond.ofValues, hnan, hbelow, hsame, nvIf]
  | false =>
    obtain ⟨ha, hb⟩ := Bool.or_eq_false_iff.mp hnan
    have hbelow := Fmt.below_decode hieee hw ha hb
    have hsame := Fmt.same_decode hieee hw ha hb
    cases c <;> simp [fCompare, FCond.ofValues, hnan, hbelow, hsame, nvIf, Int.le_iff_lt_or_eq]

/-! ### FMIN and FMAX (R114) -/

theorem Fmt.decode_mod (f : Fmt) (a : Nat) : f.decode (a % 2 ^ f.width) = f.decode a := by
  simp only [Fmt.decode, Nat.mod_mod]

/-- The value order with −0 below +0 is the order of the model's keys. -/
theorem Fmt.orderKey_le_of_values {f : Fmt} (hieee : f.ieee = true) (hw : f.mant + 1 < f.width) {a b : Nat}
    (ha : (f.decode a).isNaN = false) (hb : (f.decode b).isNaN = false)
    (h : ((f.decode a).below (f.decode b)
      || ((f.decode a).same (f.decode b) && ((f.decode a).sign || !(f.decode b).sign))) = true) :
    f.orderKey a ≤ f.orderKey b := by
  rw [Fmt.below_decode hieee hw ha hb, Fmt.same_decode hieee hw ha hb, Fmt.sign_decode hieee hw ha,
    Fmt.sign_decode hieee hw hb] at h
  rw [Fmt.orderKey_eq hw, Fmt.orderKey_eq hw]
  simp only [Bool.or_eq_true, Bool.and_eq_true, decide_eq_true_eq, Bool.not_eq_true'] at h
  have hbit := Bool.toNat_le (f.signOf b)
  rcases h with hlt | ⟨heq, hneg | hpos⟩
  · omega
  · rw [hneg, Bool.toNat_true]
    omega
  · rw [hpos, Bool.toNat_false]
    omega

theorem Fmt.code_eq_of_orderKey_eq {f : Fmt} {a b : Nat} (h : f.orderKey a = f.orderKey b) :
    a % 2 ^ f.width = b % 2 ^ f.width := by
  simp only [Fmt.orderKey] at h
  split at h <;> split at h <;> omega

/-- The lesser of two codes that are no NaN by their keys is what FMIN gives, the other what FMAX gives. -/
theorem fMinMax_of_orderKey_le {f : Fmt} {a b : Nat} (ha : (f.decode a).isNaN = false) (hb : (f.decode b).isNaN = false)
    (hle : f.orderKey a ≤ f.orderKey b) (greater : Bool) :
    fMinMax f greater a b = ((if greater then b else a) % 2 ^ f.width, nvIf ((f.decode a).isSig || (f.decode b).isSig)) := by
  cases greater <;> simp [fMinMax, ha, hb, hle]

/-- Where the keys are equal the codes are, so the order of the sources does not matter. -/
theorem fMinMax_of_orderKey_ge {f : Fmt} {a b : Nat} (ha : (f.decode a).isNaN = false) (hb : (f.decode b).isNaN = false)
    (hle : f.orderKey b ≤ f.orderKey a) (greater : Bool) :
    fMinMax f greater a b = ((if greater then a else b) % 2 ^ f.width, nvIf ((f.decode a).isSig || (f.decode b).isSig)) := by
  by_cases heq : f.orderKey a = f.orderKey b
  · rw [fMinMax_of_orderKey_le ha hb (Int.le_of_eq heq)]
    cases greater <;> simp [Fmt.code_eq_of_orderKey_eq heq]
  · have hlt : ¬ f.orderKey a ≤ f.orderKey b := fun hab => heq (Int.le_antisymm hab hle)
    cases greater <;> simp [fMinMax, ha, hb, hlt]

theorem fMinMax_nan_nan {f : Fmt} {a b : Nat} (ha : (f.decode a).isNaN = true) (hb : (f.decode b).isNaN = true)
    (greater : Bool) : fMinMax f greater a b = (f.canonNaN, nvIf ((f.decode a).isSig || (f.decode b).isSig)) := by
  simp [fMinMax, ha, hb]

theorem fMinMax_nan_left {f : Fmt} {a b : Nat} (ha : (f.decode a).isNaN = true) (hb : (f.decode b).isNaN = false)
    (greater : Bool) : fMinMax f greater a b = (b % 2 ^ f.width, nvIf ((f.decode a).isSig || (f.decode b).isSig)) := by
  simp [fMinMax, ha, hb]

theorem fMinMax_nan_right {f : Fmt} {a b : Nat} (ha : (f.decode a).isNaN = false) (hb : (f.decode b).isNaN = true)
    (greater : Bool) : fMinMax f greater a b = (a % 2 ^ f.width, nvIf ((f.decode a).isSig || (f.decode b).isSig)) := by
  simp [fMinMax, ha, hb]

/-! ### Sign operations (R115) and FCLASS (R116) -/

theorem fSignOp_eq (f : Fmt) (n : Bool) (a : Nat) (vs : List FVal) :
    fSignOp f n a vs = (if (f.decode a).isNaN then f.canonNaN else f.withSign n (a % f.signBit), sigFlags vs) := by
  rw [fSignOp]
  split <;> rfl

theorem Fmt.withSign_signOf {f : Fmt} (hw : f.mant + 1 < f.width) (b mag : Nat) :
    f.withSign (f.signOf b) mag = if b % 2 ^ f.width < f.signBit then mag else f.signBit + mag := by
  by_cases hb : b % 2 ^ f.width < f.signBit
  · rw [if_pos hb, Fmt.signOf_eq_decide hw, decide_eq_false (Nat.not_le.mpr hb)]
    rfl
  · rw [if_neg hb, Fmt.signOf_eq_decide hw, decide_eq_true (Nat.not_lt.mp hb)]
    rfl

theorem Fmt.withSign_not_signOf {f : Fmt} (hw : f.mant + 1 < f.width) (a : Nat) :
    f.withSign (!f.signOf a) (a % f.signBit)
      = if a % 2 ^ f.width < f.signBit then a % 2 ^ f.width + f.signBit else a % 2 ^ f.width - f.signBit := by
  have hmag := Fmt.magOf_lt (f := f) a
  rw [← Fmt.magOf_eq_mod hw, Fmt.code_eq_withSign hw]
  cases f.signOf a
  · change f.signBit + f.magOf a = if f.magOf a < f.signBit then f.magOf a + f.signBit else f.magOf a - f.signBit
    rw [if_pos hmag, Nat.add_comm]
  · change f.magOf a = if f.signBit + f.magOf a < f.signBit then f.signBit + f.magOf a + f.signBit
      else f.signBit + f.magOf a - f.signBit
    rw [if_neg (Nat.not_lt.mpr (Nat.le_add_right _ _)), Nat.add_sub_cancel_left]

/-- R116: a value with no fractional part, an infinity and a NaN having none. -/
def FVal.whole : FVal → Bool
  | .fin _ m e => decide (0 ≤ e ∨ 2 ^ (-e).toNat ∣ m)
  | _ => false

theorem FVal.whole_iff (x : FVal) : x.whole = true ↔ ∃ n m e, x = .fin n m e ∧ (0 ≤ e ∨ 2 ^ (-e).toNat ∣ m) := by
  cases x with
  | nan sig => exact ⟨fun h => absurd h Bool.false_ne_true, fun ⟨_, _, _, h, _⟩ => absurd h (by simp)⟩
  | inf n => exact ⟨fun h => absurd h Bool.false_ne_true, fun ⟨_, _, _, h, _⟩ => absurd h (by simp)⟩
  | fin n m e =>
    refine decide_eq_true_iff.trans ⟨fun h => ⟨n, m, e, rfl, h⟩, fun ⟨_, _, _, hfin, h⟩ => ?_⟩
    cases hfin
    exact h

/-- R116: the KIND field. -/
def Fmt.kind (f : Fmt) : FVal → Nat
  | .nan sig => if sig then 5 else 4
  | .inf _ => 3
  | .fin _ m _ => if m = 0 then 0 else if m < 2 ^ f.mant then 1 else 2

theorem fClass_eq (f : Fmt) (a : Nat) : fClass f a
    = (if (f.decode a).whole then 16 else 0) + 2 * f.kind (f.decode a) + (if a % 2 ^ f.width < f.signBit then 0 else 1) := by
  have hneg : (if f.signBit ≤ a % 2 ^ f.width then 1 else 0) = if a % 2 ^ f.width < f.signBit then 0 else 1 := by
    split <;> split <;> omega
  simp only [fClass, hneg]
  cases f.decode a with
  | nan sig => cases sig <;> simp [FVal.whole, Fmt.kind]
  | inf n => simp [FVal.whole, Fmt.kind]
  | fin n m e => simp [FVal.whole, Fmt.kind, Nat.dvd_iff_mod_eq_zero]

/-- An instruction whose meaning is one `fpCompare` gives the truth value and the flags of its condition by the values. -/
theorem GivesFpP.compare {i : Instr} {g : Guard} {p : PReg} {a b : Reg} {f : Fmt} {c : FCond} {s : State}
    (hi : exec i s = fpCompare g p a b f c s) (hieee : f.ieee = true) (hw : f.mant + 1 < f.width) (hg : s.guardOk g = true) :
    GivesFpP i p (c.ofValues (s.fsrc f a) (s.fsrc f b)).1 (nvIf (c.ofValues (s.fsrc f a) (s.fsrc f b)).2) s := by
  refine .of (hi.trans ((guarded_true hg _).trans ?_))
  simp only [fCompare_eq_ofValues hieee hw, State.fsrc]

end Sys2Proof.Machine

namespace Sys2Proof.Proofs

open Sys2Proof.Machine

/-- Settles O7: the selections and sign operations by the codes, whose order is that of their values, and the
compares by the values. -/
theorem floatSelectionsAndCompares : Obligations.FloatSelectionsAndCompares := by
  unfold Obligations.FloatSelectionsAndCompares
  refine ⟨?selections, ?compares⟩
  case selections =>
    intro g d a b s hg rows
    have rows_of (f : Fmt) (hieee : f.ieee = true) (hw : f.mant + 1 < f.width) {min max abs neg cpys cls : Instr}
        (hmin : exec min s = fpMinMax g d a b f false s) (hmax : exec max s = fpMinMax g d a b f true s)
        (habs : exec abs s = fpSign g d a f (fun _ => false) s) (hneg : exec neg s = fpSign g d a f (fun sg => !sg) s)
        (hcpys : exec cpys s = fpCopySign g d a b f s) (hcls : exec cls s = fpClass g d a f s) :
        rows f f.signBit f.canonNaN min max abs neg cpys cls := by
      have mins {w fl} (h : fMinMax f false (s.getX a).toNat (s.getX b).toNat = (w, fl)) :
          GivesFp min d (BitVec.ofNat 64 w) fl s := .result hmin hg h
      have maxs {w fl} (h : fMinMax f true (s.getX a).toNat (s.getX b).toNat = (w, fl)) :
          GivesFp max d (BitVec.ofNat 64 w) fl s := .result hmax hg h
      dsimp only [rows]
      simp only [Fmt.two_mul_signBit hw, Fmt.decode_mod, Bool.not_eq_true']
      refine ⟨fun ha hb => ?nanNan, fun ha hb => ?nanLeft, fun ha hb => ?nanRight, fun h => ?le, fun h => ?ge,
        .result habs hg ?abs, .result hneg hg ?neg, .result hcpys hg ?cpys,
        (f.decode (s.getX a).toNat).whole, f.kind (f.decode (s.getX a).toNat), .result hcls hg ?cls, FVal.whole_iff _, ?kind⟩
      case nanNan => exact ⟨mins (fMinMax_nan_nan ha hb _), maxs (fMinMax_nan_nan ha hb _)⟩
      case nanLeft => exact ⟨mins (fMinMax_nan_left ha hb _), maxs (fMinMax_nan_left ha hb _)⟩
      case nanRight => exact ⟨mins (fMinMax_nan_right ha hb _), maxs (fMinMax_nan_right ha hb _)⟩
      case le =>
        obtain ⟨ha, hb⟩ := FVal.not_isNaN_of_ordered h
        have hle := Fmt.orderKey_le_of_values hieee hw ha hb h
        exact ⟨mins (fMinMax_of_orderKey_le ha hb hle _), maxs (fMinMax_of_orderKey_le ha hb hle _)⟩
      case ge =>
        rw [FVal.same_comm] at h
        obtain ⟨hb, ha⟩ := FVal.not_isNaN_of_ordered h
        have hge := Fmt.orderKey_le_of_values hieee hw hb ha h
        exact ⟨mins (fMinMax_of_orderKey_ge ha hb hge _), maxs (fMinMax_of_orderKey_ge ha hb hge _)⟩
      case abs => rw [fSignOp_eq, sigFlags_one, ← Fmt.magOf_eq_mod hw]; rfl
      case neg => rw [fSignOp_eq, sigFlags_one, Fmt.withSign_not_signOf hw]; rfl
      case cpys => rw [fSignOp_eq, sigFlags_two, Fmt.withSign_signOf hw, ← Fmt.magOf_eq_mod hw]; rfl
      case cls => rw [fClass_eq, sigFlags_one]; rfl
      case kind => cases f.decode (s.getX a).toNat <;> rfl
    exact ⟨rows_of fp32 rfl (by decide) (exec_fminS ..) (exec_fmaxS ..) (exec_fabsS ..) (exec_fnegS ..) (exec_fcpysS ..)
        (exec_fclassS ..),
      rows_of fp64 rfl (by decide) (exec_fminD ..) (exec_fmaxD ..) (exec_fabsD ..) (exec_fnegD ..) (exec_fcpysD ..)
        (exec_fclassD ..)⟩
  case compares =>
    intro g p a b s hg rows
    have rows_of (f : Fmt) (hieee : f.ieee = true) (hw : f.mant + 1 < f.width) {eq lt le un : Instr}
        (heq : exec eq s = fpCompare g p a b f .eq s) (hlt : exec lt s = fpCompare g p a b f .lt s)
        (hle : exec le s = fpCompare g p a b f .le s) (hun : exec un s = fpCompare g p a b f .un s) :
        rows f eq lt le un :=
      ⟨.compare heq hieee hw hg, .compare hlt hieee hw hg, .compare hle hieee hw hg, .compare hun hieee hw hg⟩
    exact ⟨rows_of fp32 rfl (by decide) (exec_fceqS ..) (exec_fcltS ..) (exec_fcleS ..) (exec_fcunS ..),
      rows_of fp64 rfl (by decide) (exec_fceqD ..) (exec_fcltD ..) (exec_fcleD ..) (exec_fcunD ..)⟩

end Sys2Proof.Proofs
end

section
/-! PROOFS. Approximations and conversions (R117, R118, R121, R122): the special operands of each approximation, the ranges past
which FEXP2 and FTANH have one result, and the statement read off them. -/

namespace Sys2Proof.Machine

/-! ### Special operands of the approximations (R118) -/

/-- A value below zero, −∞ included, is −∞ or a finite value that is not zero. -/
theorem FVal.eq_of_negative {x : FVal} (hnan : (!x.isNaN) = true) (hzero : (!x.isZero) = true) (hsign : x.sign = true) :
    x = .inf true ∨ ∃ m e, x = .fin true m e ∧ m ≠ 0 := by
  cases x with
  | nan sig => simp [FVal.isNaN] at hnan
  | inf n => exact .inl (by rw [show n = true from hsign])
  | fin n m e =>
    obtain rfl : n = true := hsign
    exact .inr ⟨m, e, rfl, by simpa [FVal.isZero] using hzero⟩

theorem fRsq_of_negative {x : FVal} (hnan : (!x.isNaN) = true) (hzero : (!x.isZero) = true) (hsign : x.sign = true) :
    fRsq x = (fp32.canonNaN, flagNV) := by
  rcases FVal.eq_of_negative hnan hzero hsign with rfl | ⟨m, e, rfl, hm⟩
  · rfl
  · simp [fRsq, hm]

theorem fLog2_of_negative {x : FVal} (hnan : (!x.isNaN) = true) (hzero : (!x.isZero) = true) (hsign : x.sign = true) :
    fLog2 x = (fp32.canonNaN, flagNV) := by
  rcases FVal.eq_of_negative hnan hzero hsign with rfl | ⟨m, e, rfl, hm⟩
  · rfl
  · simp [fLog2, hm]

/-- R118: 2^0 is 1.0, exactly. -/
theorem fExp2_zero (n : Bool) (e : Int) : fExp2 (.fin n 0 e) = (0x3F800000, 0) := by
  have hone : fp32.deliver .rne (.fin false 1 0) = (0x3F800000, 0) := by decide
  rw [← hone]
  rfl

/-! ### Ranges of one result (R118) -/

theorem Fmt.quantum_le_of_decode {f : Fmt} (hieee : f.ieee = true) (hw : f.mant + 1 < f.width) {a : Nat} {n : Bool} {m : Nat}
    {e : Int} (h : f.decode a = .fin n m e) : f.quantum ≤ e := by
  have hnan : (f.decode a).isNaN = false := by rw [h]; rfl
  rcases Fmt.decode_cases hieee hw hnan with ⟨hinf, -⟩ | ⟨m', e', hfin, -, he, -⟩
  · rw [h] at hinf
    contradiction
  · rw [h] at hfin
    cases hfin
    exact he

theorem ne_zero_of_le_scaled {c m : Nat} {e : Int} (hc : 0 < c) (h : c * 2 ^ (-e).toNat ≤ m * 2 ^ e.toNat) : m ≠ 0 := by
  rintro rfl
  rw [Nat.zero_mul] at h
  exact absurd h (Nat.not_le.mpr (Nat.mul_pos hc (Nat.two_pow_pos _)))

/-- A value of at least c is at least c in the fixed point of the series, which keeps every bit down to 2^−320. -/
theorem le_fixed_of_le_scaled {c m : Nat} {e : Int} (he : -(fixBits : Int) ≤ e)
    (h : c * 2 ^ (-e).toNat ≤ m * 2 ^ e.toNat) :
    c * fixOne ≤ if 0 ≤ e then m * 2 ^ e.toNat * fixOne else m * 2 ^ (fixBits - (-e).toNat) := by
  by_cases hneg : 0 ≤ e
  · rw [if_pos hneg]
    rw [show (-e).toNat = 0 by omega, Nat.pow_zero, Nat.mul_one] at h
    exact Nat.mul_le_mul_right _ h
  · rw [if_neg hneg]
    rw [show e.toNat = 0 by omega, Nat.pow_zero, Nat.mul_one] at h
    have hsplit : fixOne = 2 ^ (-e).toNat * 2 ^ (fixBits - (-e).toNat) := by
      rw [← Nat.pow_add, fixOne]
      congr 1
      omega
    rw [hsplit, ← Nat.mul_assoc]
    exact Nat.mul_le_mul_right _ h

theorem fExp2_of_ge {m : Nat} {e : Int} (he : -(fixBits : Int) ≤ e) (h : 128 * 2 ^ (-e).toNat ≤ m * 2 ^ e.toNat) :
    fExp2 (.fin false m e) = (fp32.infCode, flagOF ||| flagNX) := by
  have hm : m ≠ 0 := ne_zero_of_le_scaled (by decide) h
  have hfix := le_fixed_of_le_scaled he h
  rw [fExp2, if_neg hm]
  generalize (if 0 ≤ e then m * 2 ^ e.toNat * fixOne else m * 2 ^ (fixBits - (-e).toNat)) = mag at hfix ⊢
  have hlarge : 128 * (fixOne : Int) ≤ mag := by omega
  dsimp only
  rw [if_neg Bool.false_ne_true, if_pos hlarge]

theorem fExp2_of_le {m : Nat} {e : Int} (he : -(fixBits : Int) ≤ e) (h : 150 * 2 ^ (-e).toNat ≤ m * 2 ^ e.toNat) :
    fExp2 (.fin true m e) = (0, flagUF ||| flagNX) := by
  have hm : m ≠ 0 := ne_zero_of_le_scaled (by decide) h
  have hfix := le_fixed_of_le_scaled he h
  rw [fExp2, if_neg hm]
  generalize (if 0 ≤ e then m * 2 ^ e.toNat * fixOne else m * 2 ^ (fixBits - (-e).toNat)) = mag at hfix ⊢
  have hpos : 0 < fixOne := Nat.two_pow_pos _
  have hsmall : -(mag : Int) ≤ -(150 * (fixOne : Int)) := by omega
  have hnot : ¬ 128 * (fixOne : Int) ≤ -(mag : Int) := by omega
  dsimp only
  rw [if_pos rfl, if_neg hnot, if_pos hsmall]

/-- A value of at least 16 has its first bit at 2^4 or above. -/
theorem fTanh_of_ge {m : Nat} {e : Int} (n : Bool) (h : 16 * 2 ^ (-e).toNat ≤ m * 2 ^ e.toNat) :
    fTanh (.fin n m e) = (fp32.withSign n 0x3F800000, flagNX) := by
  have hm : m ≠ 0 := ne_zero_of_le_scaled (by decide) h
  have hlarge : 4 < e + (bitLen m : Int) := by
    have hlt : m * 2 ^ e.toNat < 2 ^ (bitLen m + e.toNat) := by
      rw [Nat.pow_add]
      exact Nat.mul_lt_mul_of_pos_right (lt_two_pow_bitLen m) (Nat.two_pow_pos _)
    have hpow : 2 ^ (4 + (-e).toNat) < 2 ^ (bitLen m + e.toNat) := by
      rw [Nat.pow_add]
      exact Nat.lt_of_le_of_lt h hlt
    have hexp := (Nat.pow_lt_pow_iff_right (by decide : 1 < 2)).mp hpow
    omega
  rw [fTanh, if_neg hm, if_pos hlarge]

/-! ### Conversions to an integer (R122) -/

theorem GivesFp.toInteger {i : Instr} {g : Guard} {d a : Reg} {f : Fmt} {lo hi : Int} {s : State}
    (hexec : exec i s = cvtToInt g d a f lo hi (fun i => BitVec.ofInt 64 i) s) (hg : s.guardOk g = true) :
    GivesFp i d (BitVec.ofInt 64 (narrowInt lo hi s.thr.rm (s.fsrc f a)).1) (narrowInt lo hi s.thr.rm (s.fsrc f a)).2 s :=
  .of (hexec.trans (guarded_true hg _))

theorem GivesFp.fromInteger {i : Instr} {g : Guard} {d a : Reg} {f : Fmt} {v : Word → Int} {n : Int} {s : State}
    (hexec : exec i s = cvtFromInt g d a f v s) (hg : s.guardOk g = true) (hv : v (s.getX a) = n) :
    GivesFp i d (BitVec.ofNat 64 (f.deliver s.thr.rm (.ofInt n)).1) (f.deliver s.thr.rm (.ofInt n)).2 s :=
  .result hexec hg (by rw [hv])

end Sys2Proof.Machine

namespace Sys2Proof.Proofs

open Sys2Proof.Machine

/-- Settles O8: the approximations by cases on the source, the conversions by the one operation that each is. -/
theorem floatApproximationsAndConversions : Obligations.FloatApproximationsAndConversions := by
  unfold Obligations.FloatApproximationsAndConversions
  refine ⟨fun g d a s hg => ?approximations, fun g d a s hg => ?conversions⟩
  case approximations =>
    let x := s.fsrc fp32 a
    have rcps {w fl} (h : fRcp x = (w, fl)) : GivesFp (.frcpS g d a) d (BitVec.ofNat 64 w) fl s := .unary (exec_frcpS ..) hg h
    have rsqs {w fl} (h : fRsq x = (w, fl)) : GivesFp (.frsqS g d a) d (BitVec.ofNat 64 w) fl s := .unary (exec_frsqS ..) hg h
    have exps {w fl} (h : fExp2 x = (w, fl)) : GivesFp (.fexp2S g d a) d (BitVec.ofNat 64 w) fl s :=
      .unary (exec_fexp2S ..) hg h
    have logs {w fl} (h : fLog2 x = (w, fl)) : GivesFp (.flog2S g d a) d (BitVec.ofNat 64 w) fl s :=
      .unary (exec_flog2S ..) hg h
    have tanhs {w fl} (h : fTanh x = (w, fl)) : GivesFp (.ftanhS g d a) d (BitVec.ofNat 64 w) fl s :=
      .unary (exec_ftanhS ..) hg h
    have hexp {n m e} (h : x = .fin n m e) : -(fixBits : Int) ≤ e :=
      Int.le_trans (by decide) (Fmt.quantum_le_of_decode (f := fp32) rfl (by decide) h)
    dsimp only
    rw [show fp32.decode (s.getX a).toNat = x from rfl]
    clear_value x
    refine ⟨rcps rfl, rsqs rfl, exps rfl, logs rfl, tanhs rfl, fun hnan => ?nan, fun hzero => ?zero, fun hinf => ?inf,
      fun hx => ?posInf, fun hnan hzero hsign => ?negative,
      fun n m e hx => ⟨fun hn h => ?exp2Large, fun hn h => ?exp2Small, fun h => ?tanhLarge⟩⟩
    case nan =>
      obtain ⟨sig, rfl⟩ := FVal.exists_nan hnan
      exact ⟨rcps rfl, rsqs rfl, exps rfl, logs rfl, tanhs rfl⟩
    case zero =>
      obtain ⟨n, e, rfl⟩ := FVal.exists_zero hzero
      exact ⟨rcps rfl, rsqs rfl, logs rfl, exps (fExp2_zero n e), tanhs rfl⟩
    case inf =>
      obtain ⟨n, rfl⟩ := FVal.exists_inf hinf
      refine ⟨rcps rfl, tanhs rfl, ?_⟩
      cases n <;> exact exps rfl
    case posInf =>
      subst hx
      exact ⟨rsqs rfl, logs rfl⟩
    case negative => exact ⟨rsqs (fRsq_of_negative hnan hzero hsign), logs (fLog2_of_negative hnan hzero hsign)⟩
    case exp2Large =>
      subst hx hn
      exact exps (fExp2_of_ge (hexp rfl) h)
    case exp2Small =>
      subst hx hn
      exact exps (fExp2_of_le (hexp rfl) h)
    case tanhLarge =>
      subst hx
      exact tanhs (fTanh_of_ge n h)
  case conversions =>
    refine ⟨?sd, ?ds, ?sh, ?hs, ?sbf, ?bfs, ?se4, ?e4s, ?se5, ?e5s, ?ws, ?wus, ?ld, ?sw, ?swu, ?dl⟩
    case sd => exact .unary (exec_cvtSD ..) hg rfl
    case ds => exact .unary (exec_cvtDS ..) hg rfl
    case sh => exact .unary (exec_cvtSH ..) hg rfl
    case hs => exact .unary (exec_cvtHS ..) hg rfl
    case sbf => exact .unary (exec_cvtSBf ..) hg rfl
    case bfs => exact .unary (exec_cvtBfS ..) hg rfl
    case se4 => exact .unary (exec_cvtSE4 ..) hg rfl
    case e4s => exact .unary (exec_cvtE4S ..) hg rfl
    case se5 => exact .unary (exec_cvtSE5 ..) hg rfl
    case e5s => exact .unary (exec_cvtE5S ..) hg rfl
    case ws => exact .toInteger (exec_cvtWS ..) hg
    case wus => exact .toInteger (exec_cvtWuS ..) hg
    case ld => exact .toInteger (exec_cvtLD ..) hg
    case sw => exact .fromInteger (exec_cvtSW ..) hg rfl
    case swu => exact .fromInteger (exec_cvtSWu ..) hg (by rw [BitVec.toNat_setWidth])
    case dl => exact .fromInteger (exec_cvtDL ..) hg rfl

end Sys2Proof.Proofs
end
